-- ==== Sys2Proof/Word.lean ====
section
/-! DEFINITION. The word types of the model: bytes, byte strings and the widths the spec's fields have. -/

namespace Sys2Proof

/-- An octet. -/
abbrev Byte := BitVec 8

/-- A byte string (digests, keys, payloads, ciphertexts), in the order its chapter gives (R14). -/
abbrev Bytes := List (BitVec 8)

/-- A 32-bit register word. -/
abbrev Word32 := BitVec 32

/-- A 64-bit word. -/
abbrev Word64 := BitVec 64

/-- One value for each of PF0 to PF4, of ports 0 to 4, or of the five dies of `CLK.TEMP`. -/
structure Five (α : Type) where
  a0 : α
  a1 : α
  a2 : α
  a3 : α
  a4 : α
  deriving DecidableEq, Repr

/-- One value for each of the four mailboxes or the four compute dies. -/
structure Four (α : Type) where
  a0 : α
  a1 : α
  a2 : α
  a3 : α
  deriving DecidableEq, Repr

end Sys2Proof
end

