-- ==== Sys2Proof/Syntax.lean ====
section
/-! DEFINITION. The commands of the block: one constructor of `Instr` for each row of spec/opcode_table.json, and the
types of their operands. A row of a physical or cryptographic event carries what the event brings (a sample, a packet,
whether a signature verified) as its operands: `sigOk` says that a command's signature verifies, `secure` that a request of the
host arrives on the selective stream with T = 1 (R306), `ctrlBootOk` and the like that an image's signature verifies (R324),
`carrierHigh` of RESET_N_RISE that it is the carrier that lets the line go, and not the module. -/

namespace Sys2Proof

/-- A physical function PF0 to PF4 (Table 15-2). -/
abbrev FnId := Fin 5
/-- A mailbox 0 to 3 (R310). -/
abbrev MbId := Fin 4
/-- A port 0 to 4 (R11). -/
abbrev PortId := Fin 5

/-- The `_LO` registers whose read latches a `_HI` register (R435) and that have no row of their own. -/
inductive LoReg where
  | strokeLo      -- PRS.STROKE_LO, Table 2-4
  | lastApplyLo   -- PRS.LAST_APPLY_LO, Table 2-9
  | lastSwapLo    -- PLA.LAST_SWAP_LO, Table 3-12
  | keyStreamLo   -- HEV.KEY_STREAM_LO, Table 10-10
  deriving DecidableEq, Repr

/-- What the host answers to a read of the module (Table 15-5); a timeout has a row of its own. -/
inductive HostAnswer where
  | data (bytes : Bytes)
  | poisoned
  | unsupported
  | completerAbort
  deriving DecidableEq, Repr

/-- What the memory finds wrong on a read, by device address: parity of a graver SRAM word (R54), or the integrity logic on an HBM line (R360). -/
inductive MemFail where
  | check (a : Nat)      -- the SRAM word fails its parity, or the MAC of the HBM line fails
  | treeOnce (a : Nat)   -- the counter block of the line's page, or a node above it, fails its MAC and verifies on the second read
  | treeTwice (a : Nat)  -- it fails both times: tamper source 6
  deriving DecidableEq, Repr

/-- What the physical store and the checks report while a homomorphic operation runs (R210, R211, R217, R73, Table 11-3). -/
inductive HevEvent where
  | none          -- no fault
  | poison (bad : List MemFail)  -- poisoned words in a slot, a working bank or a key chunk, with what fails its check now
  | pass (eval : Bool) (g r : Nat) (input output : List Nat)  -- an automorphism pass on a limb of prime r, as its two checks read it (R210)
  | twinMismatch  -- the twin check values differ (R73)
  deriving DecidableEq, Repr

/-- The 96-bit name of a datum (Table 2-1). -/
structure DatumName where
  stroke : Nat
  member : Nat
  unit   : Nat
  epoch  : Nat
  slot   : Nat
  deriving DecidableEq, Repr

/-- A ring frame as it arrives (Table 7-6). `tagOk` is what the tag check finds, `payload` the decrypted payload, `bad` the byte offsets of its stored
64-bit words that fail parity when they are read (R285). -/
structure RingFrame where
  type     : Nat
  dest     : Nat
  src      : Nat
  hopsLeft : Nat
  linkId   : Nat
  frameCtr : Nat
  name     : DatumName
  datumLen : Nat
  offset   : Nat
  payload  : Bytes
  tagOk    : Bool
  bad      : List Nat
  deriving DecidableEq, Repr

/-- A ring delimiter (Table 12-3). -/
structure Delimiter where
  ack     : Nat
  keyNext : Bool
  nak     : Bool
  xoff    : Bool
  frame   : Bool
  deriving DecidableEq, Repr

/-- A view frame (R163). -/
structure ViewFrame where
  src      : Nat
  epoch    : Nat
  alive    : BitVec 32
  lastStep : Nat
  digests  : List (Nat × BitVec 64)
  deriving DecidableEq, Repr

/-- How a received Ethernet frame is marked (R231, R233, R288). -/
inductive FrameKind where
  | eapol                                                   -- EtherType 0x888E
  | linkPause                                               -- 802.3 Annex 31B PAUSE
  | unprotected                                             -- no valid SecTAG
  | macsec (an sci pn : Nat) (icvOk : Bool)                 -- a protected frame, its packet number of 64 bits
  deriving DecidableEq, Repr

/-- Codewords that a port's FEC has corrected, and failed to correct, up to a row (R247). -/
structure Codewords where
  corrected : Nat
  failed    : Nat
  deriving DecidableEq, Repr

/-- What a port receives, and the codewords of its FEC up to it. -/
structure Heard (α : Type) where
  item : α
  cw   : Codewords
  deriving DecidableEq, Repr

/-- What a member suspects (R161): another member, and the cable that was silent, where one was. -/
structure Suspicion where
  member : Nat
  cable  : Option Nat
  deriving DecidableEq, Repr

/-- A mailbox command that reads memory: its mailbox, and what fails its check as it reads. -/
structure MbReads where
  mb  : MbId
  bad : List MemFail
  deriving DecidableEq, Repr

/-- A fetched descriptor whose request reads device memory, and what fails its check as it reads. -/
structure DescReads where
  id  : Nat
  bad : List MemFail
  deriving DecidableEq, Repr

/-- A function that fetches a descriptor, and what fails its check where the ring lies in device memory. -/
structure FnReads where
  fn  : FnId
  bad : List MemFail
  deriving DecidableEq, Repr

/-- A device address of the debug port, and what fails its check as it is read. -/
structure AddrReads where
  addr : Nat
  bad  : List MemFail
  deriving DecidableEq, Repr

/-- A signed command that looks at the tamper sensors: its mailbox, and the sources that are in alarm as it runs. -/
structure MbSensors where
  mb      : MbId
  inAlarm : List Nat
  deriving DecidableEq, Repr

/-- Data out of the buffer pool, and the offsets of the words among them that fail their check there (R285). -/
structure PoolData where
  bytes : Bytes
  bad   : List Nat
  deriving DecidableEq, Repr

/-- An SMBus transaction's 7-bit target address and its offset in mailbox 3's window (R315, R424). -/
structure SmbPlace where
  addr : BitVec 7
  off  : BitVec 16
  deriving DecidableEq, Repr

/-- What the debug port does: an access of its instruction to PF0 BAR0 at an offset; rising edges of JTAG_TCK, each with JTAG_TMS and JTAG_TDI; a low
JTAG_TRST_N (R418, R423). -/
inductive DebugPort where
  | bar0 (off : Nat)
  | clocks (edges : List (Bool × Bool))
  | reset
  deriving DecidableEq, Repr

/-- A record of the OTP as option load reads it: its type, the OTP word address, its bytes and its CRC-64 (R389). -/
structure OptRecord where
  type : Nat
  addr : Nat
  data : Bytes
  crc  : BitVec 64
  deriving DecidableEq, Repr

/-- Where a register write of the host goes: an offset of BAR0; a half of a BAR register, BAR0's then BAR2's, the low one first; the function's MSI-X
table; the registers of its IDE capability (R306). -/
inductive RegPlace where
  | bar0 (off : Nat)
  | barRegister (half : Fin 4)
  | msixTable (off : Nat)
  | ideRegister (off : Nat)
  deriving DecidableEq, Repr

/-- An action that begins, and what fails its check as it reads. -/
structure ActionReads where
  id  : Nat
  bad : List MemFail
  deriving DecidableEq, Repr

/-- A received Ethernet frame. `length` counts from destination address to FCS; `ect` and `ce` say what its IP header carries. -/
structure NetFrame where
  kind     : FrameKind
  priority : Nat
  length   : Nat
  ect      : Bool
  ce       : Bool
  fcsOk    : Bool
  bytes    : Bytes
  deriving DecidableEq, Repr

/-- The request opcodes of R248. -/
inductive RoceOp where
  | send | sendImm | write | writeImm | read | unsupported
  deriving DecidableEq, Repr

/-- What a pattern test finds at a device address as it reads back (R413): other data, or a failure of the memory's own checks. -/
inductive PatternErr where
  | differs (a : Nat)
  | fails (f : MemFail)
  deriving DecidableEq, Repr

/-- An incoming RoCEv2 request packet (R256). The RETH fields `rkey`, `va`, `dmaLen` are those of the message's first
packet, and the packet that ends a message carries its `imm`; `first` and `last` say where in its message the packet stands;
`ce` is the mark it arrived with, `bad` the byte offsets of its stored 64-bit words that fail parity when they are read (R269, R285), `fails` what a READ
finds wrong in the memory that it reads (R360). -/
structure RocePacket where
  port    : PortId
  qpn     : Nat
  psn     : Nat
  op      : RoceOp
  first   : Bool
  last    : Bool
  rkey    : Nat
  va      : Nat
  dmaLen  : Nat
  imm     : Nat
  final   : Bool
  ce      : Bool
  bad     : List Nat
  fails   : List MemFail
  data    : Bytes
  deriving DecidableEq, Repr

/-- The standard NAKs of R265. -/
inductive NakKind where
  | remoteAccess | invalidRequest | remoteOperational
  deriving DecidableEq, Repr

/-- A handshake message of R239 as its receiver sees it: what it carries and what its checks find. -/
structure Handshake where
  sigOk      : Bool     -- the signature over the transcript verifies
  decapOk    : Bool     -- decapsulation or encapsulation succeeds
  identity   : Bytes    -- the identity digest the chain proves
  ringDigest : Bytes    -- the ring-parameter digest of R140 step 5
  kem        : Bytes    -- encapsulation key (initiator) or ciphertext (responder)
  nonce      : Bytes
  chain      : Bytes    -- the identity certificate chain
  sig        : Bytes    -- the signature by the identity key
  deriving DecidableEq, Repr

/-- The commands of the block, one constructor for each row of spec/opcode_table.json, in the table's order. -/
inductive Instr where
  -- registers, mailboxes, SMBus
  | registerWrite (fn : FnId) (secure : Bool) (place : RegPlace) (width : Nat) (v : BitVec 64)
  | badRegisterAccess (fn : FnId) (secure : Bool) (off : Nat) (width : Nat) (isWrite : Bool)
  | loRegisterRead (secure : Bool) (r : LoReg)
  | snapCtrlArm (secure : Bool)
  | mailboxGo (mb : MbId) (secure : Bool)
  | commandDispatch (mb : MbId)
  | smbusBlockWrite (place : SmbPlace) (data : Bytes) (pecOk : Bool)
  | smbusProcessCall (place : SmbPlace) (count : Nat) (pecOk : Bool)
  -- mailbox commands
  | identityGet (mb : MbId)
  | moduleStatus (mb : MbId)
  | eventRingSet (mb : MbId)
  | eventRingClear (mb : MbId)
  | lifecycleGet (mb : MbId)
  | ownerClaim (mb : MbId) (sigOk : Bool)
  | modeSet (mb : MbId) (sigOk : Bool)
  | ownerRelease (mb : MbId) (sigOk : Bool)
  | retire (mb : MbId) (sigOk : Bool)
  | tamperUnlock (m : MbSensors) (sigOk : Bool)
  | keyGenerate (mb : MbId)
  | keyImportWrapped (mb : MbId)
  | keyDestroy (mb : MbId)
  | keySlotStatus (mb : MbId)
  | keyOriginStatement (mb : MbId)
  | attestReport (mb : MbId)
  | certChainGet (mb : MbId)
  | plateKeyEnroll (mb : MbId) (sigOk : Bool)
  | hbmKeyRotate (mb : MbId)
  | randomGet (mb : MbId)
  | randomGetTimeout (mb : MbId)
  | plateStage (m : MbReads) (sigOk : Bool)
  | plateBind (mb : MbId)
  | plateUnstage (mb : MbId)
  | fabricStatus (mb : MbId)
  | decodeOpen (mb : MbId)
  | weightsLoad (m : MbReads)
  | draftLoad (m : MbReads)
  | weightsUnload (mb : MbId)
  | decodeFinish (mb : MbId)
  | decodeClose (mb : MbId)
  | decodeStatus (mb : MbId)
  | replayVerify (m : MbReads) (sigOk : Bool)
  | ringForm (mb : MbId)
  | ringFormTimeout (mb : MbId)
  | ringStatus (mb : MbId)
  | ringDissolve (mb : MbId)
  | ringSpareJoin (mb : MbId)
  | ringAdmit (mb : MbId)
  | roundOpen (mb : MbId)
  | roundClose (mb : MbId)
  | roundCorrect (m : MbReads)
  | roundRelease (m : MbReads)
  | roundAbort (mb : MbId)
  | roundStatus (mb : MbId)
  | roundCounts (mb : MbId)
  | roundBitmap (mb : MbId)
  | hevCtxOpen (mb : MbId)
  | hevCtxClose (mb : MbId)
  | hevKeyLoad (m : MbReads)
  | hevKeyDrop (mb : MbId)
  | hevCtxStatus (mb : MbId)
  | hevBurnishSet (mb : MbId)
  | portSet (mb : MbId)
  | portStatus (mb : MbId)
  | macsecSaSet (mb : MbId)
  | macsecSaClear (mb : MbId)
  | linkRekey (mb : MbId)
  | rdmPdAlloc (mb : MbId)
  | rdmPdFree (mb : MbId)
  | rdmRegionReg (mb : MbId)
  | rdmRegionDereg (mb : MbId)
  | rdmWindowOpen (mb : MbId)
  | rdmWindowRevoke (mb : MbId)
  | rdmConnOpen (mb : MbId)
  | rdmConnClose (mb : MbId)
  | rdmConnStatus (mb : MbId)
  | rdmTrigger (mb : MbId)
  | wringCreate (mb : MbId)
  | wringDestroy (mb : MbId)
  | cringCreate (mb : MbId)
  | cringDestroy (mb : MbId)
  | wringStatus (mb : MbId)
  | funcQuiesce (mb : MbId)
  | bistLogic (mb : MbId)
  | bistMemory (mb : MbId)
  | hbmPatternTest (mb : MbId)
  | snapshotArm (mb : MbId)
  | snapshotRead (mb : MbId)
  | fwStage (m : MbReads) (sigOk : Bool)
  | fwActivate (mb : MbId)
  | fwStatus (mb : MbId)
  | rollbackAdvance (mb : MbId)
  -- doorbells and rings
  | workRingDoorbell (fn : FnId) (secure : Bool) (ring : Nat) (v : BitVec 64)
  | completionRingDoorbell (fn : FnId) (secure : Bool) (ring : Nat) (v : BitVec 64)
  | eventRingDoorbell (secure : Bool) (v : BitVec 64)
  | descriptorFetch (f : FnReads)
  | completionCoalesceExpire (cring : Nat)
  | wringDrainDone (wring : Nat)
  -- fetched descriptors
  | decodeInputDescriptor (d : DescReads)
  | decodeOutputDescriptor (d : Nat)
  | hevImport (d : DescReads)
  | hevExport (d : Nat)
  | hevAdd (d : Nat)
  | hevSub (d : Nat)
  | hevNeg (d : Nat)
  | hevAddPlain (d : Nat)
  | hevMulPlain (d : Nat)
  | hevMul (d : Nat)
  | hevRescale (d : Nat)
  | hevDrop (d : Nat)
  | hevAutomorph (d : Nat)
  | hevRotsum (d : DescReads)
  | hevNtt (d : Nat)
  | hevIntt (d : Nat)
  | burnish (d : Nat)
  | hevOpBegin (d : Nat)
  | hevOpComplete (d : Nat) (ev : HevEvent)
  | rdmSend (d : DescReads)
  | rdmSendImm (d : DescReads)
  | rdmWrite (d : DescReads)
  | rdmWriteImm (d : DescReads)
  | rdmRead (d : Nat)
  | rdmReceivePost (d : Nat)
  | triggeredRequestFire (d : DescReads)
  -- actions and the press
  | actionBegin (a : ActionReads)
  | actionComplete (a : Nat) (upset : List (Nat × Bytes))
  | pressAdvance
  | idleStroke
  | pressStall
  | snapshotDone
  | plateLoadComplete (plate : Nat) (bad : List MemFail)
  -- the decode session
  | prefillChunk
  | verificationStep
  | stepCommit
  | sessionResume
  | openDigestExchange (digests : List (Nat × Bytes))
  | openJoinTimeout (member : Nat)
  -- ring frames and recovery
  | ringFrameReceive (port : PortId) (f : RingFrame)
  | ringDelimiterReceive (port : PortId) (d : Heard Delimiter)
  | ringRetxTimeout (port : PortId)
  | ringIdleDelimiter (port : PortId)
  | keepaliveSend (port : PortId)
  | keepaliveReceive (port : PortId) (src : Nat) (stroke : Nat) (epoch : Nat) (state : Nat)
  | linkSilenceTimeout (member : Nat) (port : PortId)
  | progressTimeout (member : Nat)
  | suspicionReceive (src : Nat) (x : Suspicion)
  | selfReportReceive (member : Nat)
  | stepDigestVote
  | viewFrameReceive (v : ViewFrame)
  | reformTimeout
  | mirrorRebuildDone (first : Nat) (count : Nat)
  | spareHandover (index : Nat)
  | ringHandshakeInitReceive (port : PortId) (h : Handshake)
  | ringHandshakeResponseReceive (port : PortId) (h : Handshake)
  | rekeySwitch (port : PortId)
  | rekeyRetry (port : PortId)
  -- ports
  | portTrainAttempt (port : PortId) (ok : Bool)
  | portLinkUp (port : PortId)
  | linkDown (port : PortId) (reason : Heard Nat)
  | networkFrameReceive (port : PortId) (f : Heard NetFrame)
  | pfcPauseReceive (port : PortId) (priority : Fin 8)
  -- remote memory
  | roceRequestReceive (p : RocePacket)
  | roceAckReceive (qpn : Nat) (psn : Nat) (status : Option Nat)
  | roceReadResponseReceive (qpn : Nat) (psn : Nat) (data : PoolData) (last : Bool)
  | roceNakReceive (qpn : Nat) (psn : Nat) (kind : NakKind)
  | psnSequenceNakReceive (qpn : Nat) (psn : Nat)
  | rnrNakReceive (qpn : Nat) (psn : Nat) (timer : Nat)
  | rnrTimerExpire (conn : Nat)
  | ackTimeout (conn : Nat)
  | contextFetchDone (conn : Nat)
  | cnpReceive (qpn : Nat)
  | rateIncreaseTimer (conn : Nat)
  | finalWritePlace (conn : Nat) (psn : Nat)
  | revokeDone (key : Nat)
  | stagingReserve
  | sliceAdmission (id : Nat) (bad : List MemFail)
  | roundClosed (round : Nat)
  | eventIrqCoalesceExpire
  -- the host's memory path
  | bar2Read (fn : FnId) (off : Nat) (len : Nat) (secure : Bool) (bad : List MemFail)
  | bar2Write (fn : FnId) (off : Nat) (data : Bytes) (secure : Bool) (bad : List MemFail)
  | hostReadCompletion (rid : Nat) (ans : HostAnswer)
  | hostCompletionTimeout (rid : Nat)
  | flr (fn : FnId)
  | flrPf0
  | hotReset
  | busMasterEnableSet (fn : FnId)
  -- SPDM, IDE, TDISP
  | getVersion
  | getCapabilities
  | negotiateAlgorithms (offersMlDsa offersMlKem : Bool)
  | getDigests
  | getCertificate (off len : Nat)
  | challenge (nonce : Bytes)
  | getMeasurements (nonce : Bytes)
  | keyExchange (encapKey : Bytes)
  | finish (verifyOk : Bool)
  | endSession
  | keyUpdate
  | heartbeat
  | ideKmKeyProg (stream : Fin 2) (keySet : Fin 2) (dir : Fin 2) (sub : Fin 3) (key : Bytes)
  | kSetGo (stream : Fin 2)
  | ideIntegrityFail (stream : Fin 2)
  | lockInterfaceRequest (fn : FnId)
  | startInterfaceRequest (fn : FnId)
  | stopInterfaceRequest (fn : FnId)
  | getDeviceInterfaceReport (fn : FnId)
  -- the check-value unit
  | cvuStart (secure : Bool)
  | cvuDataWrite (secure : Bool) (nbytes : Nat) (v : BitVec 32)
  | cvuByteStep
  | cvuResultRead (secure : Bool)
  | standbyRequest (secure : Bool) (v : BitVec 32)
  -- the debug port
  | debugBar0Access (port : DebugPort) (width : Nat) (write : Option (BitVec 64))
  | debugMemoryAccess (a : AddrReads) (len : Nat) (write : Option Bytes)
  | debugHalt (core : Fin 4)
  | debugStep (core : Fin 4)
  | debugResume (core : Fin 4)
  -- reset and boot
  | powerOn
  | resetNFall
  | coreResetQualify
  | resetStretchRelease
  | systemResetQualify
  | resetNRise (carrierHigh : Bool)
  | optionLoadDone (records : List OptRecord) (missing secBootOk secOtherOk : Bool)
  | firmwareReady (ctrlBootOk ctrlOtherOk : Bool)
  | watchdogExpire (core : Fin 4)
  | hbmZeroFillDone
  | hbmSweepDone
  -- entropy
  | entropyBlock (src : Fin 8) (bits : BitVec 1024)
  | drbgInstantiate
  | drbgReseed
  -- power and temperature
  | powerCapDecision (avgW : Nat)
  | fastPowerLimit (watts : Nat)
  | thermalSample (t0 t1 t2 t3 tio : Int)
  | thermalTrip (die : Fin 5) (tj : Int)
  | inputUndervoltage
  | inputOvervoltage
  | tamperAlarm (source : Nat)
  | backupTamperLatch (source : Nat)
  | backupSupplyLoss
  | hbmTrainingDone
  | pcieLinkUp (speed : Fin 5) (width : Fin 4) (flit : Bool)
  | pcieLinkDown
  | selfTestDone (mb : MbId) (sigs : List (BitVec 64)) (errs : List PatternErr)
  | entropyWaitTimeout (mb : MbId)
  | fastLimitAlertRelease
  | busMasterEnableClear (fn : FnId)
  | d3hotTransition (fn : FnId) (enter : Bool)
  | pfcPauseExpire (port : PortId) (priority : Fin 8)
  deriving DecidableEq, Repr

end Sys2Proof
end

