-- ==== Sys2Proof/Decode.lean ====
section
/-! DEFINITION. What a word spells. The opcode table gives no row any bits, so no word spells a command; the one encoding
the spec gives commands is the mailbox opcode of Table 16-4. -/

namespace Sys2Proof

/-- No row of the opcode table has bits: no word spells a command. -/
def decodeTableWord (_nbits _w : Nat) : Option Instr := none

/-- The opcode that a mailbox command's header carries, Table 16-4 (R317). -/
def opcodeOf : Instr → Option Nat
  | .registerWrite _ _ _ _ _ => none
  | .badRegisterAccess _ _ _ _ _ => none
  | .loRegisterRead _ _ => none
  | .snapCtrlArm _ => none
  | .mailboxGo _ _ => none
  | .commandDispatch _ => none
  | .smbusBlockWrite _ _ _ => none
  | .smbusProcessCall _ _ _ => none
  | .identityGet _ => some 0x0101
  | .moduleStatus _ => some 0x0102
  | .eventRingSet _ => some 0x0110
  | .eventRingClear _ => some 0x0111
  | .lifecycleGet _ => some 0x0201
  | .ownerClaim _ _ => some 0x0202
  | .modeSet _ _ => some 0x0203
  | .ownerRelease _ _ => some 0x0204
  | .retire _ _ => some 0x0205
  | .tamperUnlock _ _ => some 0x0206
  | .keyGenerate _ => some 0x0301
  | .keyImportWrapped _ => some 0x0302
  | .keyDestroy _ => some 0x0303
  | .keySlotStatus _ => some 0x0304
  | .keyOriginStatement _ => some 0x0305
  | .attestReport _ => some 0x0306
  | .certChainGet _ => some 0x0307
  | .plateKeyEnroll _ _ => some 0x0308
  | .hbmKeyRotate _ => some 0x0309
  | .randomGet _ => some 0x030A
  | .randomGetTimeout _ => none
  | .plateStage _ _ => some 0x0401
  | .plateBind _ => some 0x0402
  | .plateUnstage _ => some 0x0403
  | .fabricStatus _ => some 0x0404
  | .decodeOpen _ => some 0x0501
  | .weightsLoad _ => some 0x0502
  | .draftLoad _ => some 0x0503
  | .weightsUnload _ => some 0x0504
  | .decodeFinish _ => some 0x0510
  | .decodeClose _ => some 0x0511
  | .decodeStatus _ => some 0x0512
  | .replayVerify _ _ => some 0x0530
  | .ringForm _ => some 0x0601
  | .ringFormTimeout _ => none
  | .ringStatus _ => some 0x0602
  | .ringDissolve _ => some 0x0603
  | .ringSpareJoin _ => some 0x0610
  | .ringAdmit _ => some 0x0611
  | .roundOpen _ => some 0x0701
  | .roundClose _ => some 0x0702
  | .roundCorrect _ => some 0x0703
  | .roundRelease _ => some 0x0704
  | .roundAbort _ => some 0x0705
  | .roundStatus _ => some 0x0706
  | .roundCounts _ => some 0x0707
  | .roundBitmap _ => some 0x0708
  | .hevCtxOpen _ => some 0x0801
  | .hevCtxClose _ => some 0x0802
  | .hevKeyLoad _ => some 0x0803
  | .hevKeyDrop _ => some 0x0804
  | .hevCtxStatus _ => some 0x0805
  | .hevBurnishSet _ => some 0x0806
  | .portSet _ => some 0x0901
  | .portStatus _ => some 0x0902
  | .macsecSaSet _ => some 0x0903
  | .macsecSaClear _ => some 0x0904
  | .linkRekey _ => some 0x0905
  | .rdmPdAlloc _ => some 0x0910
  | .rdmPdFree _ => some 0x0911
  | .rdmRegionReg _ => some 0x0912
  | .rdmRegionDereg _ => some 0x0913
  | .rdmWindowOpen _ => some 0x0914
  | .rdmWindowRevoke _ => some 0x0915
  | .rdmConnOpen _ => some 0x0916
  | .rdmConnClose _ => some 0x0917
  | .rdmConnStatus _ => some 0x0918
  | .rdmTrigger _ => some 0x0919
  | .wringCreate _ => some 0x0A01
  | .wringDestroy _ => some 0x0A02
  | .cringCreate _ => some 0x0A03
  | .cringDestroy _ => some 0x0A04
  | .wringStatus _ => some 0x0A05
  | .funcQuiesce _ => some 0x0A06
  | .bistLogic _ => some 0x0B01
  | .bistMemory _ => some 0x0B02
  | .hbmPatternTest _ => some 0x0B03
  | .snapshotArm _ => some 0x0B04
  | .snapshotRead _ => some 0x0B05
  | .fwStage _ _ => some 0x0C01
  | .fwActivate _ => some 0x0C02
  | .fwStatus _ => some 0x0C03
  | .rollbackAdvance _ => some 0x0C04
  | .workRingDoorbell _ _ _ _ => none
  | .completionRingDoorbell _ _ _ _ => none
  | .eventRingDoorbell _ _ => none
  | .descriptorFetch _ => none
  | .completionCoalesceExpire _ => none
  | .wringDrainDone _ => none
  | .decodeInputDescriptor _ => none
  | .decodeOutputDescriptor _ => none
  | .hevImport _ => none
  | .hevExport _ => none
  | .hevAdd _ => none
  | .hevSub _ => none
  | .hevNeg _ => none
  | .hevAddPlain _ => none
  | .hevMulPlain _ => none
  | .hevMul _ => none
  | .hevRescale _ => none
  | .hevDrop _ => none
  | .hevAutomorph _ => none
  | .hevRotsum _ => none
  | .hevNtt _ => none
  | .hevIntt _ => none
  | .burnish _ => none
  | .hevOpBegin _ => none
  | .hevOpComplete _ _ => none
  | .rdmSend _ => none
  | .rdmSendImm _ => none
  | .rdmWrite _ => none
  | .rdmWriteImm _ => none
  | .rdmRead _ => none
  | .rdmReceivePost _ => none
  | .triggeredRequestFire _ => none
  | .actionBegin _ => none
  | .actionComplete _ _ => none
  | .pressAdvance => none
  | .idleStroke => none
  | .pressStall => none
  | .snapshotDone => none
  | .plateLoadComplete _ _ => none
  | .prefillChunk => none
  | .verificationStep => none
  | .stepCommit => none
  | .sessionResume => none
  | .openDigestExchange _ => none
  | .openJoinTimeout _ => none
  | .ringFrameReceive _ _ => none
  | .ringDelimiterReceive _ _ => none
  | .ringRetxTimeout _ => none
  | .ringIdleDelimiter _ => none
  | .keepaliveSend _ => none
  | .keepaliveReceive _ _ _ _ _ => none
  | .linkSilenceTimeout _ _ => none
  | .progressTimeout _ => none
  | .suspicionReceive _ _ => none
  | .selfReportReceive _ => none
  | .stepDigestVote => none
  | .viewFrameReceive _ => none
  | .reformTimeout => none
  | .mirrorRebuildDone _ _ => none
  | .spareHandover _ => none
  | .ringHandshakeInitReceive _ _ => none
  | .ringHandshakeResponseReceive _ _ => none
  | .rekeySwitch _ => none
  | .rekeyRetry _ => none
  | .portTrainAttempt _ _ => none
  | .portLinkUp _ => none
  | .linkDown _ _ => none
  | .networkFrameReceive _ _ => none
  | .pfcPauseReceive _ _ => none
  | .roceRequestReceive _ => none
  | .roceAckReceive _ _ _ => none
  | .roceReadResponseReceive _ _ _ _ => none
  | .roceNakReceive _ _ _ => none
  | .psnSequenceNakReceive _ _ => none
  | .rnrNakReceive _ _ _ => none
  | .rnrTimerExpire _ => none
  | .ackTimeout _ => none
  | .contextFetchDone _ => none
  | .cnpReceive _ => none
  | .rateIncreaseTimer _ => none
  | .finalWritePlace _ _ => none
  | .revokeDone _ => none
  | .stagingReserve => none
  | .sliceAdmission _ _ => none
  | .roundClosed _ => none
  | .eventIrqCoalesceExpire => none
  | .bar2Read _ _ _ _ _ => none
  | .bar2Write _ _ _ _ _ => none
  | .hostReadCompletion _ _ => none
  | .hostCompletionTimeout _ => none
  | .flr _ => none
  | .flrPf0 => none
  | .hotReset => none
  | .busMasterEnableSet _ => none
  | .getVersion => none
  | .getCapabilities => none
  | .negotiateAlgorithms _ _ => none
  | .getDigests => none
  | .getCertificate _ _ => none
  | .challenge _ => none
  | .getMeasurements _ => none
  | .keyExchange _ => none
  | .finish _ => none
  | .endSession => none
  | .keyUpdate => none
  | .heartbeat => none
  | .ideKmKeyProg _ _ _ _ _ => none
  | .kSetGo _ => none
  | .ideIntegrityFail _ => none
  | .lockInterfaceRequest _ => none
  | .startInterfaceRequest _ => none
  | .stopInterfaceRequest _ => none
  | .getDeviceInterfaceReport _ => none
  | .cvuStart _ => none
  | .cvuDataWrite _ _ _ => none
  | .cvuByteStep => none
  | .cvuResultRead _ => none
  | .standbyRequest _ _ => none
  | .debugBar0Access _ _ _ => none
  | .debugMemoryAccess _ _ _ => none
  | .debugHalt _ => none
  | .debugStep _ => none
  | .debugResume _ => none
  | .powerOn => none
  | .resetNFall => none
  | .coreResetQualify => none
  | .resetStretchRelease => none
  | .systemResetQualify => none
  | .resetNRise _ => none
  | .optionLoadDone _ _ _ _ => none
  | .firmwareReady _ _ => none
  | .watchdogExpire _ => none
  | .hbmZeroFillDone => none
  | .hbmSweepDone => none
  | .entropyBlock _ _ => none
  | .drbgInstantiate => none
  | .drbgReseed => none
  | .powerCapDecision _ => none
  | .fastPowerLimit _ => none
  | .thermalSample _ _ _ _ _ => none
  | .thermalTrip _ _ => none
  | .inputUndervoltage => none
  | .inputOvervoltage => none
  | .tamperAlarm _ => none
  | .backupTamperLatch _ => none
  | .backupSupplyLoss => none
  | .hbmTrainingDone => none
  | .pcieLinkUp _ _ _ => none
  | .pcieLinkDown => none
  | .selfTestDone _ _ _ => none
  | .entropyWaitTimeout _ => none
  | .fastLimitAlertRelease => none
  | .busMasterEnableClear _ => none
  | .d3hotTransition _ _ => none
  | .pfcPauseExpire _ _ => none

/-- The opcodes of Table 16-4; the module implements exactly these (R317). -/
def opcodeCatalogue : List Nat :=
  [0x0101, 0x0102, 0x0110, 0x0111, 0x0201, 0x0202, 0x0203, 0x0204, 0x0205, 0x0206,
   0x0301, 0x0302, 0x0303, 0x0304, 0x0305, 0x0306, 0x0307, 0x0308, 0x0309, 0x030A,
   0x0401, 0x0402, 0x0403, 0x0404, 0x0501, 0x0502, 0x0503, 0x0504, 0x0510, 0x0511,
   0x0512, 0x0530, 0x0601, 0x0602, 0x0603, 0x0610, 0x0611, 0x0701, 0x0702, 0x0703,
   0x0704, 0x0705, 0x0706, 0x0707, 0x0708, 0x0801, 0x0802, 0x0803, 0x0804, 0x0805,
   0x0806, 0x0901, 0x0902, 0x0903, 0x0904, 0x0905, 0x0910, 0x0911, 0x0912, 0x0913,
   0x0914, 0x0915, 0x0916, 0x0917, 0x0918, 0x0919, 0x0A01, 0x0A02, 0x0A03, 0x0A04,
   0x0A05, 0x0A06, 0x0B01, 0x0B02, 0x0B03, 0x0B04, 0x0B05, 0x0C01, 0x0C02, 0x0C03,
   0x0C04]

end Sys2Proof
end

