-- ==== Sys2Proof/Config.lean ====
section
/-! DEFINITION. What the spec leaves to a standard it only names, to one implementation or to chance: opaque constants.
Nothing in Lean can see a value of theirs, so every claim holds whatever they are (notes/assumptions 1, 2, 3, 4). -/

namespace Sys2Proof

/-! ## Cryptographic functions that Table 17-1 names by their standards (notes/assumptions 1) -/

/-- The 4,627-byte HashML-DSA-87 signature: secret key, message, hedging bytes. -/
opaque Config.mldsaSign : Bytes → Bytes → Bytes → BitVec 37016
/-- The 2,592-byte ML-DSA-87 public key of a 32-byte seed. -/
opaque Config.mldsaPub : Bytes → BitVec 20736
/-- The 1,568-byte ML-KEM-1024 encapsulation key of a seed. -/
opaque Config.mlkemPub : Bytes → BitVec 12544
/-- ML-KEM-1024 encapsulation: encapsulation key, 32 random bytes; the ciphertext. -/
opaque Config.mlkemEncapCt : Bytes → Bytes → BitVec 12544
/-- ML-KEM-1024 encapsulation: encapsulation key, the same bytes; the shared secret. -/
opaque Config.mlkemEncapSs : Bytes → Bytes → BitVec 256
/-- ML-KEM-1024 decapsulation: seed of the key, ciphertext; the shared secret. -/
opaque Config.mlkemDecaps : Bytes → Bytes → BitVec 256
/-- The parts of a certificate that the spec leaves to X.509 and to provisioning (R331). -/
inductive CertPart where
  | serial | notBefore | subject | extensions | key | signature
  deriving DecidableEq, Repr

/-- Such a part of certificate 1 to 4 of the chain, in DER, for what it depends on: the identity key, or the digest and the reset counter of R330. -/
opaque Config.certPart : Nat → CertPart → Bytes → Bytes
/-- Bits of the TAP's instruction register, less 2 (R418: the spec gives no length). -/
opaque Config.tapBits : Nat
/-- The TAP's instruction codes, of IDCODE and of the debug access instruction (R418: the spec gives none). -/
opaque Config.tapIdcode : Nat
opaque Config.tapDebug : Nat
/-- The type of a measurement block, 7 bits (R342: the spec gives form and value). -/
opaque Config.measurementType : Nat → BitVec 7
/-- The body of an SPDM response: request name, draw (R304). -/
opaque Config.spdmBody : String → Nat → Bytes

/-! ## What plates, fuses and firmware fix (notes/assumptions 2) -/

/-- The operand formats of Table 4-1 of 32, 16, 8, 8, 4 and 8 bits (04_arithmetic_edition_1.md R77). -/
inductive Fmt where
  | fp32 | bf16 | e4m3 | e5m2 | e2m1 | int8
  deriving DecidableEq, Repr

/-- An operation of Arithmetic Edition 1 on byte strings: R76, a plate expresses only these. Vectors are packed elements, E2M1 two to
a byte, the low half first; block scales are E8M0 bytes. -/
inductive EdOp where
  | dot (fa fb : Fmt) (n : Nat) (toBf16 : Bool)  -- array: rows of `n`, a vector, the scales of each (R83, R86)
  | laneDot (f : Fmt) (n : Nat)                  -- BF16 array or FP32 lanes: rows of `n`, a vector (R86)
  | convert (src dst : Fmt)                      -- Table 4-2
  | unscale (f : Fmt)                            -- element × E8M0 scale: elements, scales (R80)
  | quantize (f : Fmt)                           -- blocks of 32: elements (R81)
  | scales (f : Fmt)                             -- blocks of 32: their scale bytes (R81)
  | add | sub | mul | fma | min | max            -- FP32 lanes (R82)
  | less | equal                                 -- FP32 lanes, one byte for each (R82)
  | recip | rsqrt | exp | silu                   -- R87 to R89
  | softmax                                      -- R90
  | rmsnorm (eps : BitVec 32)                    -- values, gains (R91)
  | rotate (freq : BitVec 64) (pos : Nat)        -- pairs, first elements then second ones (R92)
  | modAdd (q : Nat) | modSub (q : Nat) | modMul (q : Nat)  -- 64-bit residues (R96, R97)
  | intMul (signed : Bool)                       -- 64-bit integers: products of 128 bits (R53, Table 3-2)
  | permute (k : Nat)                            -- passes through the sheet's crossbar (R55)
  | join                                         -- operands one after the other
  deriving DecidableEq, Repr

/-- A step of an action's work: the operation and its operands, numbered over the action's inputs and then the earlier steps. -/
structure EdStep where
  op   : EdOp
  args : List Nat
  deriving DecidableEq, Repr

/-- Memory that an action reads: its graver's SRAM (R54), and in HBM the resident weight set, the session's stretch and its draft's KV. -/
inductive MemArea where
  | sram | weights | kv | draftKv
  deriving DecidableEq, Repr

/-- A place in such memory, by its offset. -/
structure MemRef where
  area : MemArea
  off  : Nat
  len  : Nat
  deriving DecidableEq, Repr

/-- A template of an action in a plate's action lists: footprint graver or domain, stroke offsets, inputs, work and outputs.
Table 3-5: section bodies are encoded for the fabric stepping, and Zarvaeb alone produces them. Operands of its work are numbered
over the data it consumes, then what it reads from memory, then its steps. -/
structure ActionTemplate where
  unit     : Nat
  startOff : Nat
  dueOff   : Nat
  inputs   : List (Nat × Nat × Nat × Nat)   -- member steps ahead in the ring, producer unit, stroke offset, slot
  reads    : List MemRef
  steps    : List EdStep
  outputs  : List (Nat × Nat × Nat)   -- slot, consumers, the value it publishes, numbered as operands are
  stores   : List (Nat × Nat)         -- offset in the graver's SRAM, the value stored there
  checked  : List Nat                 -- slots that the check-list section names (R72)
  sends    : Bool                     -- a send action of the ring exchange (R47, R150)
  trigger  : Option Nat               -- a trigger counter it raises (R262)
  deriving DecidableEq, Repr

/-- The action lists of a plate image, its footprint mapped by the loader onto the sheets of a mask (R65). -/
opaque Config.plateActions : Bytes → BitVec 32 → List ActionTemplate
/-- Permutation `k` of a plate image for a sheet's crossbar, by image, sheet and k: the input word that each of the 512 outputs takes (R55). -/
opaque Config.platePerm : Bytes → Nat → Nat → List Nat
/-- The word on a lane, by image and lane, for which an action names no word of that lane's graver: the image's datapath fixes it (R55). -/
opaque Config.idleLane : Bytes → Nat → BitVec 64
/-- The residue at (component, limb, index) that a burnish set leaves before its reduction modulo the limb's prime, from the set digest,
the bytes of the input taken down to level 0 and the evaluation keys by kind and Galois element (R224). -/
opaque Config.burnishResidue : Bytes → Bytes → List (Nat × Nat × Bytes) → Nat → Nat → Nat → Nat
/-- The byte that names a context state in HEV_CTX_STATUS: FAULTED or not. The spec gives no codes (Table 10-2). -/
opaque Config.ctxStateCode : Bool → BitVec 8
/-- The levels to which the carrier wires the straps: STRAP_ADDR[2:0] and STRAP_UART_FAST (R390, Table 23-2). -/
opaque Config.straps : BitVec 4
/-- The silicon stepping (fused, Table 0-9). -/
opaque Config.stepping : BitVec 4
/-- The Cehorn manufacturer code (fused, Table 22-7). -/
opaque Config.manufacturer : BitVec 11
/-- Digest of the Cehorn plate key (fused, R61). -/
opaque Config.cehornPlateDigest : BitVec 512
/-- Digest of the Cehorn lifecycle key (fused, R350). -/
opaque Config.cehornLifecycleDigest : BitVec 512
/-- Digest of the Cehorn firmware key (fused, R322). -/
opaque Config.cehornFirmwareDigest : BitVec 512
/-- The signature the published self-test table gives: stepping, unit (R410). -/
opaque Config.misrLogic : BitVec 4 → Nat → BitVec 64
/-- The fixed expected signature of a memory bank (0) or of the pool (1), R411. -/
opaque Config.misrMemory : Nat → BitVec 64
/-- The 32-byte identity seed that MANUFACTURE sealed (R329), by byte. -/
opaque Config.identitySeed : BitVec 256
/-- The digests of the firmware in the slots at reset: component. -/
opaque Config.fwDigest : Nat → BitVec 512
/-- The release number of that firmware. -/
opaque Config.fwVersion : Nat → BitVec 32

/-- The destination and source addresses of the frames that a port sends: IEEE 802 addresses, which the spec does not give. -/
opaque Config.macAddresses : Nat → BitVec 96
/-- The HBM controller whose tree holds the counter block of a page: the metadata arrays lie outside the device address map (R358). -/
opaque Config.pageController : Nat → Nat
/-- The page that is leaf `i` of a controller's tree, by controller and leaf (R358). -/
opaque Config.controllerPage : Nat → Nat → Nat
/-- The 56-bit MAC over a counter block or a tree node, by controller and bytes: R358 names no function for it. -/
opaque Config.blockMac : Nat → Bytes → BitVec 56

/-! ## Free values (notes/assumptions 3) -/

/-- How many blocks and nodes miss the controllers' caches: tree walks so far, further walks (R358, R369). -/
opaque Config.cacheMisses : Nat → Nat → Nat

/-- What the accumulator of a dot product holds after an operand that is NaN or infinite, or a scale byte 0xFF, by the blocks of the product:
R83 gives the result and not the accumulator (notes/assumptions 79). -/
opaque Config.openAcc : List (Int × Option Int) → BitVec 80
/-- Bytes that nothing fixes: draw number, index. -/
opaque Config.randomByte : Nat → Nat → Byte
/-- A byte whose value the spec leaves undefined. -/
opaque Config.freeByte : Nat → Byte
/-- A number whose value the spec leaves open (a handle, a base address it chooses). -/
opaque Config.freeNat : Nat → Nat
/-- A choice of the module that the spec leaves open. -/
opaque Config.freeBool : Nat → Bool
/-- Cycle counters and power readings (kinds C and T of R415): draw, record. -/
opaque Config.freeCount : Nat → Nat → BitVec 64

end Sys2Proof
end

