-- ==== Sys2Proof/Machine/Bytes.lean ====
section
/-! DEFINITION. Byte order, bit fields, saturating counters, sparse maps in canonical form, and the get and update of the
small fixed families. Integers in registers, descriptors, payloads and records are little-endian (R14). -/

namespace Sys2Proof.Machine

/-! ## Byte strings -/

/-- `n` little-endian bytes of `v` (R14). -/
def leBytes : Nat → Nat → Bytes
  | 0, _ => []
  | n + 1, v => BitVec.ofNat 8 v :: leBytes n (v / 256)

/-- The number a little-endian byte string spells. -/
def leNat : Bytes → Nat
  | [] => 0
  | b :: bs => b.toNat + 256 * leNat bs

/-- The first `n` bytes of a bit vector, lowest first. -/
def bvBytes {w : Nat} (n : Nat) (v : BitVec w) : Bytes := leBytes n v.toNat

/-- `n` bytes from offset `off`. -/
def slice (b : Bytes) (off n : Nat) : Bytes := (b.drop off).take n

/-- The little-endian field of `n` bytes at offset `off`. -/
def field (b : Bytes) (off n : Nat) : Nat := leNat (slice b off n)

/-- `n` zero bytes. -/
def zeros (n : Nat) : Bytes := List.replicate n 0

/-- Every byte is 0. -/
def allZero (b : Bytes) : Bool := b.all (· == 0)

/-- The `n` bytes from `off` are 0 (a reserved field). -/
def zeroAt (b : Bytes) (off n : Nat) : Bool := allZero (slice b off n)

/-- The ASCII bytes of a label. -/
def ascii (t : String) : Bytes := t.toList.map (fun c => BitVec.ofNat 8 c.toNat)

/-- Cut or fill with zeros to exactly `n` bytes. -/
def fit (n : Nat) (b : Bytes) : Bytes := (b ++ zeros n).take n

/-- A 512-bit digest as its 64 bytes. -/
def digest64 (v : BitVec 512) : Bytes := bvBytes 64 v

/-! ## Numbers and bits -/

/-- Round up to a multiple of `k`. -/
def roundUp (k n : Nat) : Nat := (n + (k - 1)) / k * k

/-- Bits `hi` to `lo` of a natural number. -/
def bits (v hi lo : Nat) : Nat := v / 2 ^ lo % 2 ^ (hi - lo + 1)

/-- Bit `i` of a natural number. -/
def bit (v i : Nat) : Bool := v.testBit i

/-- A Bool as one bit. -/
def b2n (b : Bool) : Nat := if b then 1 else 0

/-- A power of two. -/
def isPow2 (n : Nat) : Bool := n != 0 && 2 ^ n.log2 == n

/-- A counter of `w` bits that saturates (R16), increased by `k`. -/
def satAdd (w n k : Nat) : Nat := min (n + k) (2 ^ w - 1)

/-- A 32-bit saturating counter increased by 1 (R16). -/
def sat (n : Nat) : Nat := satAdd 32 n 1

/-- A 16-bit saturating counter increased by 1 (R16). -/
def sat16 (n : Nat) : Nat := satAdd 16 n 1

/-- Set bit `i` of a word. -/
def setBit {w : Nat} (v : BitVec w) (i : Nat) : BitVec w := v ||| BitVec.ofNat w (2 ^ i)

/-- Clear bit `i` of a word. -/
def clearBit {w : Nat} (v : BitVec w) (i : Nat) : BitVec w := v &&& ~~~(BitVec.ofNat w (2 ^ i))

/-- The indices below `n` whose bit is set in a word. -/
def bitList {w : Nat} (n : Nat) (v : BitVec w) : List Nat := (List.range n).filter (fun i => v.getLsbD i)

/-- The word of 32 bits whose bits `l` are set. -/
def maskOf (l : List Nat) : BitVec 32 := l.foldl setBit 0

/-- The number of bits set in a mask of 32. -/
def popcount (v : BitVec 32) : Nat := (bitList 32 v).length

/-- `a` and `b` have no bit in common. -/
def disjoint {w : Nat} (a b : BitVec w) : Bool := a &&& b == 0

/-- Ranges [a, a+n) and [b, b+m) have a byte in common. -/
def overlaps (a n b m : Nat) : Bool := decide (0 < n ∧ 0 < m ∧ a < b + m ∧ b < a + n)

/-- A list has no repeats. -/
def noDup [DecidableEq α] : List α → Bool
  | [] => true
  | x :: xs => !xs.contains x && noDup xs

/-- A list of numbers strictly rises. -/
def rising : List Nat → Bool
  | [] => true
  | [_] => true
  | a :: b :: l => decide (a < b) && rising (b :: l)

/-- Insert into a strictly rising list. -/
def insertNat (x : Nat) : List Nat → List Nat
  | [] => [x]
  | y :: ys => if x < y then x :: y :: ys else if x = y then y :: ys else y :: insertNat x ys

/-- Remove from a list. -/
def eraseNat (x : Nat) (l : List Nat) : List Nat := l.filter (· != x)

/-- Cut a list into pieces of `k`, the last one shorter; `fuel` bounds the number of pieces. -/
def chunksOf (k : Nat) : Nat → List α → List (List α)
  | 0, _ => []
  | fuel + 1, l => if l.isEmpty then [] else l.take k :: chunksOf k fuel (l.drop k)

/-! ## Sparse byte memories: cells strictly rising by address, no cell equal to 0 (what an unlisted address reads as) -/

/-- The byte at an address; an unlisted address reads 0. (DEDUCED: log entry 73) -/
def cellGet : List Host.Cell → Nat → Byte
  | [], _ => 0
  | (b, v) :: m, a => if a = b then v else cellGet m a

/-- A cell in front, unless its byte is 0. -/
def cellCons (a : Nat) (v : Byte) (m : List Host.Cell) : List Host.Cell :=
  if v = 0 then m else (a, v) :: m

/-- Store one byte, keeping the canonical form. -/
def cellSet : List Host.Cell → Nat → Byte → List Host.Cell
  | [], a, v => cellCons a v []
  | (b, w) :: m, a, v =>
    if a < b then cellCons a v ((b, w) :: m)
    else if a = b then cellCons a v m
    else (b, w) :: cellSet m a v

/-- The canonical form of a byte memory. -/
def cellsWf : List Host.Cell → Bool
  | [] => true
  | [(_, v)] => v != 0
  | (a, v) :: (b, w) :: m => v != 0 && decide (a < b) && cellsWf ((b, w) :: m)

/-- `n` bytes from address `a`. -/
def cellRead (m : List Host.Cell) : Nat → Nat → Bytes
  | _, 0 => []
  | a, n + 1 => cellGet m a :: cellRead m (a + 1) n

/-- Store a byte string at `a`. -/
def cellWrite (m : List Host.Cell) : Nat → Bytes → List Host.Cell
  | _, [] => m
  | a, b :: bs => cellWrite (cellSet m a b) (a + 1) bs

/-- Every byte of [a, a+n) becomes 0. -/
def cellWipe (m : List Host.Cell) (a n : Nat) : List Host.Cell :=
  m.filter (fun c => !(decide (a ≤ c.1) && decide (c.1 < a + n)))

/-! ## Sparse maps of numbers: keys strictly rising, no value 0 -/

/-- The value of a key, 0 when not listed. -/
def mapGet : List (Nat × Nat) → Nat → Nat
  | [], _ => 0
  | (k, v) :: m, a => if a = k then v else mapGet m a

/-- An entry in front, unless its value is 0. -/
def mapCons (a v : Nat) (m : List (Nat × Nat)) : List (Nat × Nat) := if v = 0 then m else (a, v) :: m

/-- Set the value of a key. -/
def mapSet : List (Nat × Nat) → Nat → Nat → List (Nat × Nat)
  | [], a, v => mapCons a v []
  | (k, w) :: m, a, v =>
    if a < k then mapCons a v ((k, w) :: m)
    else if a = k then mapCons a v m
    else (k, w) :: mapSet m a v

/-! ## Lists of objects -/

/-- Replace every element for which `p` holds by its image under `f`. -/
def updWhere (p : α → Bool) (f : α → α) (l : List α) : List α := l.map (fun x => if p x then f x else x)

/-- Change the element at an index. -/
def updAt (f : α → α) : Nat → List α → List α
  | _, [] => []
  | 0, x :: xs => f x :: xs
  | n + 1, x :: xs => x :: updAt f n xs

/-- The sum of a list of numbers. -/
def sumNat (l : List Nat) : Nat := l.foldl (· + ·) 0

/-- The largest of a list of numbers, 0 for none. -/
def maxNat (l : List Nat) : Nat := l.foldl max 0

/-- The least number below `n` for which `p` holds. -/
def leastBelow (n : Nat) (p : Nat → Bool) : Option Nat := (List.range n).find? p

/-- Five numbers' get by index (the last for any index above 3). -/
def get5 (x : Five α) (i : Nat) : α :=
  if i = 0 then x.a0 else if i = 1 then x.a1 else if i = 2 then x.a2 else if i = 3 then x.a3 else x.a4

/-- Change one of five by index. -/
def mod5 (x : Five α) (i : Nat) (f : α → α) : Five α :=
  if i = 0 then { x with a0 := f x.a0 }
  else if i = 1 then { x with a1 := f x.a1 }
  else if i = 2 then { x with a2 := f x.a2 }
  else if i = 3 then { x with a3 := f x.a3 }
  else { x with a4 := f x.a4 }

/-- Change all five. -/
def map5 (x : Five α) (f : α → α) : Five α := ⟨f x.a0, f x.a1, f x.a2, f x.a3, f x.a4⟩

/-- The five as a list. -/
def list5 (x : Five α) : List α := [x.a0, x.a1, x.a2, x.a3, x.a4]

/-- One of four by index (the last for any index above 2). -/
def get4 (x : Four α) (i : Nat) : α :=
  if i = 0 then x.a0 else if i = 1 then x.a1 else if i = 2 then x.a2 else x.a3

/-- Change one of four by index. -/
def mod4 (x : Four α) (i : Nat) (f : α → α) : Four α :=
  if i = 0 then { x with a0 := f x.a0 }
  else if i = 1 then { x with a1 := f x.a1 }
  else if i = 2 then { x with a2 := f x.a2 }
  else { x with a3 := f x.a3 }

/-- Change all four. -/
def map4 (x : Four α) (f : α → α) : Four α := ⟨f x.a0, f x.a1, f x.a2, f x.a3⟩

/-- The four as a list. -/
def list4 (x : Four α) : List α := [x.a0, x.a1, x.a2, x.a3]

end Sys2Proof.Machine
end

