-- ==== Sys2Proof/Machine/Crypto.lean ====
section
/-! DEFINITION. The symmetric algorithms that Table 17-1 names by their standards (17_keys_and_attestation.md R328): SHA3-256,
SHA3-512, SHAKE128 and SHAKE256 (FIPS 202), AES-256 (FIPS 197) and its GCM mode (SP 800-38D). The spec names the standards and
does not print them (PRESUMED, notes/assumptions 77). -/

namespace Sys2Proof.Machine

/-! ## Keccak (FIPS 202) -/

/-- Lane (x, y) of a state of 25 lanes, at x + 5y, coordinates modulo 5. -/
def laneAt (A : List (BitVec 64)) (x y : Nat) : BitVec 64 := A.getD (x % 5 + 5 * (y % 5)) 0

/-- The 25 lanes from their coordinates. -/
def lanes (f : Nat → Nat → BitVec 64) : List (BitVec 64) := (List.range 25).map (fun i => f (i % 5) (i / 5))

/-- θ: each lane takes up the parities of the columns beside it. -/
def keccakTheta (A : List (BitVec 64)) : List (BitVec 64) :=
  let C := (List.range 5).map (fun x => (List.range 5).foldl (fun v y => v ^^^ laneAt A x y) 0)
  lanes (fun x y => laneAt A x y ^^^ C.getD ((x + 4) % 5) 0 ^^^ (C.getD ((x + 1) % 5) 0).rotateLeft 1)

/-- The rotation of lane (x, y) in ρ. -/
def keccakRot (x y : Nat) : Nat :=
  [0, 1, 62, 28, 27, 36, 44, 6, 55, 20, 3, 10, 43, 25, 39, 41, 45, 15, 21, 8, 18, 2, 61, 56, 14].getD (x % 5 + 5 * (y % 5)) 0

/-- ρ and π: lane (x, y) of the result is lane (x + 3y, x), rotated. -/
def keccakRhoPi (A : List (BitVec 64)) : List (BitVec 64) :=
  lanes (fun x y => (laneAt A (x + 3 * y) x).rotateLeft (keccakRot (x + 3 * y) x))

/-- χ: the only step that is not linear. -/
def keccakChi (A : List (BitVec 64)) : List (BitVec 64) :=
  lanes (fun x y => laneAt A x y ^^^ (~~~(laneAt A (x + 1) y) &&& laneAt A (x + 2) y))

/-- One step of the shift register that spells the round constants. -/
def rcShift (r : Nat) : Nat := let t := 2 * r; if 256 ≤ t then (t - 256).xor 0x71 else t

/-- The register after `n` steps from 1. -/
def rcState : Nat → Nat
  | 0 => 1
  | n + 1 => rcShift (rcState n)

/-- The constant of round `n` in ι: bit 2^j − 1 is output 7n + j of the register. -/
def keccakConst (n : Nat) : BitVec 64 :=
  (List.range 7).foldl (fun v j => if rcState (7 * n + j) % 2 = 1 then setBit v (2 ^ j - 1) else v) 0

/-- ι. -/
def keccakIota (n : Nat) (A : List (BitVec 64)) : List (BitVec 64) :=
  match A with
  | [] => []
  | a :: l => (a ^^^ keccakConst n) :: l

/-- The permutation: 24 rounds. (PRESUMED: log entry 77) -/
def keccakF (A : List (BitVec 64)) : List (BitVec 64) :=
  (List.range 24).foldl (fun A n => keccakIota n (keccakChi (keccakRhoPi (keccakTheta A)))) A

/-- Padding of a message to whole blocks of `rate` bytes with the domain bits `sfx`: 0110 for SHA3, 1111 for SHAKE, then 10*1. -/
def spongePad (rate : Nat) (sfx : Byte) (m : Bytes) : Bytes :=
  let k := rate - m.length % rate
  if k = 1 then m ++ [sfx ^^^ 0x80] else m ++ [sfx] ++ zeros (k - 2) ++ [0x80]

/-- A state takes up one block. -/
def absorb (A : List (BitVec 64)) (block : Bytes) : List (BitVec 64) :=
  keccakF (A.zipIdx.map (fun x => x.1 ^^^ BitVec.ofNat 64 (field block (8 * x.2) 8)))

/-- `n` blocks of output. -/
def squeeze (rate : Nat) : Nat → List (BitVec 64) → Bytes
  | 0, _ => []
  | n + 1, A => (A.flatMap (bvBytes 8)).take rate ++ squeeze rate n (keccakF A)

/-- `n` bytes of the sponge of rate `rate` over a message. (PRESUMED: log entry 77) -/
def sponge (rate : Nat) (sfx : Byte) (m : Bytes) (n : Nat) : Bytes :=
  let p := spongePad rate sfx m
  let A := (chunksOf rate p.length p).foldl absorb (List.replicate 25 0)
  fit n (squeeze rate ((n + rate - 1) / rate) A)

/-- SHA3-512 (R24, R60, R202). (PRESUMED: log entry 77) -/
@[irreducible] def sha512 (b : Bytes) : Bytes := sponge 72 0x06 b 64

/-- SHA3-256, the conditioner of R373. -/
@[irreducible] def sha256 (b : Bytes) : Bytes := sponge 136 0x06 b 32

/-- `n` bytes of SHAKE256 of `b` (Table 17-1). -/
@[irreducible] def shake (b : Bytes) (n : Nat) : Bytes := sponge 136 0x1F b n

/-- `n` bytes of SHAKE128 of `b` (R188). -/
@[irreducible] def shake128 (b : Bytes) (n : Nat) : Bytes := sponge 168 0x1F b n

/-- Byte-wise exclusive OR. -/
def xorBytes (a b : Bytes) : Bytes := a.zipWith (· ^^^ ·) b

/-! ## AES-256 (FIPS 197), forward cipher -/

/-- Twice an element of the field of 256. -/
def gfTwice (b : Byte) : Byte := if b.getLsbD 7 then (b <<< 1) ^^^ 0x1B else b <<< 1

/-- A product in the field of 256, over `n` bits of the second factor. -/
def gfMul : Nat → Byte → Byte → Byte
  | 0, _, _ => 0
  | n + 1, a, b => (if b.getLsbD 0 then a else 0) ^^^ gfMul n (gfTwice a) (b >>> 1)

/-- The inverse of an element, 0 for 0: its 254th power. -/
def gfInv (a : Byte) : Byte :=
  ((List.range 7).foldl (fun x _ => let q := gfMul 8 x.1 x.1; (q, gfMul 8 x.2 q)) (a, (1 : Byte))).2

/-- SubBytes of one byte. -/
def subByte (b : Byte) : Byte :=
  let v := gfInv b
  v ^^^ v.rotateLeft 1 ^^^ v.rotateLeft 2 ^^^ v.rotateLeft 3 ^^^ v.rotateLeft 4 ^^^ 0x63

/-- The substitution table. -/
def sBox : List Byte := (List.range 256).map (fun i => subByte (BitVec.ofNat 8 i))

/-- A byte through the table. -/
def sub (b : Byte) : Byte := sBox.getD b.toNat 0

/-- The next word of the key schedule from the words so far, newest first; `i` is its index. -/
def keyWord (i : Nat) (ws : List Bytes) : Bytes :=
  let t := ws.getD 0 []
  let t := if i % 8 = 0 then
      xorBytes ((t.drop 1 ++ t.take 1).map sub) [((List.range (i / 8 - 1)).foldl (fun r _ => gfTwice r) (1 : Byte)), 0, 0, 0]
    else if i % 8 = 4 then t.map sub else t
  xorBytes (ws.getD 7 []) t

/-- The 15 round keys of a 32-byte key. -/
def roundKeys (key : Bytes) : List Bytes :=
  let ws := (List.range 52).foldl (fun l i => keyWord (i + 8) l :: l) (chunksOf 4 8 (fit 32 key)).reverse
  let all := ws.reverse.flatten
  chunksOf 16 15 all

/-- ShiftRows on 16 bytes in column order. -/
def shiftRows (b : Bytes) : Bytes := (List.range 16).map (fun i => b.getD ((i + 4 * (i % 4)) % 16) 0)

/-- MixColumns of one column. -/
def mixColumn (c : Bytes) : Bytes :=
  (List.range 4).map (fun i =>
    let x := c.getD i 0
    let y := c.getD ((i + 1) % 4) 0
    gfTwice x ^^^ (gfTwice y ^^^ y) ^^^ c.getD ((i + 2) % 4) 0 ^^^ c.getD ((i + 3) % 4) 0)

/-- The block after the rounds of the remaining round keys; the last one mixes no columns. -/
def aesRounds : List Bytes → Bytes → Bytes
  | [], b => b
  | [k], b => xorBytes (shiftRows (b.map sub)) k
  | k :: ks, b => aesRounds ks (xorBytes ((chunksOf 4 4 (shiftRows (b.map sub))).flatMap mixColumn) k)

/-- AES-256 under expanded round keys. (PRESUMED: log entry 77) -/
def aesBlock (ks : List Bytes) (b : Bytes) : Bytes :=
  match ks with
  | [] => b
  | k :: ks => aesRounds ks (xorBytes b k)

/-- AES-256 in the forward direction: key, block of 16 bytes (R98, R188). -/
@[irreducible] def aes256 (key block : Bytes) : Bytes := aesBlock (roundKeys key) (fit 16 block)

/-! ## AES-256-GCM (SP 800-38D) with a nonce of 96 bits -/

/-- The number a block spells, its first byte the highest. -/
def beNat (b : Bytes) : Nat := b.foldl (fun v x => v * 256 + x.toNat) 0

/-- `n` bytes of a number, the highest first. -/
def beBytes (n v : Nat) : Bytes := (leBytes n v).reverse

/-- A product in the field of 2^128 with the bit order of GCM, over the highest `n` bits of `x`. -/
def ghMul (h : BitVec 128) (x : BitVec 128) : BitVec 128 :=
  ((List.range 128).foldl (fun (st : BitVec 128 × BitVec 128) i =>
    (if x.getLsbD (127 - i) then st.1 ^^^ st.2 else st.1,
     if st.2.getLsbD 0 then (st.2 >>> 1) ^^^ BitVec.ofNat 128 (0xE1 * 2 ^ 120) else st.2 >>> 1)) (0, h)).1

/-- GHASH of whole blocks. -/
def ghash (h : BitVec 128) (b : Bytes) : BitVec 128 :=
  (chunksOf 16 b.length b).foldl (fun y c => ghMul h (y ^^^ BitVec.ofNat 128 (beNat c))) 0

/-- A byte string filled to whole blocks of 16. -/
def padBlock (b : Bytes) : Bytes := b ++ zeros (roundUp 16 b.length - b.length)

/-- `n` bytes of the key stream: the counter begins at 2. -/
def gcmStream (ks : List Bytes) (nonce : Bytes) (n : Nat) : Bytes :=
  ((List.range ((n + 15) / 16)).flatMap (fun i => aesBlock ks (fit 12 nonce ++ beBytes 4 (i + 2)))).take n

/-- The ciphertext of a plaintext, or the plaintext of a ciphertext. -/
@[irreducible] def gcmXor (key nonce data : Bytes) : Bytes := xorBytes data (gcmStream (roundKeys key) nonce data.length)

/-- The tag over associated data and ciphertext. -/
@[irreducible] def gcmTag (key nonce aad ct : Bytes) : Bytes :=
  let ks := roundKeys key
  let h := BitVec.ofNat 128 (beNat (aesBlock ks (zeros 16)))
  let y := ghash h (padBlock aad ++ padBlock ct ++ beBytes 8 (8 * aad.length) ++ beBytes 8 (8 * ct.length))
  fit 16 (xorBytes (beBytes 16 y.toNat) (aesBlock ks (fit 12 nonce ++ [0, 0, 0, 1])))

/-- Ciphertext and tag. (PRESUMED: log entry 77) -/
def gcmSeal (key nonce aad plain : Bytes) : Bytes × Bytes :=
  let ct := gcmXor key nonce plain
  (ct, gcmTag key nonce aad ct)

/-- The plaintext, or none when the tag does not verify. (PRESUMED: log entry 77) -/
def gcmOpen (key nonce aad ct tag : Bytes) : Option Bytes :=
  if gcmTag key nonce aad ct = tag then some (gcmXor key nonce ct) else none

/-! ## CTR_DRBG with AES-256, no derivation function (SP 800-90A; R374) -/

/-- `n` blocks under the key and the counters that follow V. -/
def drbgBlocks (key v : Bytes) (n : Nat) : Bytes := (List.range n).flatMap (fun i => aes256 key (beBytes 16 (beNat v + i + 1)))

/-- The update function: 48 bytes enter the key and V. -/
def drbgUpdate (data : Bytes) (w : Bytes × Bytes) : Bytes × Bytes :=
  let t := xorBytes (drbgBlocks w.1 w.2 3) (fit 48 data)
  (t.take 32, t.drop 32)

/-- `n` bytes, and the key and V after them. -/
def drbgGenerate (n : Nat) (w : Bytes × Bytes) : Bytes × (Bytes × Bytes) :=
  let m := (n + 15) / 16
  ((drbgBlocks w.1 w.2 m).take n, drbgUpdate [] (w.1, beBytes 16 (beNat w.2 + m)))

/-- Key and V at instantiation: the entropy input and the personalization string enter zeros. -/
def drbgInit (entropy pers : Bytes) : Bytes × Bytes := drbgUpdate (xorBytes (fit 48 entropy) (fit 48 pers)) (zeros 32, zeros 16)

end Sys2Proof.Machine
end

