-- ==== Sys2Proof/Machine/State.lean ====
section
/-! DEFINITION. The machine's state as plain data, block by block, with every field's reset value as the structure
default, and the machine right after reset. A field's docstring gives its width, the file and rule of spec/ that names it
and where its reset value comes from ('A<n>' is notes/assumptions/<n>.md). -/

namespace Sys2Proof.Machine

/-! ## Small types -/

/-- Status codes, Table 16-5 (16_control_and_mailboxes.md R318). -/
inductive Status where
  | ok | busy | badArg | notPermitted | notIdle | keyMismatch | levelExhausted | cohortTooSmall | digestDisagree
  | entropyNotReady | tamperLocked | staleKey | accessViolation | retryExceeded | dataPoisoned | duplicate | overrun
  | plateRejected | signatureInvalid | linkDown | engineFenced
  | strokeGuard | swapLate | shapeUnsupported | weightAuthFail | weightsAbsent | neighbourMismatch | stretchLost
  | quorumLost | icvMismatch | automorphFault | operandMismatch | slotInvalid | wrFlushed | remoteError | unknownOpcode
  | rollbackRefused | bistMismatch | engineFault
  deriving DecidableEq, Repr

/-- The stored lifecycle states, Table 18-1; TAMPER_LOCKED is an overlay (18_tenancy_and_memory_protection.md R348). -/
inductive Lifecycle where
  | manufacture | provisioned | ownedOpen | ownedConfidential | retired
  deriving DecidableEq, Repr

/-- The levels of a reset, Table 20-1 (20_reset.md R385), with none for no reset. -/
inductive ResetLevel where
  | none | core | system | powerOn
  deriving DecidableEq, Repr

/-- Whose action lists, grants and reservations: Table 3-9. -/
inductive Work where
  | decode                    -- the decode session (one at a time)
  | ctx (handle : Nat)        -- a homomorphic context
  | round (handle : Nat)      -- a platen round
  deriving DecidableEq, Repr

/-- What holds a range of HBM for itself (15_host_interface.md R299). KV storage names the stretch that it stores (07_sequence_ring.md R144, R146;
08_fault_recovery.md R169). -/
inductive Owner where
  | weights | plate (handle : Nat) | stretch (index : Nat) | counterproof (index : Nat) | mirror (index : Nat) | draftKv
  | round (handle : Nat) | ctx (handle : Nat) | key (ctx handle : Nat) | spill (chunk : Nat)
  deriving DecidableEq, Repr

/-- A range of HBM that the module holds for itself. -/
structure Held where
  base  : Nat
  len   : Nat
  owner : Owner
  deriving DecidableEq, Repr

/-- What leaves the module over RoCEv2 (13_remote_memory.md R256 to R266). -/
inductive RoceOut where
  | ack (qpn psn : Nat)
  | ackStatus (qpn psn : Nat) (status : Status)
  | nakSequence (qpn psn : Nat)
  | nakRnr (qpn psn timer : Nat)
  | nak (qpn psn : Nat) (kind : NakKind)
  | readResponse (qpn psn : Nat) (data : Bytes)
  | cnp (qpn : Nat)
  | request (qpn psn : Nat) (op : RoceOp) (rkey va len imm : Nat) (final : Bool) (data : Bytes)
  | resend (qpn psn : Nat)
  deriving DecidableEq, Repr

/-- A frame as MACsec protects it: its SecTAG, the 12-byte IV that its packet number, the SSCI and the salt give, the encrypted data and the ICV
(R232). -/
structure SecTag where
  an   : Nat
  pn   : Nat
  sci  : Nat
  iv   : Bytes
  data : Bytes
  icv  : Bytes
  deriving DecidableEq, Repr

end Sys2Proof.Machine

namespace Sys2Proof

/-- The bytes of a message after the addresses of its frame, as RoCEv2 lays them out: the spec gives their fields and not their places. -/
opaque Config.roceFrame : Machine.RoceOut → Bytes

end Sys2Proof

namespace Sys2Proof.Machine

/-- What a ring control frame says (08_fault_recovery.md R161, R163; 08 R158 for digests). -/
inductive RingCtl where
  | suspicion (member : Nat) (cable : Option Nat)
  | selfReport (member : Nat)
  | view (v : ViewFrame)
  | keepalive (stroke epoch state : Nat)
  | digest (member : Nat) (value : BitVec 64)
  | stretchCopy (first count : Nat)
  | openDigest (value : BitVec 512)
  | parameters (value : BitVec 512)
  deriving DecidableEq, Repr

/-- What the module sends or answers, in the order it does so. A posted host write, a host read request, an MSI-X message,
the data of a register or memory read, a frame, an SPDM answer, a console line: of an event, or of boot progress (R425). `jtag` is JTAG_TDO after each
edge, `none` where it is not driven. `onStream` is a request of the module on the selective IDE
stream with T = 1 (15_host_interface.md R306). `macsec` is a frame on a network port, and the `roce` after it says which message the frame carries;
`rekeyAsk` asks the initiating end of a ring link for a rekey (R241). `tlp` is a request with the PCI Express attributes that it carries: relaxed
ordering, ID-based ordering, ECRC (Table 15-1). -/
inductive Output where
  | hostWrite (fn addr : Nat) (data : Bytes)
  | hostRead (fn rid addr len : Nat)
  | msix (fn vector : Nat)
  | readData (data : Bytes)
  | bar2Unsupported
  | bar2Abort
  | bar2Poisoned
  | smbusNack
  | macsec (port : Nat) (t : SecTag)
  | roce (port : Nat) (m : RoceOut)
  | ringFrame (port : Nat) (f : RingFrame) (lanes : List Bytes)
  | delimiter (port : Nat) (d : Delimiter) (word : BitVec 64)
  | control (dest : Nat) (c : RingCtl)
  | handshake (port : Nat) (initiator : Bool) (h : Handshake)
  | rekeyAsk (port : Nat)
  | eapol (port : Nat) (data : Bytes)
  | pfcPause (port priority : Nat) (assert : Bool)
  | spdm (name : String) (ok : Bool) (data : Bytes)
  | console (code seq : Nat)
  | bootProgress
  | jtag (tdo : List (Option Bool))
  | onStream (o : Output)
  | tlp (relaxed idOrder ecrc : Bool) (o : Output)
  deriving DecidableEq, Repr

/-- Why the module reads host memory: what HOST_READ_COMPLETION goes on with (R277, R300, R436). -/
inductive ReadFor where
  | descriptor (wring idx : Nat)
  | command (mb : Nat) (order : Nat) (sigOk : Bool)
  | correctSecond (mb : Nat) (order : Nat)
  | replayFields (mb : Nat) (order : Nat)
  | decodeInput (d : Nat)
  | hevImport (d : Nat)
  | rotsumList (d : Nat)
  | rdmSource (d : Nat)
  | abandoned
  deriving DecidableEq, Repr

/-- An answer to a host read: its bytes, or the status of its failure (Table 15-5). -/
inductive Arrived where
  | data (b : Bytes)
  | failed (st : Status)
  deriving DecidableEq, Repr

/-- An outstanding or held read of host memory; `got` is what its earlier requests have brought (R293), `arrived` an answer that its command
has not taken yet, for want of running firmware. -/
structure HostRead where
  id      : Nat
  fn      : Nat
  addr    : Nat
  len     : Nat
  head    : Nat
  purpose : ReadFor
  issued  : Bool
  got     : Bytes
  arrived : Option Arrived
  deriving DecidableEq, Repr

/-! ## Reset, power and clocks -/

/-- `RST` and the reset controller (20_reset.md R385 to R396). -/
structure RstState where
  /-- 2 bits; 20_reset.md Table 20-6; reset 1 -/
  last         : Nat := 1
  /-- 1 bit; Table 20-6 CORE_SEEN; reset 0 -/
  coreSeen     : Bool := false
  /-- 1 bit; Table 20-6 SYSTEM_SEEN; reset 0 -/
  systemSeen   : Bool := false
  /-- 1 bit; Table 20-6 POWER_ON; reset 1 -/
  powerOn      : Bool := true
  /-- 8 bits; Table 20-6 OPT_RESTARTS; reset 0 -/
  optRestarts  : Nat := 0
  /-- 1 bit; Table 20-6 OPT_BAD; reset 0 -/
  optBad       : Bool := false
  /-- 1 bit; Table 20-6 SHORT_PULSE; reset 0 -/
  shortPulse   : Bool := false
  /-- 32 bits; Table 20-6 OPT_BAD_CNT; reset 0 -/
  optBadCnt    : Nat := 0
  /-- 32 bits; Table 20-6 CORE_CNT; reset 0 -/
  coreCnt      : Nat := 0
  /-- RESET_N line as the carrier drives it, low; R386; reset released, A6 -/
  carrierLow   : Bool := false
  /-- RESET_N held low by the module; R387; reset released (Table 20-4 at 10 ms), A6 -/
  moduleLow    : Bool := false
  /-- level of the reset in progress, or of the last one; R386; reset power-on, its option load running, A6 -/
  level        : ResetLevel := .powerOn
  /-- the low period has qualified and the reset not yet ended; R386; reset 0, A6 -/
  inReset      : Bool := false
  /-- core pulses qualified since an option load last ended, which CORE_CNT takes up at its end; Table 20-5; reset 0 -/
  cores        : Nat := 0
  /-- option load is running, or a reset has abandoned it and it restarts at the rising edge; R389; reset 1, A6 -/
  optLoad      : Bool := true
  /-- boot stopped for a bad record or a tamper alarm during start-up; R389, R366; reset 0 -/
  bootStopped  : Bool := false
  /-- compute rails on (not Standby, not tripped, input in range); R400, R405, R407, R428; reset 1 -/
  railsOn      : Bool := true
  /-- the module is in Standby; R407; reset 0 -/
  standby      : Bool := false
  /-- the option records in use, the first valid one of each type; R389; reset none -/
  options      : List OptRecord := []
  /-- straps sampled: SMBus address bits 2:0; R390, R424; reset as the carrier wires them, Config.straps -/
  strapAddr    : Nat := Config.straps.toNat % 8
  /-- straps sampled: STRAP_UART_FAST; R390, R425; reset as the carrier wires it, Config.straps -/
  strapFast    : Bool := Config.straps.getLsbD 3
  deriving DecidableEq, Repr

/-- A tamper log entry (Table 18-9). -/
structure TamperEntry where
  source  : Nat
  state   : Nat
  count   : Nat
  stroke  : Nat
  deriving DecidableEq, Repr

/-- The backup domain (R366, R367, R391, R405, R427). -/
structure BackupState where
  /-- 32 bits; R391; reset 1, which counts this power-on, A7 -/
  resetCount  : Nat := 1
  /-- 16 entries of 16 bytes, newest first; R367; reset empty, A7 -/
  log         : List TamperEntry := []
  /-- 32 bits; R367 tamper total; reset 0, A7 -/
  total       : Nat := 0
  /-- sources latched with main power off; R366; reset none, A7 -/
  latched     : List Nat := []
  /-- thermal trip latch; R405; reset 0, A7 -/
  trip        : Bool := false
  deriving DecidableEq, Repr

/-- One die's thermal controller and sensor (R403). -/
structure DieState where
  /-- divisor code 0..3 in force (÷4 ÷5 ÷6 ÷8); R398, Table 21-4 F_DIV; reset 0 -/
  div        : Nat := 0
  /-- thermal request code; R403; reset 0 (÷4), A8 -/
  therm      : Nat := 0
  /-- request of the temperature-difference alarm; R404; reset 0, A8 -/
  diffReq    : Bool := false
  /-- consecutive samples at or below 90 C; R403; reset 0, A8 -/
  coolRun    : Nat := 0
  /-- samples since the last thermal step; R403 (one step per 1 ms); reset 10, A8 -/
  sinceStep  : Nat := 10
  /-- a request for ÷8 that R398 exempts from its spacing waits for the next boundary; reset 0, A8 -/
  urgent     : Bool := false
  /-- housekeeping time of the last divisor change; R398; reset none, A8 -/
  lastChange : Option Nat := none
  /-- 32 bits; Table 21-4 THROTTLE_US; reset 0 -/
  throttleUs : Nat := 0
  deriving DecidableEq, Repr

/-- Sensor readings of one die (Table 21-4 TEMP). -/
structure TempState where
  /-- 8 bits signed, TJ; Table 21-4; reset 0x80 -/
  tj    : Int := -128
  /-- 8 bits signed, TJ_MAX; Table 21-4; reset 0x80 -/
  tjMax : Int := -128
  deriving DecidableEq, Repr

/-- `CLK`, the power-cap, fast-limit and thermal controllers (R397 to R408). -/
structure ClkState where
  /-- 7 sticky bits [6:0]; Table 21-4; reset 0 -/
  sticky      : BitVec 32 := 0
  /-- 11 bits CAP_W in effect; Table 21-4; reset 1650 -/
  capW        : Nat := 1650
  /-- shadow of CAP_W; R15, R49; reset none -/
  capShadow   : Option Nat := none
  /-- cap request code; R401; reset 0 -/
  capReq      : Nat := 0
  /-- consecutive decision points with A at or below 0.875 K; R401; reset 0, A8 -/
  lowRun      : Nat := 0
  /-- the compute dies; R398, R403; reset ÷4 -/
  dies        : Four DieState := ⟨{}, {}, {}, {}⟩
  /-- consecutive samples with a difference of 25 C or less; R404; reset 0, A8 -/
  diffLowRun  : Nat := 0
  /-- the difference alarm is on; R404; reset 0 -/
  diffAlarm   : Bool := false
  /-- THERM_N driven low for a junction at 105 C or more; R403; reset 0 -/
  thermHot    : Bool := false
  /-- TEMP[0..4]; Table 21-4; reset 0x80 -/
  temps       : Five TempState := ⟨{}, {}, {}, {}, {}⟩
  /-- 16 bits VIN_MV; Table 21-4; reset 0 -/
  vinMv       : Nat := 0
  /-- 11 bits PWR_W instantaneous; Table 21-4; reset 0 -/
  pwrW        : Nat := 0
  /-- 1 s average of the input power; R356, R408; reset 0 -/
  pwrAvg      : Nat := 0
  /-- 32 bits STEP_CNT; Table 21-4; reset 0 -/
  stepCnt     : Nat := 0
  /-- an idle stroke has put the module in Idle; PSTATE, R406, Table 21-4; reset 0 -/
  idle        : Bool := false
  deriving DecidableEq, Repr

/-- The states of an IEEE 1149.1 TAP controller (R418, R423). -/
inductive TapState where
  | testLogicReset | runTestIdle | selectDr | captureDr | shiftDr | exit1Dr | pauseDr | exit2Dr | updateDr
  | selectIr | captureIr | shiftIr | exit1Ir | pauseIr | exit2Ir | updateIr
  deriving DecidableEq, Repr

/-- The TAP's instructions (R418). -/
inductive TapInstr where
  | bypass | idcode | debugAccess
  deriving DecidableEq, Repr

/-- The TAP: its controller, its instruction, the register being shifted, low bit first. -/
structure TapUnit where
  state : TapState := .testLogicReset
  instr : TapInstr := .idcode
  shift : List Bool := []
  deriving DecidableEq, Repr

/-- Output pins (R392, Table 23-2); OPT_EN_N stands in the ports, RESET_N in `RstState`, THERM_N follows `ClkState`. (DESIGN CHOICE: log entry 74) -/
structure PinState where
  /-- ALERT_N low for the watchdog; R309; reset released -/
  alertWdog   : Bool := false
  /-- ALERT_N low for a tamper alarm; R365; reset released -/
  alertTamper : Bool := false
  /-- ALERT_N low for a missing option record; R389; reset released -/
  alertBoot   : Bool := false
  /-- ALERT_N low for the fast power limit; R402; reset released -/
  alertFast   : Bool := false
  /-- PWR_GOOD released (1) or low (0); R392; reset 1, the rails are good at power-on -/
  pwrGood     : Bool := true
  /-- the rate at which the control firmware drives UART_TXD; none: pulled up, line idle; R392, R425; reset none -/
  uart        : Option Nat := none
  /-- the TAP, which alone drives JTAG_TDO, in Shift-IR and Shift-DR; R418, R423; reset Test-Logic-Reset -/
  tap         : TapUnit := {}
  deriving DecidableEq, Repr

/-! ## The press, actions and data -/

/-- What an action of the ring engine does in a step of a ring: the partials of a layer, its merged u, and the step's digest (07_sequence_ring.md
R150; 08_fault_recovery.md R158). -/
inductive Exch where
  | partials (layer : Nat)
  | merged (layer : Nat)
  | digest
  deriving DecidableEq, Repr

/-- An action instantiated from an action list (R34, R36): its stroke tags are in its work's session strokes. `outputs` gives each
name with its consumers and the value published under it; `exch` marks an action of the ring engine, which publishes what its step has computed; `twin` marks the secondary half of a twin work (R71); `consumed` and
`poisoned` are what it has read once it runs. -/
structure Action where
  id       : Nat
  work     : Work
  plate    : Nat
  /-- the run of its plate: an operation of a context by its descriptor (R218), an admitted slice of a round by its number (R36) -/
  run      : Option Nat := none
  unit     : Nat
  start    : Nat
  due      : Nat
  inputs   : List DatumName
  reads    : List MemRef
  steps    : List EdStep
  outputs  : List (DatumName × Nat × Nat)
  stores   : List (Nat × Nat)
  checked  : List Nat
  sends    : Bool
  trigger  : Option Nat
  exch     : Option Exch
  twin     : Bool
  running  : Bool
  consumed : List Bytes
  poisoned : Bool
  deriving DecidableEq, Repr

/-- A published datum that the check list of a twin plate names: the action that published it, its half, its action's DUE stroke, and the primary unit and the slot by
which each half orders them (R72). -/
structure CheckDatum where
  work   : Work
  run    : Option Nat := none
  action : Nat
  second : Bool
  due    : Nat
  unit   : Nat
  slot   : Nat
  bytes  : Bytes
  deriving DecidableEq, Repr

/-- A datum present under its name, with the consumers that have still to read it (R42, R44). What the halves of a twin work publish stays apart
(R72), as does what two runs of a work's plates publish (R218); what came over the ring has no count of readers, and both halves read it. -/
structure Datum where
  name    : DatumName
  bytes   : Bytes
  poison  : Bool
  readers : Nat
  work    : Work
  run     : Option Nat := none
  second  : Bool := false
  deriving DecidableEq, Repr

/-- `PRS` and the press (02_strokes_and_press.md R34 to R51). -/
structure PrsState where
  /-- 48 bits, the module stroke counter; R39; reset 0 -/
  stroke      : Nat := 0
  /-- 16 bits, latched high half of STROKE; R435, Table 2-4; reset 0 -/
  strokeHi    : Nat := 0
  /-- 1 bit STALLED; Table 2-5; reset 0 -/
  stalled     : Bool := false
  /-- 4 sticky bits [3:0]; Table 2-6; reset 0 -/
  sticky      : BitVec 32 := 0
  /-- 10 bits LIMIT_MS in effect; Table 2-7; reset 50 -/
  limitMs     : Nat := 50
  /-- shadow of LIMIT_MS; R15, R49; reset none -/
  limitShadow : Option Nat := none
  /-- 10 bits DOMAIN as latched; Table 2-7; reset 0x3FF -/
  stallDomain : Nat := 1023
  /-- 48 bits SNAP_AT; Table 2-8; reset 0 -/
  snapAt      : Nat := 0
  /-- 1 bit PENDING; Table 2-8; reset 0 -/
  snapPending : Bool := false
  /-- the armed target stroke; R50, R416; reset 0 -/
  snapTarget  : Nat := 0
  /-- 1 bit DONE; Table 2-8; reset 0 -/
  snapDone    : Bool := false
  /-- every domain has latched, and the buffer is being written; R50 step 4; reset 0 -/
  snapLatched : Bool := false
  /-- housekeeping time of the last latch; R50 step 2; reset none, A9 -/
  snapTime    : Option Nat := none
  /-- 48 bits LAST_APPLY; Table 2-9; reset 0 -/
  lastApply   : Nat := 0
  /-- 16 bits, latched high half of LAST_APPLY; Table 2-9; reset 0 -/
  lastApplyHi : Nat := 0
  /-- 64 bits, press advances (STROKES); Table 22-5; reset 0 -/
  advances    : Nat := 0
  /-- the actions instantiated and not complete; R36; reset none -/
  actions     : List Action := []
  /-- the data present; R42 to R44; reset none -/
  data        : List Datum := []
  /-- the checked data of both halves whose strokes have not retired; R72; reset none -/
  checks      : List CheckDatum := []
  /-- number of the next action; the model's own, reset 0 -/
  nextAction  : Nat := 0
  /-- strokes retired by domain while participating (RETIRED, Table 22-4); reset 0 -/
  retired     : List (Nat × Nat) := []
  deriving DecidableEq, Repr

/-! ## Fabric -/

/-- A staged plate (03_fabric_and_plates.md R59 to R63). -/
structure Plate where
  handle : Nat
  image  : Bytes
  digest : Bytes
  signer : Bytes
  kind   : Nat
  sheets : Nat
  flags  : Nat
  span   : Nat
  shape  : Bytes
  deriving DecidableEq, Repr

/-- A pending load and swap (R66): the load action runs in domain 541 from session stroke `start`; `stroke` is the swap
session stroke. -/
structure Swap where
  work   : Work
  plate  : Nat
  mask   : BitVec 32
  stroke : Nat
  start  : Nat
  loading : Bool
  loaded : Bool
  deriving DecidableEq, Repr

/-- A plate active on sheets of a work. -/
structure Active where
  work  : Work
  plate : Nat
  mask  : BitVec 32
  deriving DecidableEq, Repr

/-- A grant of sheets (R68) and the SRAM banks reserved in it (R69), as global bank numbers graver × 16 + bank. -/
structure Grant where
  work  : Work
  mask  : BitVec 32
  twin  : Bool
  banks : List Nat
  deriving DecidableEq, Repr

/-- `PLA`, `GRV`, the plate store and the partition of the fabric (R52 to R75). -/
structure PlaState where
  /-- 5 sticky bits [4:0]; Table 3-10; reset 0 -/
  sticky     : BitVec 32 := 0
  /-- 3 bits LOAD_RATE; Table 3-11; reset 3 -/
  loadRate   : Nat := 3
  /-- 32 bits TWIN_MISMATCH_CNT; Table 3-11; reset 0 -/
  twinCnt    : Nat := 0
  /-- 48 bits LAST_SWAP; Table 3-12; reset 0 -/
  lastSwap   : Nat := 0
  /-- 16 bits, latched high half of LAST_SWAP; Table 3-12; reset 0 -/
  lastSwapHi : Nat := 0
  /-- the plate store; R63; reset empty (power-on wipes it) -/
  store      : List Plate := []
  /-- plates that have left the store while other works' buffers hold them; R67; reset none -/
  loose      : List Plate := []
  /-- pending swaps; R66; reset none -/
  swaps      : List Swap := []
  /-- active plates; R66; reset none -/
  active     : List Active := []
  /-- grants of sheets and banks; R68, R69, SHEET_BUSY, SHEET_TWIN, BANK_RESV; reset none -/
  grants     : List Grant := []
  /-- 512 bits ACTIVE_BUF of each graver; Table 3-13; reset 0 -/
  activeBuf  : BitVec 512 := 0
  /-- 512 bits SHADOW_VALID of each graver; Table 3-13; reset 0 -/
  shadowVld  : BitVec 512 := 0
  /-- 16 bits PARITY_CNT by graver; Table 3-13; reset 0 -/
  parityCnt  : List (Nat × Nat) := []
  /-- 64 bits PARITY of each graver's domain record; Table 22-4; reset 0 -/
  parityAll  : List (Nat × Nat) := []
  /-- 4,096 accumulators of 80 bits in each graver, those not 0, by graver × 4,096 + accumulator; R52, Table 3-1; reset 0, A79 -/
  accums     : List (Nat × BitVec 80) := []
  /-- 64 bits ACC_OVF of each graver's domain record; R83, Table 22-4; reset 0 -/
  accOvf     : List (Nat × Nat) := []
  deriving DecidableEq, Repr

/-! ## Check values and entropy -/

/-- A queued step of the check-value unit (R381). -/
inductive CvuStep where
  | byte (b : Byte)
  | start
  deriving DecidableEq, Repr

/-- `CVU` (19_entropy_and_check_values.md R380 to R384). -/
structure CvuState where
  /-- 1 bit POLY, 1 for CRC-64; Table 19-4; reset 1 -/
  poly     : Bool := true
  /-- the 16-step queue; R381; reset empty -/
  queue    : List CvuStep := []
  /-- 2 sticky bits [1:0]; Table 19-4; reset 0 -/
  sticky   : BitVec 32 := 0
  /-- 64 bits FOLD; Table 19-4; reset 0 -/
  fold     : BitVec 64 := 0
  /-- 64 bits, the CRC register; R381; reset the CRC-64 initial register with F = 0 -/
  reg      : BitVec 64 := 0xFFFFFFFFFFFFFFFF#64
  /-- 32 bits RESULT_HI as latched; Table 19-4; reset 0 -/
  resultHi : BitVec 32 := 0
  deriving DecidableEq, Repr

/-- One noise source (R370 to R372). -/
structure NoiseSource where
  /-- passing blocks of the start-up test, 0 to 4; R372; reset 0 -/
  passed  : Nat := 0
  /-- last raw bit and the length of the run of identical bits; R370; reset none, 0 -/
  lastBit : Bool := false
  run     : Nat := 0
  /-- 16 bits RCT_FAIL; Table 19-2; reset 0 -/
  rctFail : Nat := 0
  /-- 16 bits APT_FAIL; Table 19-2; reset 0 -/
  aptFail : Nat := 0
  deriving DecidableEq, Repr

/-- `ENT`, conditioner and DRBG (R370 to R379). -/
structure EntState where
  /-- the eight sources; R370; reset start-up test not passed -/
  sources   : List NoiseSource := List.replicate 8 {}
  /-- 1 sticky bit; Table 19-2; reset 0 -/
  sticky    : BitVec 32 := 0
  /-- passing blocks waiting for the conditioner; R373; reset none -/
  blocks    : List (BitVec 1024) := []
  /-- conditioner outputs not yet consumed; R373; reset none -/
  outputs   : List (BitVec 256) := []
  /-- 1 bit READY; R376; reset 0 -/
  ready     : Bool := false
  /-- 1 bit RESEEDING; Table 19-2; reset 0 -/
  reseeding : Bool := false
  /-- generate requests since the last seeding; R374; reset 0 -/
  requests  : Nat := 0
  /-- V, the 16 bytes that CTR_DRBG keeps beside its key in slot 4; R374; reset none -/
  drbgV     : Bytes := []
  /-- 32 bits RESEED_CNT; Table 19-2; reset 0 -/
  reseedCnt : Nat := 0
  /-- 32 bits HOST_WAIT_CNT; Table 19-2; reset 0 -/
  hostWait  : Nat := 0
  deriving DecidableEq, Repr

/-! ## Keys, lifecycle, firmware, memory protection -/

/-- A key-store slot (17_keys_and_attestation.md R332, R333). -/
structure KeySlot where
  slot      : Nat
  type      : Nat
  origin    : Nat
  mask      : Nat
  nonExport : Bool
  secret    : Bytes
  pub       : Bytes
  bound     : Bytes
  deriving DecidableEq, Repr

/-- `KST`, identity and attestation keys (R327 to R346). -/
structure KstState where
  /-- 3 sticky bits [2:0]; Table 17-11; reset 0 -/
  sticky     : BitVec 32 := 0
  /-- the full slots of the 256; Table 17-2; reset none full -/
  slots      : List KeySlot := []
  /-- 32 bits UNWRAP_FAIL_CNT; Table 17-11; reset 0 -/
  unwrapFail : Nat := 0
  /-- 32 bits STALE_WRAP_CNT; Table 17-11; reset 0 -/
  staleWrap  : Nat := 0
  /-- 32 bits ENGINE_DENY_CNT; Table 17-11; reset 0 -/
  engineDeny : Nat := 0
  /-- the certificate chain in force; R331; reset none -/
  chain      : Bytes := []
  /-- OTP identity seed, empty once RETIRE has blown it; R329, R349; reset as sealed at the factory, A2 -/
  seedBlown  : Bool := false
  /-- 64 bits DECISION_SERIAL counter, non-volatile; R22; reset 0 (the first proof carries 1) -/
  serial     : Nat := 0
  deriving DecidableEq, Repr

/-- A lifecycle change whose removal sequence has reached the zero fill (R354 steps 6, 7). -/
structure Removal where
  mb       : Nat
  order    : Nat
  target   : Lifecycle
  clearOvl : Bool
  fromCode : Nat
  /-- the owner key that step 7 stores, empty when it stores none -/
  owner    : Bytes
  deriving DecidableEq, Repr

/-- Lifecycle, owner and tamper state (18_tenancy_and_memory_protection.md R347 to R368). -/
structure LifeState where
  /-- stored lifecycle state; R348, non-volatile; reset PROVISIONED (R347: modules leave the factory so) -/
  stored      : Lifecycle := .provisioned
  /-- TAMPER_LOCKED overlay; R348; reset 0 -/
  overlay     : Bool := false
  /-- 2,592-byte owner public key, empty when none; R348; reset none -/
  ownerKey    : Bytes := []
  /-- 32 bits OWNER_SEQ; R348; reset 0 -/
  ownerSeq    : Nat := 0
  /-- four owner plate keys, empty when unused; R343, non-volatile; reset none -/
  plateKeys   : Four Bytes := ⟨[], [], [], []⟩
  /-- enrolment count; R343; reset 0 -/
  enrolCount  : Nat := 0
  /-- a system reset or power-on has occurred since the last alarm; R368; reset 1 -/
  resetSince  : Bool := true
  /-- sources in alarm now; R368; reset none -/
  inAlarm     : List Nat := []
  /-- the removal that waits for the zero fill; R354; reset none -/
  removal     : Option Removal := none
  deriving DecidableEq, Repr

/-- A firmware slot (R322 to R324): 0 empty, 1 STAGED, 2 previous, 3 running. -/
structure FwSlot where
  state   : Nat
  version : Nat
  svn     : Nat
  digest  : Bytes
  deriving DecidableEq, Repr

/-- One firmware component (R322 to R325). -/
structure FwComp where
  slot0   : FwSlot
  slot1   : FwSlot
  /-- running slot; R324; reset 0, A10 -/
  running : Nat := 0
  /-- boot slot; R324; reset 0, A10 -/
  boot    : Nat := 0
  /-- 64 fuse bits blown; R325, non-volatile; reset 0, A10 -/
  counter : Nat := 0
  /-- the running image's VERSION, SVN and digest -/
  runVer  : Nat := 0
  runSvn  : Nat := 0
  runDig  : Bytes := []
  deriving DecidableEq, Repr

/-- The counter blocks of `count` HBM pages from `page` on, all alike, written since the last key (R358, R361). The MINOR of a line that `minors` does
not list is `common`.
(DESIGN CHOICE: log entry 75) -/
structure PageMeta where
  page     : Nat
  count    : Nat
  major    : Nat
  slotB    : Bool
  readOnly : Bool
  epoch    : Nat
  common   : Nat
  minors   : List (Nat × Nat)
  deriving DecidableEq, Repr

/-- `MPR` (R357 to R369). (DESIGN CHOICE: log entry 75) -/
structure MprState where
  /-- 4 sticky bits [3:0]; Table 18-10; reset 0 -/
  sticky     : BitVec 32 := 0
  /-- 1 bit ACTIVE_SLOT; Table 18-10; reset 0 -/
  activeB    : Bool := false
  /-- 1 bit SWEEP; Table 18-10; reset 0 -/
  sweep      : Bool := false
  /-- 7 bits SWEEP_PCT; Table 18-10; reset 0 -/
  sweepPct   : Nat := 0
  /-- 1 bit WIPING; Table 18-10; reset 0 (the fill begins when HBM training and the DRBG are done) -/
  wiping     : Bool := false
  /-- HBM PHY training done; R393; reset 0 -/
  trained    : Bool := false
  /-- HBM lines are readable (a key exists and the fill is done); R353; reset 0 -/
  filled     : Bool := false
  /-- 4 bits SWEEP_RATE; Table 18-10; reset 4 -/
  sweepRate  : Nat := 4
  /-- 32 bits MAC_FAIL_CNT; Table 18-10; reset 0 -/
  macFail    : Nat := 0
  /-- 32 bits TREE_FAIL_CNT; Table 18-10; reset 0 -/
  treeFail   : Nat := 0
  /-- 32 bits POISON_MARK_CNT; Table 18-10; reset 0 -/
  poisonMark : Nat := 0
  /-- 32 bits TREE_MISS_CNT; Table 18-10; reset 0 -/
  treeMiss   : Nat := 0
  /-- 32 bits REENCRYPT_CNT; Table 18-10; reset 0 -/
  reencrypt  : Nat := 0
  /-- 32 bits EPOCH; R359, Table 18-10; reset 0 -/
  epoch      : Nat := 0
  /-- tree walks since system reset, which decide what misses the counter caches; R358, R369; reset 0 -/
  walks      : Nat := 0
  /-- counter blocks of written pages; R358; reset none written -/
  pages      : List PageMeta := []
  deriving DecidableEq, Repr

/-- Device memory: HBM, graver SRAM and buffer pool by device address (Table 0-5), plaintext view. -/
structure MemState where
  /-- bytes that are not 0, addresses strictly rising; Table 0-5, R353; reset nothing listed (every byte reads 0) -/
  cells  : List Host.Cell := []
  /-- poisoned 64-byte HBM lines by line index, rising; R358, R360; reset none -/
  poison : List Nat := []
  /-- 64-bit SRAM words of bad parity by word index; R54, R285; reset none -/
  parity : List Nat := []
  /-- ranges the module holds for itself besides the plate store and the pool; R299; reset none -/
  held   : List Held := []
  deriving DecidableEq, Repr

/-! ## Host interface, mailboxes, events, telemetry, test -/

/-- The configuration space of a function as far as the rules name it (R293, R296, R297). The settings of device control, which no row writes,
stand at the values that PCI Express gives them at reset. (PRESUMED: log entry 11) -/
structure ConfigSpace where
  /-- 16 bits vendor ID; R296; reset 0x1D7A -/
  vendor     : BitVec 16 := 0x1D7A
  /-- 16 bits device ID; Table 15-2; reset by function -/
  device     : BitVec 16
  /-- 24 bits class code; Table 15-2; reset by function -/
  classCode  : BitVec 24
  /-- vectors of the MSI-X table; Table 15-2; reset by function -/
  vectors    : Nat
  /-- 64 bits BAR0: 64-bit, not prefetchable, 16 MiB; R297; reset 0x4, A11 -/
  bar0       : BitVec 64 := 0x4
  /-- 64 bits BAR2: 64-bit, prefetchable, 64 GiB; R297; reset 0xC, A11 -/
  bar2       : BitVec 64 := 0xC
  /-- max payload size in bytes, 128 to 512; Table 15-1; reset 128, A11 -/
  maxPayload : Nat := 128
  /-- max read request size in bytes, up to 4,096; Table 15-1; reset 512, A11 -/
  maxRead    : Nat := 512
  /-- the function may set relaxed ordering, and ID-based ordering; Table 15-1; reset 1, 0, A11 -/
  relaxed    : Bool := true
  idOrder    : Bool := false
  /-- ECRC generation and checking enabled; Table 15-1; reset 0, A11 -/
  ecrc       : Bool := false
  /-- the MSI-X table, 16 bytes for each vector; R302, R306; reset 0, A11 -/
  msix       : List Host.Cell := []
  /-- the registers of the IDE capability; R305, R306; reset 0, A11 -/
  ide        : List Host.Cell := []
  deriving DecidableEq, Repr

/-- The configuration space of function `fn` after a reset (Table 15-2). -/
def ConfigSpace.ofFn (fn : Nat) : ConfigSpace :=
  { device := BitVec.ofNat 16 (0x4400 + fn)
    classCode := if fn = 0 then 0x088000 else if fn = 4 then 0x020000 else 0x120000
    vectors := if fn = 0 then 64 else if fn = 2 then 0 else 2048 }

/-- State of one PCI Express function (R296 to R303, Table 15-8). (PRESUMED: log entry 11) -/
structure FnState where
  /-- configuration space; R296, R297; reset as ConfigSpace -/
  cfg      : ConfigSpace
  /-- Bus Master Enable; R300; reset 0, A11 -/
  bme      : Bool := false
  /-- 32 bits AER uncorrectable error status, which an FLR keeps; Table 15-1; reset 0, A11 -/
  aer      : BitVec 32 := 0
  /-- D3HOT; Table 15-8; reset 0 -/
  d3hot    : Bool := false
  /-- FENCED; Table 15-8; reset 0 -/
  fenced   : Bool := false
  /-- QUIESCED; Table 15-8; reset 0 -/
  quiesced : Bool := false
  /-- 12 bits BAR2_BASE; Table 15-8; reset 0 -/
  bar2     : Nat := 0
  /-- round-robin position: the work ring last fetched from; R277; reset none -/
  lastRing : Option Nat := none
  deriving DecidableEq, Repr

/-- The TDISP states (Table 15-7). -/
inductive Tdi where
  | unlocked | locked | run | error
  deriving DecidableEq, Repr

/-- An IDE stream (R305): secure state, key set in use, keys programmed by (set, direction, sub-stream). -/
structure IdeStream where
  secure : Bool := false
  keySet : Nat := 0
  keys   : List (Nat × Nat × Nat) := []
  deriving DecidableEq, Repr

/-- `HIF`, DOE/SPDM, IDE and TDISP (15_host_interface.md R293 to R307). -/
structure HifState where
  /-- LINK.UP; Table 15-8; reset 0 -/
  up        : Bool := false
  /-- LINK.FLIT; Table 15-8; reset 0 -/
  flit      : Bool := false
  /-- LINK.WIDTH; Table 15-8; reset 0 -/
  width     : Nat := 0
  /-- LINK.SPEED; Table 15-8; reset 0 -/
  speed     : Nat := 0
  /-- 5 sticky bits [4:0]; Table 15-8; reset 0 -/
  sticky    : BitVec 32 := 0
  /-- 32 bits BAD_ACCESS_CNT; Table 15-8; reset 0 -/
  badAccess : Nat := 0
  /-- 32 bits BAR2_DENY_CNT; Table 15-8; reset 0 -/
  bar2Deny  : Nat := 0
  /-- 2 bits TDI_STATE; Table 15-8; reset 0 CONFIG_UNLOCKED -/
  tdi       : Tdi := .unlocked
  /-- 32 bits TDI_REJECT_CNT; Table 15-8; reset 0 -/
  tdiReject : Nat := 0
  /-- 32 bits HOST_ERR_CNT; Table 15-8; reset 0 -/
  hostErr   : Nat := 0
  /-- the five functions; Table 15-2; reset as FnState -/
  fns       : Five FnState := ⟨{ cfg := .ofFn 0 }, { cfg := .ofFn 1 }, { cfg := .ofFn 2 }, { cfg := .ofFn 3 }, { cfg := .ofFn 4 }⟩
  /-- SPDM: version, capabilities and algorithms negotiated, 0 to 3; R304; reset 0 -/
  spdmPhase : Nat := 0
  /-- the requester offers ML-DSA-87, and ML-KEM-1024; R304; reset 0 -/
  spdmSig   : Bool := false
  spdmKem   : Bool := false
  /-- SPDM secured session: 0 none, 1 handshake, 2 established; R304; reset 0 -/
  session   : Nat := 0
  /-- key generation of the session (KEY_UPDATE); R304; reset 0 -/
  sessKeys  : Nat := 0
  /-- the link stream; R305; reset insecure -/
  linkIde   : IdeStream := {}
  /-- the selective stream; R305; reset insecure -/
  selIde    : IdeStream := {}
  /-- outstanding and held reads of host memory; R300; reset none -/
  reads     : List HostRead := []
  /-- posted writes and MSI-X messages held while Bus Master Enable is 0 or in D3hot; R300, R302; reset none -/
  held      : List (Nat × Output) := []
  /-- number of the next read; the model's own, reset 0 -/
  nextRead  : Nat := 0
  deriving DecidableEq, Repr

/-- How a command has ended: a reason code, a status and a completion payload (R312). -/
structure Ended where
  reason  : Option Nat
  status  : Status
  payload : Bytes
  deriving DecidableEq, Repr

/-- A command taken from a mailbox at its GO (R312). `phase` 0: waiting to begin; 1: running, nothing done yet; 2: running,
waiting for data or for an event that its row or another row brings; 3: over, its completion waiting for the firmware. `attached` is false after an
FLR of PF0 (R303). -/
structure Job where
  mb       : Nat
  order    : Nat
  /-- its 32-byte header -/
  head     : Bytes
  opcode   : Nat
  flags    : Nat
  tag      : Nat
  payload  : Bytes
  phase    : Nat
  attached : Bool
  /-- what a command that goes on in another row works on (a handle, a ring number, a count) -/
  subject  : Nat
  /-- entries a ROUND_CORRECT has applied -/
  applied  : Nat
  /-- what fails its check when it reads device memory; R185, R360 -/
  bad      : List MemFail
  /-- data it has read already -/
  data     : List Bytes
  /-- the completion that waits in phase 3; R309, R418 -/
  ended    : Option Ended
  deriving DecidableEq, Repr

/-- One mailbox (16_control_and_mailboxes.md R310 to R316). -/
structure Mailbox where
  /-- 2 bits STATE: 0 IDLE, 1 BUSY, 2 DONE; Table 16-3; reset 0 -/
  state  : Nat := 0
  /-- command header and payload bytes by window offset; Table 16-1; reset 0, A12 -/
  window : List Host.Cell := []
  /-- completion payload bytes valid from 0x40 once a command has completed; R312; reset none -/
  cplEnd : Option Nat := none
  /-- ranges of the payload written since that completion, (offset, length); R312; reset none -/
  fresh  : List (Nat × Nat) := []
  /-- 1 bit IRQ_EN; Table 16-3; reset 0 -/
  irqEn  : Bool := false
  /-- 6 bits VECTOR; Table 16-3; reset 0 -/
  vector : Nat := 0
  /-- 3 sticky bits [2:0]; Table 16-3; reset 0 -/
  sticky : BitVec 32 := 0
  /-- 32 bits, GO writes that made it BUSY; R311; reset 0 (restarts from 1) -/
  serial : Nat := 0
  deriving DecidableEq, Repr

/-- The event ring (R319, R320). -/
structure EventRing where
  hbm      : Bool
  k        : Nat
  vector   : Nat
  base     : Nat
  tail     : Nat
  mask     : BitVec 64
  producer : Nat
  consumer : Nat
  deriving DecidableEq, Repr

/-- `MBX`, control processors and events (R308 to R321). -/
structure MbxState where
  /-- the four mailboxes; R310; reset IDLE -/
  boxes      : Four Mailbox := ⟨{}, {}, {}, {}⟩
  /-- commands taken and not complete, in order of GO; R314; reset none -/
  jobs       : List Job := []
  /-- order of the next GO; the model's own, reset 0 -/
  nextOrder  : Nat := 0
  /-- CP_STATUS.FW_READY; Table 16-3; reset 0 -/
  fwReady    : Bool := false
  /-- CP_STATUS.WDOG_EXPIRED; Table 16-3; reset 0 -/
  wdog       : Bool := false
  /-- CP_STATUS.RECOVERY; Table 16-3; reset 0 -/
  recovery   : Bool := false
  /-- no valid security firmware: the module stays in boot ROM; R324; reset 0 -/
  secInvalid : Bool := false
  /-- CP_STATUS.FALLBACK; Table 16-3; reset 0 -/
  fallback   : Bool := false
  /-- control processors halted by the debug port; R418; reset 0 -/
  halted     : Four Bool := ⟨false, false, false, false⟩
  /-- instructions each halted processor was stepped; R418; reset 0 -/
  stepped    : Four Nat := ⟨0, 0, 0, 0⟩
  /-- the event ring; R319; reset none -/
  ring       : Option EventRing := none
  /-- 32 bits event sequence counter; R320; reset 0 -/
  seq        : Nat := 0
  /-- EVT_OVERRUN; Table 16-3; reset 0 -/
  overrun    : Bool := false
  /-- 32 bits EVT_LOST_CNT; Table 16-3; reset 0 -/
  lost       : Nat := 0
  /-- the 10 us interval after an event message is open; R320; reset 0 -/
  irqOpen    : Bool := false
  /-- a tail write inside it waits to be signalled; R320; reset 0 -/
  irqPending : Bool := false
  /-- FW_FALLBACK events not yet posted, for want of a ring: component, slot, version; R324; reset none -/
  fallbackEv : List (Nat × Nat × Nat) := []
  deriving DecidableEq, Repr

/-- `TLM`, `TST` and self-tests (22_test_and_telemetry.md R409 to R420). -/
structure TstState where
  /-- 64 KiB telemetry buffer; Table 22-3; reset 0 -/
  buffer  : List Host.Cell := []
  /-- latched values that are being written to the buffer; R50 step 4; reset none -/
  latched : List Host.Cell := []
  /-- 32 bits SEQ of the buffer; Table 22-3; reset 0 -/
  seq     : Nat := 0
  /-- BIST_FAIL; Table 22-7; reset 0 -/
  sticky  : BitVec 32 := 0
  /-- 32 bits FAIL_CNT; Table 22-7; reset 0 -/
  failCnt : Nat := 0
  /-- status of the last self-test; Table 22-6; reset 0xFFFF -/
  last    : Nat := 0xFFFF
  /-- the intervals that the counters of cycles, time and HBM bytes have counted since system reset, and those since the last core reset, each as the
  number of its free values; R415; reset none -/
  spans   : List Nat := []
  coreSpans : List Nat := []
  /-- BIST_LOGIC, BIST_MEMORY, HBM_PATTERN_TEST running with what they hold: kind, sheet mask, block mask or POOL; R412; reset none -/
  running : Option (Nat × BitVec 32 × Nat) := none
  deriving DecidableEq, Repr

/-! ## Work rings and the buffer pool -/

/-- A work ring (14_rings_and_buffer_pool.md R273 to R280). State 1 ACTIVE, 2 STOPPED, 3 FENCED, 4 DRAINING. -/
structure WRing where
  num       : Nat
  fn        : Nat
  hbm       : Bool
  k         : Nat
  cring     : Nat
  base      : Nat
  state     : Nat
  producer  : Nat
  fetch     : Nat
  completed : Nat
  flushed   : Nat
  destroyer : Option (Nat × Nat)   -- mailbox and order of its WRING_DESTROY
  deriving DecidableEq, Repr

/-- A completion ring (R273, R278). -/
structure CRing where
  num        : Nat
  fn         : Nat
  hbm        : Bool
  k          : Nat
  coalesce   : Nat
  vector     : Nat
  base       : Nat
  tail       : Nat
  producer   : Nat
  consumer   : Nat
  reserved   : Nat
  irqOpen    : Bool
  irqPending : Bool
  deriving DecidableEq, Repr

/-- A fetched descriptor not yet complete (R277): `taken` once its engine row has begun it. -/
structure FDesc where
  id    : Nat
  wring : Nat
  fn    : Nat
  bytes : Bytes
  taken : Bool
  /-- its completion entry, held until the earlier descriptors of its ring have completed (R261) -/
  entry : Option Bytes
  deriving DecidableEq, Repr

/-- A receive channel (R286 to R288). `fifo` holds the cells of each stored packet and whether its IP header carries CE, oldest first. -/
structure Channel where
  /-- CH_CFG in 16 KiB units; Table 14-7; reset 16, 48, 64, 64 -/
  low      : Nat := 16
  high     : Nat := 48
  borrow   : Nat := 64
  guar     : Nat := 64
  /-- stored packets: cells, CE mark; R286, R288; reset none -/
  fifo     : List (Nat × Bool) := []
  /-- watermark signal; R282; reset released -/
  asserted : Bool := false
  /-- 32 bits OVERRUN_CNT, OVERSIZE_CNT; Table 14-7; reset 0 -/
  overrun  : Nat := 0
  oversize : Nat := 0
  deriving DecidableEq, Repr

/-- A ring-frame reassembly share (R290, Table 14-8): stored fragments by name, offset, payload, words of bad parity. -/
structure Share where
  fragments : List (DatumName × Nat × Bytes × Nat) := []
  cells     : Nat := 0
  asserted  : Bool := false
  overrun   : Nat := 0
  oversize  : Nat := 0
  xoffCnt   : Nat := 0
  deriving DecidableEq, Repr

/-- `BUF`, rings and the pool (R273 to R292). -/
structure BufState where
  /-- 6 sticky bits [5:0]; Table 14-7; reset 0 -/
  sticky    : BitVec 32 := 0
  /-- 4 bits RING_SHARE.MIB; Table 14-7; reset 4 -/
  ringShare : Nat := 4
  /-- 32 bits PARITY_CNT; Table 14-7; reset 0 -/
  parity    : Nat := 0
  /-- 32 bits DOORBELL_REJECT_CNT; Table 14-7; reset 0 -/
  doorbell  : Nat := 0
  /-- the 40 receive channels; Table 14-7; reset as Channel -/
  channels  : List Channel := List.replicate 40 {}
  /-- the reassembly shares of ports 0 to 4; Table 14-8; reset empty -/
  shares    : Five Share := ⟨{}, {}, {}, {}, {}⟩
  /-- the work rings that exist; R273; reset none -/
  wrings    : List WRing := []
  /-- the completion rings that exist; R273; reset none -/
  crings    : List CRing := []
  /-- fetched descriptors not complete, in order of fetch; R277; reset none -/
  descs     : List FDesc := []
  /-- number of the next fetched descriptor; the model's own, reset 0 -/
  nextDesc  : Nat := 0
  deriving DecidableEq, Repr

/-! ## The decode session -/

/-- The resident weight set (06_decode_sessions.md R115). -/
structure Resident where
  digest : Bytes
  bytes  : Bytes
  base   : Nat
  /-- ε of its read-only region (R359) -/
  epoch  : Nat
  deriving DecidableEq, Repr

/-- A node of the hatch (R128). -/
structure Node where
  depth  : Nat
  parent : Nat
  token  : Nat
  score  : BitVec 32
  deriving DecidableEq, Repr

/-- A posted output descriptor with what has been written into it (R134), and how many of its tokens R13 has refused a place. -/
structure OutDesc where
  desc     : Nat
  stream   : Bool
  addr     : Nat
  capacity : Nat
  written  : Nat
  firstPos : Nat
  tag      : Nat
  lost     : Nat := 0
  deriving DecidableEq, Repr

/-- An entry of the proof's CHANGES (Table 1-7). -/
structure Change where
  step   : Nat
  stroke : Nat
  kind   : Nat
  member : Nat
  taker  : Nat
  deriving DecidableEq, Repr

/-- A verification step or chunk that runs, waiting for its commit (R128 to R132): `ready` once its nodes are evaluated, at once in a single
module and when the last merged u has come in a ring. -/
structure PendingStep where
  first    : Nat
  hatch    : List Node
  path     : List Nat
  nextRoot : Nat
  stop     : Nat
  kv       : List (Nat × List Bytes)
  logits   : List (List (BitVec 32))
  chunk    : Bool
  ready    : Bool
  /-- a ring's vote has passed (R159), or none is needed -/
  voted    : Bool
  /-- this member's digest as it published it (R158) -/
  digest   : Option (BitVec 64)
  deriving DecidableEq, Repr

/-- The replay of a REPLAY_VERIFY (R31). -/
structure Replay where
  mb        : Nat
  order     : Nat
  outCount  : Nat
  outDigest : Bytes
  proof     : Bytes
  deriving DecidableEq, Repr

/-- The open decode session (R114 to R135). -/
structure Session where
  handle    : Nat
  ring      : Nat
  twin      : Bool
  seedInt   : Bool
  replay    : Bool
  sheets    : BitVec 32
  inputCnt  : Nat
  draftLen  : Nat
  stretch   : Nat
  seed      : Bytes
  sampling  : Bytes
  width     : List Nat
  proofAddr : Nat
  hostField : Bytes
  openBytes : Bytes
  /-- Table 6-3 code; R124 -/
  state     : Nat
  /-- state a parked session came from; R125 -/
  parkedIn  : Nat
  /-- Table 1-5; 0 until it stops -/
  stop      : Nat
  /-- status the last output completion names (R135) -/
  cause     : Status
  /-- module stroke minus session stroke while in motion; R45 -/
  base      : Int
  /-- session stroke while parked or stopped; R45 -/
  frozen    : Nat
  /-- session stroke that follows the last committed step; R25 -/
  resumeAt  : Nat
  /-- session stroke of the invocation of the running step or chunk; R123 -/
  invoked   : Nat
  /-- session stroke in which the running step or chunk commits; Table 6-4 -/
  lastAt    : Nat
  /-- ring data that the running step has read, by name; 07_sequence_ring.md R150 -/
  exch      : List (DatumName × Bytes)
  inputs    : List Nat
  outputs   : List Nat
  steps     : Nat
  chunks    : Nat
  root      : Nat
  kept      : List (BitVec 32)
  draft     : Bytes
  draftDig  : Bytes
  draftBase : Nat
  decodeOk  : Bool
  draftOk   : Bool
  plates    : List Bytes
  pendStep  : Option PendingStep
  outDescs  : List OutDesc
  memberCnt : Nat
  /-- the members at session open, by index (R21, R26); bit 0 of a session without a ring -/
  openMask  : BitVec 32
  index     : Nat
  changes   : List Change
  chgDigest : Bytes
  replayed  : Bool
  finishReq : Bool
  proof     : Bytes
  serial    : Nat
  signer    : Nat
  rp        : Option Replay
  twinRetry : Bool
  opensSeen : Bool
  /-- the last output completion waits for an output descriptor (R134) -/
  owed      : Bool
  /-- the proof waits for the attestation key (R330) -/
  signWait  : Bool
  deriving DecidableEq, Repr

/-! ## Ring and recovery -/

/-- A mirror rebuilt or rebuilding under R169: its run, and the stretches of the run. -/
structure Mirror where
  first  : Nat
  count  : Nat
  stretches : List Nat
  holder : Nat
  done   : Bool
  deriving DecidableEq, Repr

/-- The sequence ring this module is a member of (07_sequence_ring.md, 08_fault_recovery.md). -/
structure Ring where
  /-- 64 bits RING_ID; Table 7-3 -/
  id        : Nat
  count     : Nat
  index     : Nat
  rate      : Nat
  blocks    : Nat
  ids       : List Bytes
  /-- the payload with INDEX 0, whose digest the neighbours compare; R140 step 5 -/
  params    : Bytes
  ports     : List Nat
  /-- Table 7-4: 1 FORMING, 2 UP, 3 REFORMING, 4 BROKEN -/
  state     : Nat
  epoch     : Nat
  alive     : BitVec 32
  /-- job that waits for the links (mailbox, order) while FORMING -/
  former    : Option (Nat × Nat)
  spare     : Bool
  /-- who holds each initial stretch now, by stretch index (R168, R173) -/
  holders   : List Nat
  mirrors   : List Mirror
  suspects  : List (Nat × Nat)
  /-- lost cables, by number; R162 -/
  lostLinks : List Nat
  /-- port and hop count toward each member, as the installed view gives them; R154, R167 -/
  routes    : List (Option (Nat × Nat))
  admitted  : List (Nat × Bytes)
  joining   : Option Nat
  /-- the hand-over to the joining spare is asked for, and its view waits for agreement and a boundary (R173 step 6) -/
  handing   : Bool
  /-- this spare has answered the view that names it (R173 step 4) -/
  answered  : Bool
  /-- view change in progress: proposed mask and frames received -/
  mask      : BitVec 32
  frames    : List ViewFrame
  /-- digests of the last committed step or chunk, by member (R163) -/
  digests   : List (Nat × BitVec 64)
  /-- runs, by first block and block count, that stay unmirrored because no HBM was free (R169) -/
  failedMir : List (Nat × Nat)
  /-- last reported session stroke of each member (R160) -/
  progress  : List (Nat × Nat)
  deriving DecidableEq, Repr

/-! ## Ports -/

/-- A MACsec security association (R232 to R234). -/
structure Sa where
  an     : Nat
  slot   : Nat
  ssci   : Nat
  window : Nat
  salt   : Bytes
  sci    : Nat
  pn     : Nat
  deriving DecidableEq, Repr

/-- A ring handshake in progress on a port (R239, R241): 0 none, 1 first message sent, 2 keys derived and waiting to switch,
3 waiting for the generator, 4 a rekey still to be begun (asked of the neighbour that initiates, or to be retried), 5 as 2 with
the transmit direction switched. -/
structure Handshaking where
  phase    : Nat := 0
  dk       : Bytes := []
  sentInit : Bytes := []
  txKey    : Bytes := []
  rxKey    : Bytes := []
  txId     : Nat := 0
  rxId     : Nat := 0
  /-- the initiator's message that waits for the generator -/
  held     : Option Handshake := none
  deriving DecidableEq, Repr

/-- One port and its `LNK` registers (12_ports_and_links.md R229 to R247). -/
structure Port where
  /-- MODE: 0 disabled, 1 network, 2 ring; Table 12-7; reset 0 -/
  mode      : Nat := 0
  /-- RATE code; Table 12-7; reset 0 -/
  rate      : Nat := 0
  /-- AN setting in force; R245; reset 0 -/
  an        : Bool := false
  /-- UP; Table 12-7; reset 0 -/
  up        : Bool := false
  /-- KEYED; Table 12-7; reset 0 -/
  keyed     : Bool := false
  /-- LANE_LOCK; Table 12-7; reset 0 -/
  lock      : Nat := 0
  /-- DOWN_REASON; Table 12-7; reset 0 -/
  reason    : Nat := 0
  /-- XOFF_OUT; Table 12-7; reset 0 -/
  xoffOut   : Bool := false
  /-- the peer asks for a pause; R238; reset 0 -/
  xoffIn    : Bool := false
  /-- sticky bits [4:1]; Table 12-7; reset 0 -/
  sticky    : BitVec 32 := 0
  /-- OPT_EN_N high (optics off); R242; reset 1 -/
  optOff    : Bool := true
  /-- the link has been up since the setting in force; R242; reset 0 -/
  everUp    : Bool := false
  /-- Table 12-7 counters, 32 bits each; reset 0 -/
  fecCorr   : Nat := 0
  fecUncorr : Nat := 0
  tagFail   : Nat := 0
  retx      : Nat := 0
  dup       : Nat := 0
  epochDrop : Nat := 0
  hopDrop   : Nat := 0
  macDrop   : Nat := 0
  pauseRx   : Nat := 0
  ecnMark   : Nat := 0
  rekeyCnt  : Nat := 0
  /-- transmit and receive SAs; R232; reset none -/
  txSa      : List Sa := []
  rxSa      : List Sa := []
  /-- frames that wait for a transmit SA (R234), as outputs -/
  waiting   : List RoceOut := []
  /-- priorities paused by the peer; R231; reset none -/
  paused    : BitVec 8 := 0
  /-- ring link: LINK_IDs, transmit FRAME_CTR, last accepted counter; R239, R240; reset 0 -/
  txId      : Nat := 0
  rxId      : Nat := 0
  txCtr     : Nat := 0
  rxNext    : Nat := 0
  /-- replay buffer: frames sent and not acknowledged, oldest first, and how often each was resent; R237 -/
  replay    : List RingFrame := []
  resends   : List Nat := []
  nakOut    : Bool := false
  /-- frames that wait for a pause, a rekey or room in the replay buffer; R237, R238, R241 -/
  ringQ     : List RingFrame := []
  /-- the transmit key came by a rekey: its frame 0 is announced by KEY_NEXT; R241 -/
  keyNext   : Bool := false
  /-- the peer's KEY_NEXT delimiter announced a new key; R241 -/
  peerNext  : Bool := false
  hs        : Handshaking := {}
  /-- neighbour identity and parameters check of RING_FORM: 0 pending, 1 good, 2 identity, 3 digest; R140 -/
  formed    : Nat := 0
  deriving DecidableEq, Repr

/-! ## The platen -/

/-- A round (09_platen_aggregation.md R176 to R191). Sums are by element index, 0 when not listed. -/
structure Round where
  handle    : Nat
  id        : Nat
  mode      : Nat
  prg       : Nat
  accSram   : Bool
  vec       : Nat
  slice     : Nat
  clients   : Nat
  cohort    : Nat
  limbElems : Nat
  primes    : List Nat
  /-- 1 OPEN, 2 CLOSING, 3 CLOSED; Table 9-6 -/
  state     : Nat
  acc       : List (Nat × Nat)
  admitted  : List (Nat × Nat)
  poisoned  : List Nat
  /-- command that waits for the slices in flight (mailbox, order), and whether it aborts -/
  waiter    : Option (Nat × Nat)
  aborting  : Bool
  /-- module stroke minus session stroke; R45 -/
  base      : Nat
  deriving DecidableEq, Repr

/-- A slice in the staging share (R182, R289): cells reserved; complete when its last packet has come. -/
structure Staged where
  id       : Nat
  round    : Nat
  conn     : Nat
  bytes    : Bytes
  poison   : Bool
  cells    : Nat
  complete : Bool
  deriving DecidableEq, Repr

/-- `PTN` (R193) and the rounds. -/
structure PtnState where
  /-- 4 sticky bits [3:0]; Table 9-9; reset 0 -/
  sticky      : BitVec 32 := 0
  /-- 8 bits STAGE_MIB; Table 9-9; reset 64 -/
  stageMib    : Nat := 64
  /-- Table 9-9 counters, 32 bits each; reset 0 -/
  admitCnt    : Nat := 0
  dupCnt      : Nat := 0
  staleCnt    : Nat := 0
  formatCnt   : Nat := 0
  stagePoison : Nat := 0
  icvCnt      : Nat := 0
  poisonCnt   : Nat := 0
  correctCnt  : Nat := 0
  withheldCnt : Nat := 0
  /-- open rounds; R179; reset none -/
  rounds      : List Round := []
  /-- slices staged or waiting; R182, R289; reset none -/
  staged      : List Staged := []
  /-- number of the next staged slice; the model's own, reset 0 -/
  nextStaged  : Nat := 0
  deriving DecidableEq, Repr

/-! ## The homomorphic engine -/

/-- A ciphertext or plaintext object in a slot (10_homomorphic_engine.md R201). `comps` by component, limb, index. -/
structure HSlot where
  valid    : Bool
  level    : Nat
  comps    : List (List (List Nat))
  evalForm : Bool
  scale    : Nat
  keyTag   : Nat
  deriving DecidableEq, Repr

/-- A loaded evaluation key (R204, R205): `chunks` by digit, part, prime. -/
structure HKey where
  handle   : Nat
  tag      : Nat
  kind     : Nat
  galois   : Nat
  resident : Bool
  banks    : Nat
  chunks   : List (List (List (List Nat)))
  deriving DecidableEq, Repr

/-- A parameter set (Table 10-1). -/
structure HParams where
  bgv   : Bool
  logN  : Nat
  t     : Nat
  q     : List Nat
  p     : List Nat
  drop  : List Nat
  deriving DecidableEq, Repr

/-- A registered burnish set (11_burnish.md R222, R223). `banks` are its working banks. -/
structure BurnishSet where
  plates   : List Nat
  digest   : Bytes
  outLevel : Nat
  inScale  : Nat
  outScale : Nat
  relin    : Bool
  galois   : List Nat
  banks    : List Nat
  deriving DecidableEq, Repr

/-- A homomorphic context (R195 to R200). -/
structure HCtx where
  handle   : Nat
  twin     : Bool
  sheets   : BitVec 32
  keyBanks : Nat
  slotCnt  : Nat
  params   : HParams
  block    : Bytes
  chain    : Nat
  faulted  : Bool
  slots    : List (Nat × HSlot)
  keys     : List HKey
  burnish  : Option BurnishSet
  base     : Nat
  deriving DecidableEq, Repr

/-- An operation that has begun (R212 to R218): its result once its row has computed it, what it streams and checks, the actions its
plates run for it carry its descriptor), and the plates that it has still to run: when each swaps in, (session stroke, plate). -/
structure HOp where
  desc     : Nat
  ctx      : Nat
  op       : Nat
  out      : Nat
  result   : Option HSlot
  computed : Bool
  keyBytes : Nat
  hits     : Nat
  checks   : Nat
  data     : Bytes
  retried  : Bool
  /-- key bytes that a first run streamed before its twin mismatch (R219) -/
  streamed : Nat
  /-- an action of its plates has read a poisoned word (R217) -/
  poisoned : Bool
  plan     : List (Nat × Nat)
  deriving DecidableEq, Repr

/-- `HEV` (R220, R227). -/
structure HevState where
  /-- 5 sticky bits [4:0]; Table 10-10; reset 0 -/
  sticky     : BitVec 32 := 0
  /-- Table 10-10 and 11-2 counters, 32 bits each (KEY_STREAM 64); reset 0 -/
  opCnt      : Nat := 0
  mismatch   : Nat := 0
  levelCnt   : Nat := 0
  autoFault  : Nat := 0
  autoCheck  : Nat := 0
  keyStream  : Nat := 0
  streamHi   : Nat := 0
  resHit     : Nat := 0
  burnishCnt : Nat := 0
  /-- open contexts; R199; reset none -/
  ctxs       : List HCtx := []
  /-- operations that have begun; R218; reset none -/
  ops        : List HOp := []
  deriving DecidableEq, Repr

/-! ## Remote memory -/

/-- A region (13_remote_memory.md R250). -/
structure Region where
  handle : Nat
  pd     : Nat
  host   : Bool
  addr   : Nat
  len    : Nat
  deriving DecidableEq, Repr

/-- An open window (R251, R252). -/
structure Window where
  index    : Nat
  gen      : Nat
  summing  : Bool
  pd       : Nat
  write    : Bool
  read     : Bool
  region   : Nat
  offset   : Nat
  len      : Nat
  round    : Nat
  /-- write lengths that its round admits; R182 -/
  sizes    : List Nat
  trigger  : Option Nat
  revoking : Bool
  deriving DecidableEq, Repr

/-- A request the module has sent and not completed (R260, R263): PSNs `psn` to `psnEnd`; `got` counts READ data received. -/
structure Outgoing where
  desc    : Nat
  op      : Nat
  psn     : Nat
  psnEnd  : Nat
  bytes   : Nat
  got     : Nat
  deriving DecidableEq, Repr

/-- An incoming message of a connection, from its first packet to its answer (R256 to R259). -/
structure Incoming where
  psn     : Nat
  psnEnd  : Nat
  op      : RoceOp
  opcode  : Nat
  key     : Nat
  va      : Nat
  len     : Nat
  imm     : Nat
  /-- what a READ finds wrong in the memory that it reads; R360 -/
  fails   : List MemFail
  final   : Bool
  /-- the receive descriptor it consumes -/
  recv    : Option Nat
  /-- the trigger counter of the window that accepted it; R252 -/
  trigger : Option Nat
  /-- its slice, when its window is summing -/
  staged  : Option Nat
  /-- bytes received -/
  done    : Nat
  /-- packets received and not yet placed: offset, data, poison -/
  held    : List (Nat × Bytes × List Nat)
  poison  : Bool
  tooLong : Bool
  /-- how it ends, once known; a refused message has it from its first packet -/
  status  : Option Status
  deriving DecidableEq, Repr

/-- A packet for a connection whose context is not cached (R255). -/
inductive Arrival where
  | request (p : RocePacket)
  | ack (psn : Nat) (status : Option Nat)
  | readResponse (psn : Nat) (data : PoolData) (last : Bool)
  | nak (psn : Nat) (kind : NakKind)
  | seqNak (psn : Nat)
  | rnrNak (psn : Nat)
  | cnp
  deriving DecidableEq, Repr

/-- A packet that waits in its receive channel behind a summing write (R289); `inChannel` while it occupies its cells. -/
structure Queued where
  port      : Nat
  qpn       : Nat
  arrival   : Arrival
  inChannel : Bool
  deriving DecidableEq, Repr

/-- A connection (R253 to R266). -/
structure Conn where
  handle     : Nat
  qpn        : Nat
  pd         : Nat
  port       : Fin 5
  cx         : Bool
  relaxed    : Bool
  priority   : Nat
  mtu        : Nat
  ackTo      : Nat
  retryCnt   : Nat
  rnrRetry   : Nat
  minRnr     : Nat
  remoteQpn  : Nat
  sendRing   : Nat
  recvRing   : Nat
  params     : Bytes
  error      : Bool
  sendPsn    : Nat
  expPsn     : Nat
  /-- oldest unacknowledged PSN (R263) -/
  una        : Nat
  outgoing   : List Outgoing
  /-- the message being received (R256) -/
  incoming   : Option Incoming
  /-- messages received and not yet answered, in PSN order (R257, R259) -/
  order      : List Incoming
  recvs      : List Nat
  /-- last 256 message statuses: first PSN, last PSN, status (R258) -/
  history    : List (Nat × Nat × Status)
  retries    : Nat
  rnrs       : Nat
  rnrWait    : Bool
  cur        : Rat
  tgt        : Rat
  alpha      : Rat
  stage      : Nat
  lastCut    : Option Nat
  lastCnp    : Option Nat
  portRate   : Rat
  cached     : Bool
  /-- when the context was last used, for the least recently used one (R255) -/
  used       : Nat
  missQueue  : List Arrival
  /-- a duplicate of a message whose status is no longer kept: PSN of its next packet and the answer (R258) -/
  dupOld     : Option (Nat × Status)
  deriving DecidableEq, Repr

/-- `RDM` (R272) and its objects. -/
structure RdmState where
  /-- 5 sticky bits [4:0]; Table 13-10; reset 0 -/
  sticky     : BitVec 32 := 0
  /-- 8 bits AI_GBPS; Table 13-10; reset 5 -/
  aiGbps     : Nat := 5
  /-- 4 bits G_SHIFT; Table 13-10; reset 4 -/
  gShift     : Nat := 4
  /-- Table 13-10 counters, 32 bits each; reset 0 -/
  accessViol : Nat := 0
  dup        : Nat := 0
  staleDup   : Nat := 0
  ctxMiss    : Nat := 0
  missDrop   : Nat := 0
  retx       : Nat := 0
  timeout    : Nat := 0
  rnrTx      : Nat := 0
  rnrRx      : Nat := 0
  cnpTx      : Nat := 0
  cnpRx      : Nat := 0
  poison     : Nat := 0
  flush      : Nat := 0
  badPkt     : Nat := 0
  /-- protection domains; R250; reset none -/
  pds        : List Nat := []
  /-- regions; R250; reset none -/
  regions    : List Region := []
  /-- windows; R251; reset none -/
  windows    : List Window := []
  /-- window indices never opened begin here; R251 free list; reset 0 -/
  freshIndex : Nat := 0
  /-- indices returned to the tail of the free list; R251; reset none -/
  freed      : List Nat := []
  /-- generation of each index at its last open, 0 before the first; R251; reset 0, A13 -/
  gens       : List (Nat × Nat) := []
  /-- connections; R253; reset none -/
  conns      : List Conn := []
  /-- 65,536 trigger counters of 48 bits, those not 0; R262; reset 0 -/
  triggers   : List (Nat × Nat) := []
  /-- 64 MiB chunks of the spill area; R255; reset 0 -/
  chunks     : Nat := 0
  /-- number of the next use of a context; the model's own, reset 0 -/
  nextUse    : Nat := 0
  /-- packets that wait for staging room at the heads of their receive channels, and those behind them; R289; reset none -/
  waiting    : List Queued := []
  deriving DecidableEq, Repr

/-! ## The machine -/

/-- The state of the module. -/
structure State where
  /-- housekeeping time in us; 21_clocks_power_thermal.md R397, R408; reset 0; advanced by a step on an empty queue, A5 -/
  now     : Nat := 0
  /-- the model's own field: number of the next free value, DESIGN CHOICE 0, A3 -/
  draw    : Nat := 0
  /-- 16 bits IDS.PART_ID fused; 00_scope.md R5, R18; reset 0x9440, A14 -/
  partId  : BitVec 16 := 0x9440
  /-- IDS reads valid from the end of option load; R18; reset 0 -/
  idsOk   : Bool := false
  /-- RST; 20_reset.md R396 -/
  rst     : RstState := {}
  /-- backup domain; R366, R367, R391 -/
  backup  : BackupState := {}
  /-- CLK; R408 -/
  clk     : ClkState := {}
  /-- output pins; R392 -/
  pins    : PinState := {}
  /-- PRS; R51 -/
  prs     : PrsState := {}
  /-- PLA and GRV; R74, R75 -/
  pla     : PlaState := {}
  /-- CVU; R384 -/
  cvu     : CvuState := {}
  /-- ENT; R379 -/
  ent     : EntState := {}
  /-- KST; R346 -/
  kst     : KstState := {}
  /-- lifecycle; R347 -/
  life    : LifeState := {}
  /-- control firmware; R322 to R325; reset slot 0 running at VERSION and digest as the factory left, A10 -/
  ctrlFw  : FwComp := 
    { slot0 := ⟨3, (Config.fwVersion 1).toNat, 0, bvBytes 64 (Config.fwDigest 1)⟩, slot1 := ⟨0, 0, 0, []⟩
      runVer := (Config.fwVersion 1).toNat, runDig := bvBytes 64 (Config.fwDigest 1) }
  /-- security firmware; R322 to R325; reset as control, A10 -/
  secFw   : FwComp :=
    { slot0 := ⟨3, (Config.fwVersion 2).toNat, 0, bvBytes 64 (Config.fwDigest 2)⟩, slot1 := ⟨0, 0, 0, []⟩
      runVer := (Config.fwVersion 2).toNat, runDig := bvBytes 64 (Config.fwDigest 2) }
  /-- MPR; R369 -/
  mpr     : MprState := {}
  /-- device memory; Table 0-5 -/
  mem     : MemState := {}
  /-- HIF; R307 -/
  hif     : HifState := {}
  /-- MBX; R316 -/
  mbx     : MbxState := {}
  /-- TLM and TST; R414, R419 -/
  tst     : TstState := {}
  /-- BUF and rings; R291 -/
  buf     : BufState := {}
  /-- the resident weight set; R115; reset none -/
  weights : Option Resident := none
  /-- the decode session; R114; reset none -/
  dec     : Option Session := none
  /-- the ring; R139; reset none -/
  ring    : Option Ring := none
  /-- ports 0 to 4; R247; reset disabled -/
  ports   : Five Port := ⟨{}, {}, {}, {}, {}⟩
  /-- PTN; R193 -/
  ptn     : PtnState := {}
  /-- HEV; R220 -/
  hev     : HevState := {}
  /-- RDM; R272 -/
  rdm     : RdmState := {}
  /-- what the module has sent and answered, oldest first; reset none; the model's record of its interface, A15 -/
  out     : List Output := []
  /-- the commands that are waiting, first in, first out; reset none -/
  pending : List Instr := []
  deriving DecidableEq, Repr

/-- The machine right after reset: a power-on reset whose RESET_N low has just ended, option load running (R389, R393). -/
def State.reset : State := {}

/-- No fault of the block stops it: every error of the spec is a status, a sticky bit, an event or a counter, and the block
goes on. The one constructor is raised by nobody; stopping would be safe. -/
inductive Fault where
  /-- nobody raises it; safe -/
  | none
  deriving DecidableEq, Repr

/-- Why a command has no meaning. -/
inductive Refusal where
  /-- the dispatcher, for a command that has no meaning yet; safe -/
  | notModelled (mnemonic : String)
  deriving DecidableEq, Repr

end Sys2Proof.Machine
end

