-- ==== Sys2Proof/Machine/Flags.lean ====
section
/-! DEFINITION. Codes the module reports: status codes (Table 16-5), lifecycle codes (Table 18-1), ring-control codes, and
the status, sticky and pin levels that are functions of the rest of the state. -/

namespace Sys2Proof.Machine

/-- Table 16-5 (R318). -/
def statusCode : Status → Nat
  | .ok => 0x0000
  | .busy => 0x0001
  | .badArg => 0x0002
  | .notPermitted => 0x0003
  | .notIdle => 0x0004
  | .keyMismatch => 0x0005
  | .levelExhausted => 0x0006
  | .cohortTooSmall => 0x0007
  | .digestDisagree => 0x0008
  | .entropyNotReady => 0x0009
  | .tamperLocked => 0x000A
  | .staleKey => 0x000B
  | .accessViolation => 0x000C
  | .retryExceeded => 0x000D
  | .dataPoisoned => 0x000E
  | .duplicate => 0x000F
  | .overrun => 0x0010
  | .plateRejected => 0x0011
  | .signatureInvalid => 0x0012
  | .linkDown => 0x0013
  | .engineFenced => 0x0014
  | .strokeGuard => 0x0100
  | .swapLate => 0x0101
  | .shapeUnsupported => 0x0102
  | .weightAuthFail => 0x0103
  | .weightsAbsent => 0x0104
  | .neighbourMismatch => 0x0105
  | .stretchLost => 0x0106
  | .quorumLost => 0x0107
  | .icvMismatch => 0x0108
  | .automorphFault => 0x0109
  | .operandMismatch => 0x010A
  | .slotInvalid => 0x010B
  | .wrFlushed => 0x010C
  | .remoteError => 0x010D
  | .unknownOpcode => 0x010E
  | .rollbackRefused => 0x010F
  | .bistMismatch => 0x0110
  | .engineFault => 0x0111

/-- Table 18-1 codes of the stored states (R347). -/
def lifecycleCode : Lifecycle → Nat
  | .manufacture => 1
  | .provisioned => 2
  | .ownedOpen => 3
  | .ownedConfidential => 4
  | .retired => 5

/-- The reported state: 6 while the overlay is set (R348). -/
def reportedState (s : State) : Nat := if s.life.overlay then 6 else lifecycleCode s.life.stored

/-- The lifecycle state is OWNED_OPEN (no overlay). -/
def ownedOpen (s : State) : Bool := !s.life.overlay && s.life.stored == .ownedOpen

/-- The lifecycle state is OWNED_CONFIDENTIAL (no overlay). -/
def ownedConfidential (s : State) : Bool := !s.life.overlay && s.life.stored == .ownedConfidential

/-- R356: OWNED_CONFIDENTIAL, or the overlay over it. -/
def confidential (s : State) : Bool := s.life.stored == .ownedConfidential

/-- The debug access instruction is offered (R418, Table 18-1). -/
def debugLive (s : State) : Bool :=
  !s.life.overlay && (s.life.stored == .ownedOpen || s.life.stored == .manufacture) && s.life.removal.isNone

/-- `PRS.STATUS.GUARD` (R40). -/
def guardSet (s : State) : Bool := decide (2 ^ 47 ≤ s.prs.stroke)

/-- `PRS.STATUS.EXHAUSTED` (R40). -/
def exhausted (s : State) : Bool := s.prs.stroke == 0xFFFFFFFFFFFF

/-- A load action of the plate loader runs (R66). -/
def loading (s : State) : Bool := s.pla.swaps.any (fun x => x.loading && !x.loaded)

/-- The domains that participate in the press (R36): units of instantiated actions, and 541 while a load action runs. -/
def participants (s : State) : List Nat :=
  let units := s.prs.actions.map (·.unit)
  let all := if loading s then 541 :: units else units
  (all.foldl (fun l u => insertNat u l) []).filter (fun u => decide (u < 551) && u != 540 && u != 547)

/-- `PRS.STATUS.IDLE` (R38). -/
def pressIdle (s : State) : Bool := (participants s).isEmpty

/-- ALERT_N is driven low (R309, R365, R389, R402). -/
def alertLow (s : State) : Bool :=
  s.pins.alertWdog || s.pins.alertTamper || s.pins.alertBoot || s.pins.alertFast

/-- THERM_N is driven low (R403, R404). -/
def thermLow (s : State) : Bool := s.clk.thermHot || s.clk.diffAlarm

/-- RESET_N is low: the module or the carrier holds it (R387). -/
def resetLow (s : State) : Bool := s.rst.carrierLow || s.rst.moduleLow

/-- `MBX.CP_STATUS` as a word (Table 16-3). -/
def cpStatus (s : State) : Nat :=
  b2n s.mbx.fwReady + 2 * b2n s.mbx.wdog + 4 * b2n s.mbx.recovery + 8 * b2n s.mbx.fallback

/-- Table 18-4: the lifecycle state code accepts the opcode (R352). -/
def stateAccepts (code op : Nat) : Bool :=
  let owned := code == 3 || code == 4
  let fam := op / 256
  if [0x0102, 0x0110, 0x0111, 0x0201, 0x0C03].contains op then true
  else if [0x0101, 0x0306, 0x0307].contains op then code == 2 || owned || code == 6
  else if op = 0x0202 then code == 2
  else if op = 0x0203 || op = 0x0204 then owned
  else if op = 0x0205 then code == 2 || owned || code == 6
  else if op = 0x0206 then code == 6
  else if fam = 0x03 then owned
  else if decide (0x04 ≤ fam ∧ fam ≤ 0x0A) then owned
  else if [0x0B01, 0x0B02, 0x0B03].contains op then code == 2 || owned
  else if op = 0x0B04 || op = 0x0B05 then code == 2 || owned || code == 6
  else if op = 0x0C01 || op = 0x0C04 then code == 2 || owned
  else if op = 0x0C02 then code == 2 || code == 3
  else false

/-- The mailbox's control processors execute commands: ready, or in recovery (R308, R326), none halted (R418). -/
def firmwareRuns (s : State) : Bool :=
  (s.mbx.fwReady || s.mbx.recovery) && (list4 s.mbx.halted).all (!·)

/-- A system-level or power-on reset is in progress: the line is low or option load has not ended. -/
def systemDown (s : State) : Bool := (s.rst.inReset || s.rst.optLoad) && s.rst.level != .core

/-- The host's requests reach the module: it has power, and its PCI Express link is not held down by a reset (R388, R395). (DEDUCED: log entry 18) -/
def hostReach (s : State) : Bool := s.rst.railsOn && !systemDown s

/-- The security subsystem runs: a core reset keeps it (Table 20-2); a stopped boot does not start it (R366, R389). -/
def securityUp (s : State) : Bool := s.rst.railsOn && !systemDown s && !s.rst.bootStopped

/-- Identity ready: slot 0 holds the expanded identity key (R329). -/
def identityReady (s : State) : Bool := s.kst.slots.any (·.slot == 0)

/-- Attestation key ready: slot 1 holds one (R330). -/
def attestReady (s : State) : Bool := s.kst.slots.any (·.slot == 1)

/-- The TDI state codes (Table 15-7). -/
def tdiCode : Tdi → Nat
  | .unlocked => 0
  | .locked => 1
  | .run => 2
  | .error => 3

end Sys2Proof.Machine
end

