-- ==== Sys2Proof/Machine/Operands.lean ====
section
/-! DEFINITION. Operand forms: host or device addresses (R298), datum names (Table 2-1), sheet masks, gravers and banks
(R9, R54, R71), packed event arguments (R321) and the checks' first failure. -/

namespace Sys2Proof.Machine

/-- A "host or device address" field (R298). -/
inductive Addr where
  | host (a : Nat)
  | dev (a : Nat)
  | bad
  deriving DecidableEq, Repr

/-- R298: bit 63 clear, a host address; set, bits [47:0] are a device address and bits [62:48] must be 0. -/
def decodeAddr (v : Nat) : Addr :=
  if bit v 63 then (if bits v 62 48 = 0 then .dev (v % 2 ^ 48) else .bad) else .host v

/-- The address breaks R298. -/
def badAddr (v : Nat) : Bool := decodeAddr v == .bad

/-- The 96-bit name of a datum, Table 2-1 (R42). -/
def nameBits (n : DatumName) : Nat :=
  n.slot + n.epoch * 2 ^ 24 + n.unit * 2 ^ 32 + n.member * 2 ^ 43 + n.stroke * 2 ^ 48

/-- Fields packed from bit 0 upward, (value, width) (R321). -/
def pack : List (Nat × Nat) → Nat
  | [] => 0
  | (v, w) :: l => v % 2 ^ w + 2 ^ w * pack l

/-- The status of the first check that fails. -/
def firstFail : List (Bool × Status) → Option Status
  | [] => none
  | (fails, st) :: l => if fails then some st else firstFail l

/-! ## The fabric -/

/-- The sheets of a mask, in ascending order. -/
def sheetsOf (m : BitVec 32) : List Nat := bitList 32 m

/-- The global graver numbers of a sheet (R9: sheet × 16 + position; sheet number die × 8 + sheet). -/
def graversOf (sheet : Nat) : List Nat := (List.range 16).map (fun p => sheet * 16 + p)

/-- The sheet of a graver. -/
def sheetOf (g : Nat) : Nat := g / 16

/-- The die of a sheet. -/
def dieOf (sheet : Nat) : Nat := sheet / 8

/-- All sheets of the mask are on one die. -/
def singleDie (m : BitVec 32) : Bool :=
  match sheetsOf m with
  | [] => true
  | x :: xs => xs.all (fun y => dieOf y == dieOf x)

/-- The twin of every sheet of a mask: sheet i and i XOR 16 (R71). -/
def twinMask (m : BitVec 32) : BitVec 32 := m.rotateLeft 16

/-- The primary half: sheets of Q0 and Q1 (R71). -/
def primaryMask : BitVec 32 := 0x0000FFFF

/-- Start of graver SRAM (Table 0-5). -/
def sramBase : Nat := 0x010000000000

/-- SRAM bytes of one graver (R9). -/
def graverBytes : Nat := 0x600000

/-- Bytes of one SRAM bank (R54). -/
def bankBytes : Nat := 0x60000

/-- Start of the buffer pool (Table 0-5). -/
def poolBase : Nat := 0x020000000000

/-- Bytes of the buffer pool (R286). -/
def poolBytes : Nat := 0x10000000

/-- The banks (graver × 16 + bank) of the sheets of a mask, in ascending order. -/
def banksOf (m : BitVec 32) : List Nat :=
  (sheetsOf m).flatMap (fun sh => (List.range 256).map (fun b => sh * 256 + b))

/-- Whole banks that `n` bytes need (R69). -/
def bankCount (n : Nat) : Nat := (n + (bankBytes - 1)) / bankBytes

end Sys2Proof.Machine
end

