-- ==== Sys2Proof/Machine/Ops.lean ====
section
/-! DEFINITION. The named operations every family uses: free values and random bytes, the module's outputs, events,
mailbox completions, completion entries, and access to device memory with its protection metadata. -/

namespace Sys2Proof.Machine

/-- What a command answers. -/
abbrev Out := Host.Outcome State Fault Refusal

/-! ## Updates of one block -/

def modRst (f : RstState → RstState) (s : State) : State := { s with rst := f s.rst }
def modClk (f : ClkState → ClkState) (s : State) : State := { s with clk := f s.clk }
def modPins (f : PinState → PinState) (s : State) : State := { s with pins := f s.pins }
def modPrs (f : PrsState → PrsState) (s : State) : State := { s with prs := f s.prs }
def modPla (f : PlaState → PlaState) (s : State) : State := { s with pla := f s.pla }
def modCvu (f : CvuState → CvuState) (s : State) : State := { s with cvu := f s.cvu }
def modEnt (f : EntState → EntState) (s : State) : State := { s with ent := f s.ent }
def modKst (f : KstState → KstState) (s : State) : State := { s with kst := f s.kst }
def modLife (f : LifeState → LifeState) (s : State) : State := { s with life := f s.life }
def modMpr (f : MprState → MprState) (s : State) : State := { s with mpr := f s.mpr }
def modMem (f : MemState → MemState) (s : State) : State := { s with mem := f s.mem }
def modHif (f : HifState → HifState) (s : State) : State := { s with hif := f s.hif }
def modMbx (f : MbxState → MbxState) (s : State) : State := { s with mbx := f s.mbx }
def modTst (f : TstState → TstState) (s : State) : State := { s with tst := f s.tst }
def modBuf (f : BufState → BufState) (s : State) : State := { s with buf := f s.buf }
def modPtn (f : PtnState → PtnState) (s : State) : State := { s with ptn := f s.ptn }
def modHev (f : HevState → HevState) (s : State) : State := { s with hev := f s.hev }
def modRdm (f : RdmState → RdmState) (s : State) : State := { s with rdm := f s.rdm }
def modDec (f : Session → Session) (s : State) : State := { s with dec := s.dec.map f }
def modRing (f : Ring → Ring) (s : State) : State := { s with ring := s.ring.map f }
def modPort (p : Nat) (f : Port → Port) (s : State) : State := { s with ports := mod5 s.ports p f }
def modFn (fn : Nat) (f : FnState → FnState) (s : State) : State :=
  { s with hif := { s.hif with fns := mod5 s.hif.fns fn f } }
def modBox (mb : Nat) (f : Mailbox → Mailbox) (s : State) : State :=
  { s with mbx := { s.mbx with boxes := mod4 s.mbx.boxes mb f } }

/-! ## Free values (notes/assumptions 3) -/

/-- The next free number. -/
def drawNat (s : State) : Nat × State := (Config.freeNat s.draw, { s with draw := s.draw + 1 })

/-- The next `n` bytes that nothing fixes. -/
def drawBytes (n : Nat) (s : State) : Bytes × State :=
  ((List.range n).map (Config.randomByte s.draw), { s with draw := s.draw + 1 })

/-- A handle: the module's own choice when it is nonzero, below 2^32 and unused, else the least unused one. -/
def freshHandle (used : List Nat) (s : State) : Nat × State :=
  let p := Config.freeNat s.draw % 2 ^ 32
  let h := if p != 0 && !used.contains p then p
    else ((List.range (used.length + 1)).map (· + 1)).find? (fun x => !used.contains x) |>.getD 1
  (h, { s with draw := s.draw + 1 })

/-! ## Outputs -/

/-- Send or answer. -/
def emit (o : Output) (s : State) : State := { s with out := s.out ++ [o] }

/-- A posted write cut at the max payload size of its function, at multiples of it (Table 15-1). (PRESUMED: log entry 11) -/
def cutWrite (unit fn : Nat) : Nat → Nat → Bytes → List Output
  | 0, a, b => [.hostWrite fn a b]
  | fuel + 1, a, b =>
    let n := unit - a % unit
    if b.length ≤ n then [.hostWrite fn a b] else .hostWrite fn a (b.take n) :: cutWrite unit fn fuel (a + n) (b.drop n)

/-- The requests that an output makes: a write of host memory is cut; each carries the attributes that device control allows, a message none of
the orderings (Table 15-1). (PRESUMED / DESIGN CHOICE: log entry 11) -/
def tlps (s : State) (o : Output) : List Output :=
  let attrs := fun (fn : Nat) (order : Bool) (o : Output) =>
    let c := (get5 s.hif.fns fn).cfg
    let r := order && c.relaxed
    let i := order && c.idOrder
    if r || i || c.ecrc then Output.tlp r i c.ecrc o else o
  match o with
  | .hostWrite fn a b => (cutWrite (min 512 (max 128 (get5 s.hif.fns fn).cfg.maxPayload)) fn b.length a b).map (attrs fn true)
  | .hostRead fn _ _ _ => [attrs fn true o]
  | .msix fn _ => [attrs fn false o]
  | _ => [o]

/-- How an output of the module goes out: in RUN with T = 1 on the selective stream (Table 15-7). -/
def onBus (s : State) (o : Output) : List Output := (tlps s o).map (fun o => if s.hif.tdi == .run then .onStream o else o)

/-- An output of the module goes out on the link. -/
def send (o : Output) (s : State) : State := { s with out := s.out ++ onBus s o }

/-- A function may issue requests: Bus Master Enable is 1 and it is not in D3hot (R300). -/
def fnReady (s : State) (fn : Nat) : Bool := (get5 s.hif.fns fn).bme && !(get5 s.hif.fns fn).d3hot

/-- A posted write or MSI-X message of a function: sent, or held until the function may issue requests (R300). -/
def post (fn : Nat) (o : Output) (s : State) : State :=
  if fnReady s fn then send o s else { s with hif := { s.hif with held := s.hif.held ++ [(fn, o)] } }

/-- The function is fenced (R302). -/
def fenced (s : State) (fn : Nat) : Bool := (get5 s.hif.fns fn).fenced

/-- A data write of a function to host memory; a fenced function makes none (R302). -/
def postData (fn a : Nat) (b : Bytes) (s : State) : State := if fenced s fn then s else post fn (.hostWrite fn a b) s

/-- The function is quiesced (R301). -/
def quiesced (s : State) (fn : Nat) : Bool := (get5 s.hif.fns fn).quiesced

/-! ## Device memory (Table 0-5, R12, R13, R299) -/

/-- Installed HBM in bytes (Table 0-1). -/
def hbmSize (s : State) : Nat := if s.partId = 0x9440 then 0xC000000000 else 0x9000000000

/-- The compute die whose quarter holds an HBM address (R58, Table 3-3). -/
def hbmDie (s : State) (a : Nat) : Nat := a / (hbmSize s / 4)

/-- The stack that holds an HBM address: 256-byte granules of a quarter rotate over its die's three stacks (R58). -/
def hbmStack (s : State) (a : Nat) : Nat := hbmDie s a * 3 + a % (hbmSize s / 4) / 256 % 3

/-- The plate store's size in HBM, 1 GiB (R63). -/
def storeBytes : Nat := 0x40000000

/-- Start of the plate store, the top 1 GiB of HBM (R63). -/
def storeBase (s : State) : Nat := hbmSize s - storeBytes

/-- [a, a+n) lies in installed HBM. -/
def inHbm (s : State) (a n : Nat) : Bool := decide (a + n ≤ hbmSize s)

/-- [a, a+n) lies in graver SRAM. -/
def inSram (a n : Nat) : Bool := decide (sramBase ≤ a ∧ a + n ≤ sramBase + 512 * graverBytes)

/-- [a, a+n) lies in the buffer pool. -/
def inPool (a n : Nat) : Bool := decide (poolBase ≤ a ∧ a + n ≤ poolBase + poolBytes)

/-- The sheets granted to works: `PLA.SHEET_BUSY` (R68). -/
def sheetBusy (s : State) : BitVec 32 := s.pla.grants.foldl (fun m g => m ||| g.mask) 0

/-- The sheets granted to twin works: `PLA.SHEET_TWIN`. -/
def sheetTwin (s : State) : BitVec 32 := s.pla.grants.foldl (fun m g => if g.twin then m ||| g.mask else m) 0

/-- The sheets a self-test holds (R412). -/
def testSheets (s : State) : BitVec 32 :=
  match s.tst.running with
  | some (_, m, _) => m
  | none => 0

/-- Some byte of [a, a+n) is a location the module holds for itself (R299). -/
def heldRange (s : State) (a n : Nat) : Bool :=
  if inHbm s a n then
    overlaps a n (storeBase s) storeBytes || s.mem.held.any (fun h => overlaps a n h.base h.len)
  else if inSram a n then
    (sheetsOf (sheetBusy s)).any (fun sh => overlaps a n (sramBase + sh * 16 * graverBytes) (16 * graverBytes))
  else true

/-- A device access to [a, a+n) is allowed under R12 and R13. -/
def devOk (s : State) (a n : Nat) : Bool := (inHbm s a n || inSram a n) && !heldRange s a n

/-- [a, a+n) overlaps a device-memory ring (R274: later structures lie outside). -/
def onRing (s : State) (a n : Nat) : Bool :=
  s.buf.wrings.any (fun w => w.hbm && overlaps a n w.base (64 * 2 ^ w.k)) ||
  s.buf.crings.any (fun c => c.hbm && (overlaps a n c.base (32 * 2 ^ c.k))) ||
  (match s.mbx.ring with
   | some r => r.hbm && overlaps a n r.base (32 * 2 ^ r.k)
   | none => false)

/-- [a, a+n) overlaps a registered device region (R250). -/
def onRegion (s : State) (a n : Nat) : Bool := s.rdm.regions.any (fun r => !r.host && overlaps a n r.addr r.len)

/-- A place of `n` bytes of HBM, 4 KiB aligned, free of held locations, rings and registered regions: the module's own choice when
it fits, else the lowest end of a held range, ring or region that fits (notes/assumptions 3). -/
def placeHbm (n : Nat) (s : State) : Option Nat × State :=
  let ok := fun a => inHbm s a n && !heldRange s a n && !onRing s a n && !onRegion s a n
  let p := roundUp 4096 (Config.freeNat s.draw % 2 ^ 48)
  let ends := s.mem.held.map (fun h => roundUp 4096 (h.base + h.len)) ++
    s.rdm.regions.map (fun r => roundUp 4096 (r.addr + r.len)) ++
    s.buf.wrings.map (fun w => roundUp 4096 (w.base + 64 * 2 ^ w.k)) ++
    s.buf.crings.map (fun c => roundUp 4096 (c.base + 32 * 2 ^ c.k)) ++
    (match s.mbx.ring with
     | some r => [roundUp 4096 (r.base + 32 * 2 ^ r.k)]
     | none => [])
  let s' := { s with draw := s.draw + 1 }
  if ok p then (some p, s') else ((0 :: ends).find? ok, s')

/-- The counter blocks of `n` pages from `p` on that have not been written since the last key (R358): MAJOR 0 and every MINOR 0. -/
def freshPages (s : State) (p n : Nat) : PageMeta := ⟨p, n, 0, s.mpr.activeB, false, 0, 0, []⟩

/-- The counter block of a page (R358). -/
def pageOf (s : State) (p : Nat) : PageMeta :=
  let m := (s.mpr.pages.find? (fun m => decide (m.page ≤ p ∧ p < m.page + m.count))).getD (freshPages s p 1)
  { m with page := p, count := 1 }

/-- The runs of alike counter blocks with a boundary at page `p`. -/
def cutRuns (p : Nat) : List PageMeta → List PageMeta
  | [] => []
  | m :: ms =>
    if m.page < p ∧ p < m.page + m.count then
      { m with count := p - m.page } :: { m with page := p, count := m.page + m.count - p } :: ms
    else m :: cutRuns p ms

/-- Runs that cover the pages from `lo` to before `hi`: those listed, and fresh ones between them. -/
def fillRuns (s : State) : Nat → Nat → List PageMeta → List PageMeta
  | lo, hi, [] => if lo < hi then [freshPages s lo (hi - lo)] else []
  | lo, hi, m :: ms => (if lo < m.page then [freshPages s lo (m.page - lo)] else []) ++ m :: fillRuns s (m.page + m.count) hi ms

/-- The counter blocks of `n` pages from `p` on, in runs. -/
def runsOf (s : State) (p n : Nat) : List PageMeta :=
  fillRuns s p (p + n) ((cutRuns (p + n) (cutRuns p s.mpr.pages)).filter (fun m => decide (p ≤ m.page ∧ m.page + m.count ≤ p + n)))

/-- Change the counter blocks of `n` pages from `p` on. -/
def mapPages (p n : Nat) (f : PageMeta → PageMeta) (s : State) : State :=
  if n = 0 then s
  else
    let l := cutRuns (p + n) (cutRuns p s.mpr.pages)
    let new := l.filter (fun m => decide (m.page + m.count ≤ p)) ++ (runsOf s p n).map f ++ l.filter (fun m => decide (p + n ≤ m.page))
    modMpr (fun r => { r with pages := new }) s

/-- MINOR of a line of a page. -/
def lineMinor (m : PageMeta) (l : Nat) : Nat := if mapGet m.minors l = 0 then m.common else mapGet m.minors l

/-- One write to line `l` of a page counts in it (R361): MINOR 255 rolls into MAJOR, and the page is re-encrypted. The number counts the rolls. -/
def writeLine (x : PageMeta × Nat) (l : Nat) : PageMeta × Nat :=
  if lineMinor x.1 l = 255 then ({ x.1 with major := x.1.major + 1, common := 0, minors := [(l, 1)] }, x.2 + 1)
  else ({ x.1 with minors := mapSet x.1.minors l (lineMinor x.1 l + 1) }, x.2)

/-- A page under the other key slot moves to the active one and restarts its counters (R361, R363). -/
def toSlot (b : Bool) (m : PageMeta) : PageMeta := if m.slotB == b then m else { m with slotB := b, major := 0, common := 0, minors := [] }

/-- A write finds MINOR at 255 and MAJOR at its last value, for one of the lines `lo` to `hi` of a page (R361). -/
def pageStuck (b : Bool) (lo hi : Nat) (m : PageMeta) : Bool :=
  m.slotB == b && m.major == 2 ^ 47 - 1 && (List.range (hi + 1 - lo)).any (fun i => lineMinor m (lo + i) == 255)

/-- The lines `lo` to `hi` of a page are written, each once (R361): the page, and how often it has been re-encrypted. What the page's last MAJOR
forbids is not counted (R361). -/
def writePage (b : Bool) (lo hi : Nat) (m : PageMeta) : PageMeta × Nat :=
  if pageStuck b lo hi m then (m, 0)
  else
    let m := toSlot b m
    if lo = 0 && hi = 63 && m.minors.isEmpty then
      (if m.common = 255 then ({ m with major := m.major + 1, common := 1 }, 1) else ({ m with common := m.common + 1 }, 0))
    else (List.range (hi + 1 - lo)).foldl (fun x i => writeLine x (lo + i)) (m, 0)

/-- `n` tree walks (R358): what of them misses the controllers' caches is a free value (notes/assumptions 3). -/
def countWalks (n : Nat) (s : State) : State :=
  modMpr (fun r => { r with walks := r.walks + n, treeMiss := satAdd 32 r.treeMiss (Config.cacheMisses r.walks n) }) s

/-- The lines `lo` to `hi` of each of `n` pages from `p` on are written, with the counts of R361 and R369: pages re-encrypted, MAJOR reaching 2^46,
a tree walk for each page. (DESIGN CHOICE: log entry 75) -/
def writePages (p n lo hi : Nat) (s : State) : State :=
  if n = 0 then s
  else
    let b := s.mpr.activeB
    let old := runsOf s p n
    let rolls := sumNat (old.map (fun m => m.count * (writePage b lo hi m).2))
    let warn := old.any (fun m => decide (m.major < 2 ^ 46 ∧ 2 ^ 46 ≤ (writePage b lo hi m).1.major))
    countWalks n (modMpr (fun r => { r with reencrypt := satAdd 32 r.reencrypt rolls, sticky := if warn then setBit r.sticky 3 else r.sticky })
      (mapPages p n (fun m => (writePage b lo hi m).1) s))

/-- Every line of [a, a+n) is written once, in HBM (R361): the lines of its first page, those of the whole pages after it, those of its last. -/
def writeLines (a n : Nat) (s : State) : State :=
  if n = 0 then s
  else
    let p := a / 4096
    let q := (a + n - 1) / 4096
    let lo := a / 64 % 64
    let hi := (a + n - 1) / 64 % 64
    if p = q then writePages p 1 lo hi s
    else writePages q 1 0 hi (writePages (p + 1) (q - p - 1) 0 63 (writePages p 1 lo 63 s))

/-- The pages of [a, a+n) become a read-only region of epoch `e` under the active key, or stop being one (R359). -/
def setRegion (a n : Nat) (e : Option Nat) (s : State) : State :=
  mapPages (a / 4096) ((n + 4095) / 4096) (fun m => { toSlot s.mpr.activeB m with readOnly := e.isSome, epoch := e.getD 0 }) s

/-- A write to line `l` finds MINOR 255 and MAJOR at its last value (R361). -/
def lineStuck (s : State) (l : Nat) : Bool := pageStuck s.mpr.activeB (l % 64) (l % 64) (pageOf s (l / 64))

/-- The module fills [a, a+n) of HBM with zeros: a wipe, or a fresh allocation (R110, R115, R124, R179, R190, R200). Its lines lose their
poison marks (R360). (DESIGN CHOICE: log entry 75) -/
def wipeHbm (a n : Nat) (s : State) : State :=
  modMem (fun m => { m with cells := cellWipe m.cells a n, poison := m.poison.filter (fun l => !overlaps a n (l * 64) 64) }) (writeLines a n s)

/-- Hold a range, zeroed. -/
def hold (h : Held) (s : State) : State := modMem (fun m => { m with held := m.held ++ [h] }) (wipeHbm h.base h.len s)

/-- Release every range of the owners for which `p` holds, and wipe it. -/
def release (p : Owner → Bool) (s : State) : State :=
  modMem (fun m => { m with held := m.held.filter (fun h => !p h.owner) })
    ((s.mem.held.filter (fun h => p h.owner)).foldl (fun t h => wipeHbm h.base h.len t) s)

/-- HBM is readable: a key exists and the zero fill is done (R353). (DEDUCED: log entry 73) -/
def hbmReadable (s : State) : Bool := s.mpr.filled

/-- HBM lines of [a, a+n), by line index. -/
def linesOf (a n : Nat) : List Nat :=
  if n = 0 then [] else (List.range ((a + n - 1) / 64 - a / 64 + 1)).map (· + a / 64)

/-- 64-bit words of [a, a+n), by word index. -/
def wordsOf (a n : Nat) : List Nat :=
  if n = 0 then [] else (List.range ((a + n - 1) / 8 - a / 8 + 1)).map (· + a / 8)

/-- Some line or word of [a, a+n) is poisoned, of bad parity, or (in HBM) unreadable (R353, R360, R54). (DEDUCED: log entry 73) -/
def poisonedAt (s : State) (a n : Nat) : Bool :=
  if inHbm s a n then
    (decide (0 < n) && !hbmReadable s) || s.mem.poison.any (fun l => overlaps a n (l * 64) 64)
  else s.mem.parity.any (fun w => overlaps a n (w * 8) 8)

/-- The bytes of [a, a+n) and whether they carry a poison tag. (DEDUCED: log entry 73) -/
def memRead (s : State) (a n : Nat) : Bytes × Bool := (cellRead s.mem.cells a n, poisonedAt s a n)

/-- Count the SRAM words of [a, a+n) that fail parity on a read, per graver (R54). -/
def countParity (a n : Nat) (s : State) : State :=
  if inSram a n then
    (s.mem.parity.filter (fun w => overlaps a n (w * 8) 8)).foldl
      (fun st w => let g := (w * 8 - sramBase) / graverBytes
        modPla (fun p => { p with parityCnt := mapSet p.parityCnt g (sat16 (mapGet p.parityCnt g)),
                                  parityAll := mapSet p.parityAll g (satAdd 64 (mapGet p.parityAll g) 1) }) st) s
  else s

/-- The addresses of [a, a+n) that `f` picks from what fails, as indices of units of `k` bytes. -/
def unitsHit (k : Nat) (f : MemFail → Option Nat) (bad : List MemFail) (a n : Nat) : List Nat :=
  ((bad.filterMap f).filter (fun x => decide (a ≤ x ∧ x < a + n))).foldl (fun l x => insertNat (x / k) l) []

/-- A parity or MAC failure. -/
def checkFail : MemFail → Option Nat
  | .check a => some a
  | _ => none

/-- A counter block or node fails once. -/
def treeOnce : MemFail → Option Nat
  | .treeOnce a => some a
  | _ => none

/-- A counter block or node fails twice. -/
def treeTwice : MemFail → Option Nat
  | .treeTwice a => some a
  | _ => none

/-- What fails on a read of [a, a+n) is delivered with a poison tag: a line whose MAC fails, one whose tree fails twice, an SRAM word of bad parity. -/
def failsAt (bad : List MemFail) (a n : Nat) : Bool := !(unitsHit 1 checkFail bad a n).isEmpty || !(unitsHit 1 treeTwice bad a n).isEmpty

/-- What the physical memory fails on a read of [a, a+n): a graver SRAM word holds bad parity from now on (R54); in HBM the failures of line MACs, blocks
and nodes are counted, and a second failure of a block or node puts the memory-integrity source in alarm, which TAMPER_ALARM answers (R360, R365). A
read-only page needs no tree walk (R359). (DESIGN CHOICE: log entry 75) -/
def failReads (bad : List MemFail) (a n : Nat) (s : State) : State :=
  if inHbm s a n then
    let walked := fun (p : Nat) => !(pageOf s p).readOnly
    let ls := unitsHit 64 checkFail bad a n
    let one := (unitsHit 4096 treeOnce bad a n).filter walked
    let two := (unitsHit 4096 treeTwice bad a n).filter walked
    let s := countWalks (if n = 0 then 0 else (((List.range ((a + n - 1) / 4096 + 1 - a / 4096)).map (· + a / 4096)).filter walked).length) s
    let s := modLife (fun l => if two.isEmpty then l else { l with inAlarm := insertNat 6 l.inAlarm }) s
    modMpr (fun m => { m with
      macFail := satAdd 32 m.macFail ls.length
      treeFail := satAdd 32 m.treeFail (one.length + 2 * two.length)
      sticky := (fun v => if one.isEmpty && two.isEmpty then v else setBit v 2) (if ls.isEmpty then m.sticky else setBit m.sticky 1) }) s
  else if inSram a n then
    modMem (fun m => { m with parity := (unitsHit 8 checkFail bad a n).foldl (fun l w => insertNat w l) m.parity }) s
  else s

/-- A read of [a, a+n) with its checks: the bytes, whether they carry a poison tag, and the errors counted (R54, R360). -/
def checkedRead (bad : List MemFail) (a n : Nat) (s : State) : Bytes × Bool × State :=
  let t := failReads bad a n s
  (cellRead s.mem.cells a n, poisonedAt t a n || (inHbm s a n && failsAt bad a n), countParity a n t)

/-- Read [a, a+n) of device memory for a command or a descriptor: the bytes, or why not (R12, R13, R54, R360). -/
def devRead (bad : List MemFail) (a n : Nat) (s : State) : Except Status Bytes × State :=
  if !devOk s a n then (.error .accessViolation, s)
  else
    let c := checkedRead bad a n s
    (if c.2.1 then .error .dataPoisoned else .ok c.1, c.2.2)

/-- `n` words of the buffer pool have failed parity on a read (R285, Table 14-7). -/
def poolFail (n : Nat) (s : State) : State :=
  if n = 0 then s else modBuf (fun b => { b with parity := satAdd 32 b.parity n, sticky := setBit b.sticky 2 }) s

/-- Some byte of [a, a+n) is in the region that the module has made read-only: the resident weight set (R115, R359). -/
def readOnlyAt (s : State) (a n : Nat) : Bool := s.mem.held.any (fun h => h.owner == .weights && overlaps a n h.base h.len)

/-- How many bytes of [a, a+n) come before the first that carries a poison tag, when `bad` fails on the read. -/
def cleanLen (bad : List MemFail) (s : State) (a n : Nat) : Nat :=
  if inHbm s a n && !hbmReadable s then 0
  else if inHbm s a n then
    (s.mem.poison.filter (fun l => overlaps a n (l * 64) 64) ++ unitsHit 64 checkFail bad a n ++ unitsHit 64 treeTwice bad a n).foldl
      (fun k l => min k (l * 64 - a)) n
  else (s.mem.parity.filter (fun w => overlaps a n (w * 8) 8)).foldl (fun k w => min k (w * 8 - a)) n

/-- The write [a, a+n) covers the whole of line `l`. -/
def coversLine (a n l : Nat) : Bool := decide (a ≤ l * 64 ∧ l * 64 + 64 ≤ a + n)

/-- Write bytes to HBM or SRAM through memory protection: R359 (read-only region), R361 (a page at its last MAJOR), R360
(a whole line clears its poison mark). The access rules of R12 and R13 are the caller's. (DESIGN CHOICE: log entry 75) -/
def memWrite (a : Nat) (bs : Bytes) (s : State) : Status × State :=
  let n := bs.length
  let store := fun (st : State) => modMem (fun m => { m with cells := cellWrite m.cells a bs }) st
  if inHbm s a n then
    let ls := linesOf a n
    if readOnlyAt s a n || ls.any (fun l => (pageOf s (l / 64)).readOnly) then (.accessViolation, s)
    else if ls.any (lineStuck s) then (.dataPoisoned, s)
    else
      let s := store (writeLines a n s)
      (.ok, modMem (fun m => { m with poison := m.poison.filter (fun l => !(ls.contains l && coversLine a n l)) }) s)
  else
    let ws := wordsOf a n
    let whole := fun w => ws.contains w && decide (a ≤ w * 8 ∧ w * 8 + 8 ≤ a + n)
    (.ok, modMem (fun m => { m with parity := m.parity.filter (fun w => !whole w) }) (store s))

/-- Mark the HBM lines poisoned that hold words of [a, a+n) at the offsets `bad` (R269). -/
def markPoison (a n : Nat) (bad : List Nat) (s : State) : State :=
  if inHbm s a n then
    let ls := (bad.flatMap (fun o => linesOf (a + o) (min 8 (n - o)))).foldl (fun l x => insertNat x l) []
    modMpr (fun r => { r with poisonMark := satAdd 32 r.poisonMark ls.length })
      (modMem (fun m => { m with poison := ls.foldl (fun p l => insertNat l p) m.poison }) s)
  else s

/-! ## Events (R320) -/

/-- A host or device tail writeback or ring write of function `fn`: posted to the host, or stored in HBM where R12 and R13 allow it. -/
def ringStore (fn : Nat) (hbm : Bool) (a : Nat) (bs : Bytes) (s : State) : State :=
  if !hbm then post fn (.hostWrite fn a bs) s
  else if devOk s a bs.length then (memWrite a bs s).2
  else s

/-- Write a tail writeback: the producer index and 4 zero bytes (R278). -/
def tailStore (fn : Nat) (tail producer : Nat) (s : State) : State :=
  let bs := leBytes 4 producer ++ zeros 4
  match decodeAddr tail with
  | .dev a => ringStore fn true a bs s
  | _ => ringStore fn false tail bs s

/-- The 32 bytes of an event entry, Table 16-6. -/
def eventEntry (code sev seq stroke arg0 arg1 : Nat) : Bytes :=
  leBytes 2 code ++ leBytes 1 sev ++ [0] ++ leBytes 4 seq ++ leBytes 8 stroke ++ leBytes 8 arg0 ++ leBytes 8 arg1

/-- An event that finds no ring, or no place in it, is lost (R320). -/
def loseEvent (s : State) : State := modMbx (fun m => { m with overrun := true, lost := sat m.lost }) s

/-- An event's message: at most one per 10 us (R320). -/
def signalEvent (vector : Nat) (s : State) : State :=
  if vector = 0xFFFF then s
  else if s.mbx.irqOpen then modMbx (fun m => { m with irqPending := true }) s
  else modMbx (fun m => { m with irqOpen := true }) (post 0 (.msix 0 vector) s)

/-- An event's entry in the next place of ring `r`, then the tail writeback, the message, and, from FW_READY on, the
console line of R425 with CODE and SEQ. -/
def writeEvent (r : EventRing) (code sev seq arg0 arg1 : Nat) (s : State) : State :=
  let p := (r.producer + 1) % 2 ^ 32
  let s := modMbx (fun m => { m with ring := some { r with producer := p } }) s
  let s := ringStore 0 r.hbm (r.base + 32 * (r.producer % 2 ^ r.k)) (eventEntry code sev seq s.prs.stroke arg0 arg1) s
  let s := signalEvent r.vector (tailStore 0 r.tail p s)
  if s.mbx.fwReady then emit (.console code seq) s else s

/-- EVENT_POST (R320, R321): take the next sequence number; discard, lose, or write the entry. -/
def postEvent (code sev arg0 arg1 : Nat) (s : State) : State :=
  let t := modMbx (fun m => { m with seq := (m.seq + 1) % 2 ^ 32 }) s
  match s.mbx.ring with
  | none => loseEvent t
  | some r =>
    if sev != 3 && !r.mask.getLsbD (code / 256) then t
    else if (r.producer + 2 ^ 32 - r.consumer) % 2 ^ 32 = 2 ^ r.k then loseEvent t
    else writeEvent r code sev s.mbx.seq arg0 arg1 t

/-! ## Mailbox commands (R312) -/

/-- The command of mailbox `mb` with this opcode that has begun and not completed, while the firmware runs. -/
def runJob (s : State) (mb : Nat) (op : Nat) : Option Job :=
  if firmwareRuns s then s.mbx.jobs.find? (fun j => j.mb == mb && j.opcode == op && decide (1 ≤ j.phase ∧ j.phase ≤ 2)) else none

/-- A job by its order. -/
def jobAt (s : State) (order : Nat) : Option Job := s.mbx.jobs.find? (·.order == order)

/-- Change a job. -/
def modJob (order : Nat) (f : Job → Job) (s : State) : State :=
  modMbx (fun m => { m with jobs := updWhere (·.order == order) f m.jobs }) s

/-- A job that waits for data or an event (phase 2) on a subject. -/
def waitJob (j : Job) (subject : Nat) (s : State) : State :=
  modJob j.order (fun j => { j with phase := 2, subject := subject }) s

/-- What COMMAND_COMPLETION leaves in a mailbox: the completion bytes, CPL_LENGTH, SERIAL and STATUS in the window, and state DONE. A refusal
that carries a reason code writes it in completion byte 0, with CPL_LENGTH 0 (R62, R103, R196, R222). -/
def completed (reason : Option Nat) (st : Status) (payload : Bytes) (b : Mailbox) : Mailbox :=
  let body := match reason with
    | some r => leBytes 1 r
    | none => payload.take 16320
  let w := cellWrite b.window 0x40 body
  let w := cellWrite w 0x10 (leBytes 4 payload.length ++ leBytes 4 b.serial)
  let w := cellWrite w 0x0C (leBytes 2 (statusCode st))
  { b with window := w, state := 2, cplEnd := some payload.length, fresh := if reason.isSome then [(0x40, 1)] else [] }

/-- The self-test commands, whose last status MODULE_STATUS shows (Tables 22-1, 22-6). -/
def selfTest (op : Nat) : Bool := decide (0x0B01 ≤ op ∧ op ≤ 0x0B03)

/-- COMMAND_COMPLETION (R312): the mailbox is completed, and the MSI-X message and event follow; mailbox 3 signals by STATE only (R315). A command
detached by an FLR of PF0 leaves no completion (R303). (DEDUCED: log entry 16) -/
def finishWith (reason : Option Nat) (j : Job) (st : Status) (payload : Bytes) (s : State) : State :=
  let s := modMbx (fun m => { m with jobs := m.jobs.filter (·.order != j.order) }) s
  let s := if selfTest j.opcode then modTst (fun t => { t with last := statusCode st }) s else s
  if !j.attached then s
  else
    let b := get4 s.mbx.boxes j.mb
    let s := modBox j.mb (completed reason st payload) s
    let s := if b.irqEn && j.mb != 3 then post 0 (.msix 0 b.vector) s else s
    if j.flags % 2 = 1 && j.mb != 3 then
      postEvent 0x0101 0 (pack [(j.opcode, 16), (statusCode st, 16), (j.mb, 8)]) j.tag s
    else s

/-- Complete with a payload. -/
def finish (j : Job) (st : Status) (payload : Bytes) (s : State) : State := finishWith none j st payload s

/-- A command ends by an event of the module: it completes, or waits for the firmware to complete it (R309, R418). (DEDUCED: log entry 16) -/
def conclude (j : Job) (st : Status) (payload : Bytes) (s : State) : State :=
  if firmwareRuns s then finish j st payload s else modJob j.order (fun j => { j with phase := 3, ended := some ⟨none, st, payload⟩ }) s

/-- The commands that ended while the firmware did not run complete. -/
def deliverEnded (s : State) : State :=
  (s.mbx.jobs.filter (·.phase == 3)).foldl (fun t j => j.ended.elim t (fun e => finishWith e.reason j e.status e.payload t)) s

/-- Refuse with a reason code in completion byte 0. (DEDUCED: log entry 16) -/
def refuseWith (j : Job) (st : Status) (reason : Nat) (s : State) : State := finishWith (some reason) j st [] s

/-- Complete with a status and no payload. -/
def answer (j : Job) (st : Status) (s : State) : State := finish j st [] s

/-- A command's meaning: on its running job, or nothing when none runs. -/
def onJob (mb : Nat) (op : Nat) (s : State) (f : Job → State) : State :=
  match runJob s mb op with
  | some j => f j
  | none => s

/-- A command's meaning that begins once: on its running job that waits for nothing yet. -/
def onNewJob (mb : Nat) (op : Nat) (s : State) (f : Job → State) : State :=
  match runJob s mb op with
  | some j => if j.phase = 1 then f j else s
  | none => s

/-- The payload has length `n`. -/
def lenIs (j : Job) (n : Nat) : Bool := j.payload.length == n

/-- A field of the payload. -/
def arg (j : Job) (off n : Nat) : Nat := field j.payload off n

/-! ## Completion entries (R278) -/

/-- A work ring by number. -/
def wringAt (s : State) (n : Nat) : Option WRing := s.buf.wrings.find? (·.num == n)

/-- A completion ring by number. -/
def cringAt (s : State) (n : Nat) : Option CRing := s.buf.crings.find? (·.num == n)

/-- Change a work ring. -/
def modWring (n : Nat) (f : WRing → WRing) (s : State) : State :=
  modBuf (fun b => { b with wrings := updWhere (·.num == n) f b.wrings }) s

/-- Change a completion ring. -/
def modCring (n : Nat) (f : CRing → CRing) (s : State) : State :=
  modBuf (fun b => { b with crings := updWhere (·.num == n) f b.crings }) s

/-- Signal a completion ring: a message, at most one per COALESCE_US (R278). -/
def signalCring (c : CRing) (s : State) : State :=
  if c.vector = 0xFFFF then s
  else if c.coalesce = 0 then post c.fn (.msix c.fn c.vector) s
  else if c.irqOpen then modCring c.num (fun c => { c with irqPending := true }) s
  else modCring c.num (fun c => { c with irqOpen := true }) (post c.fn (.msix c.fn c.vector) s)

/-- COMPLETION_WRITE (R278): an entry in the ring's next place, then the tail writeback, then the message. -/
def writeEntry (cn : Nat) (entry : Bytes) (s : State) : State :=
  match cringAt s cn with
  | none => s
  | some c =>
    let s := ringStore c.fn c.hbm (c.base + 32 * (c.producer % 2 ^ c.k)) (fit 32 entry) s
    let p := (c.producer + 1) % 2 ^ 32
    let s := modCring cn (fun c => { c with producer := p, reserved := c.reserved - 1 }) s
    signalCring c (tailStore c.fn c.tail p s)

/-- A fetched descriptor by its number. -/
def descAt (s : State) (d : Nat) : Option FDesc := s.buf.descs.find? (·.id == d)

/-- A fetched descriptor leaves, and its entry is written in the completion ring of its work ring (R277, R278). -/
def finishDesc (d : Nat) (entry : Bytes) (s : State) : State :=
  match descAt s d with
  | none => s
  | some f =>
    let s := modBuf (fun b => { b with descs := b.descs.filter (·.id != d) }) s
    match wringAt s f.wring with
    | none => s
    | some w => writeEntry w.cring entry (modWring w.num (fun w => { w with completed := (w.completed + 1) % 2 ^ 32 }) s)

/-- Write the held entries at the head of a ring, in posting order; `fuel` is the number of fetched descriptors. -/
def flushHeld (ring : Nat) : Nat → State → State
  | 0, s => s
  | fuel + 1, s =>
    match s.buf.descs.find? (·.wring == ring) with
    | none => s
    | some f => match f.entry with
      | some e => flushHeld ring fuel (finishDesc f.id e s)
      | none => s

/-- Complete a fetched descriptor. Those of remote memory complete in posting order for each ring (R261). -/
def completeDesc (d : Nat) (entry : Bytes) (s : State) : State :=
  match descAt s d with
  | none => s
  | some f =>
    if f.fn != 4 then finishDesc d entry s
    else if f.entry.isSome then s
    else flushHeld f.wring s.buf.descs.length
      (modBuf (fun b => { b with descs := updWhere (·.id == d) (fun f => { f with entry := some entry }) b.descs }) s)

/-- Mark a fetched descriptor as taken by its engine. -/
def takeDesc (d : Nat) (s : State) : State :=
  modBuf (fun b => { b with descs := updWhere (·.id == d) (fun f => { f with taken := true }) b.descs }) s

/-! ## Reads of host memory (R300) -/

/-- Bytes of one read request of a function: its max read request size, 128 to 4,096 (Table 15-1). (DEDUCED: log entry 20) -/
def readUnit (s : State) (fn : Nat) : Nat := min 4096 (max 128 (get5 s.hif.fns fn).cfg.maxRead)

/-- The next request of a read, in ascending order of address (R293). (DEDUCED: log entry 20) -/
def nextPiece (s : State) (r : HostRead) : Nat :=
  min (min (r.len - r.got.length) (if r.got.length < r.head then r.head - r.got.length else r.len)) (readUnit s r.fn)

/-- Issue the next request of a read (R293). -/
def issueRead (r : HostRead) (s : State) : State := send (.hostRead r.fn r.id (r.addr + r.got.length) (nextPiece s r)) s

/-- A function has a tag for one more read: 14-bit tags in Flit mode, 10-bit ones otherwise (Table 15-1). (PRESUMED: log entry 11) -/
def tagFree (s : State) (fn : Nat) : Bool :=
  decide ((s.hif.reads.filter (fun r => r.fn == fn && r.issued)).length < (if s.hif.flit then 16384 else 1024))

/-- Issue, or hold, a read of host memory for a function, its first `head` bytes in requests of their own. (DEDUCED: log entry 20) -/
def hostReadHead (fn addr len head : Nat) (why : ReadFor) (s : State) : State :=
  let go := fnReady s fn && tagFree s fn
  let r : HostRead :=
    { id := s.hif.nextRead, fn := fn, addr := addr, len := len, head := head, purpose := why, issued := go, got := [], arrived := none }
  let s := modHif (fun h => { h with nextRead := r.id + 1, reads := h.reads ++ [r] }) s
  if r.issued then issueRead r s else s

/-- Issue, or hold, a read of host memory for a function. -/
def hostReadReq (fn addr len : Nat) (why : ReadFor) (s : State) : State := hostReadHead fn addr len 0 why s

/-- Drop the reads for which `p` holds: one that is issued is abandoned, so that only an error in its answer counts (R300). (DEDUCED: log entry 20) -/
def dropReads (p : HostRead → Bool) (s : State) : State :=
  modHif (fun h => { h with reads := (h.reads.filter (fun r => !p r || (r.issued && r.arrived.isNone))).map (fun r => if p r then { r with purpose := .abandoned } else r) }) s

/-! ## Grants and reservations (R68, R69) -/

/-- The grant of a work. -/
def grantOf (s : State) (w : Work) : Option Grant := s.pla.grants.find? (·.work == w)

/-- Every bank a grant's reservations hold. -/
def resvBanks (s : State) : List Nat := s.pla.grants.flatMap (·.banks)

/-- `n` of the numbers of a list: the module's own choice where it names `n` different ones, else the first
(notes/assumptions 3). -/
def chooseFrom (n : Nat) (free : List Nat) (draw : Nat) : List Nat :=
  let c := (List.range n).filterMap (fun i => free[(Config.freeCount draw i).toNat % free.length]?)
  if c.length == n && noDup c then c.foldl (fun l x => insertNat x l) [] else free.take n

/-- `n` banks of the sheets of `m` that `taken` does not hold, or none when there are fewer. In twin mode they are counted in
the primary half, and the same banks of the secondary half go with them (R69, R71). -/
def pickBanks (n : Nat) (m : BitVec 32) (twin : Bool) (taken : List Nat) (draw : Nat) : Option (List Nat) :=
  let free := (banksOf (if twin then m &&& 0x0000FFFF else m)).filter (fun b => !taken.contains b)
  if n ≤ free.length then
    let c := chooseFrom n free draw
    some (if twin then c ++ c.map (· + 4096) else c)
  else none

/-- Change a grant. -/
def modGrant (w : Work) (f : Grant → Grant) (s : State) : State :=
  modPla (fun p => { p with grants := updWhere (·.work == w) f p.grants }) s

/-- Wipe the SRAM of the sheets of a mask (R69, R353): every word reads 0 with good parity. -/
def wipeSheets (m : BitVec 32) (s : State) : State :=
  modMem (fun x => (sheetsOf m).foldl (fun x sh =>
    let a := sramBase + sh * 16 * graverBytes
    { x with cells := cellWipe x.cells a (16 * graverBytes),
             parity := x.parity.filter (fun w => !overlaps a (16 * graverBytes) (w * 8) 8) }) x) s

/-- Wipe SRAM banks (R69, R122): every word reads 0 with good parity. -/
def wipeBanks (banks : List Nat) (s : State) : State :=
  modMem (fun m => banks.foldl (fun m b =>
    { m with cells := cellWipe m.cells (sramBase + b * bankBytes) bankBytes
             parity := m.parity.filter (fun w => !overlaps (sramBase + b * bankBytes) bankBytes (w * 8) 8) }) m) s

/-- Mark the gravers of a mask in a 512-bit word. -/
def graverBits (m : BitVec 32) (f : BitVec 512 → Nat → BitVec 512) (v : BitVec 512) : BitVec 512 :=
  (sheetsOf m).foldl (fun v sh => (graversOf sh).foldl f v) v

/-- Pending swaps for which `p` holds are dropped: a shadow that one of them had filled no longer holds a plate awaiting its swap (R66, R67,
Table 3-13). -/
def dropSwaps (p : Swap → Bool) (s : State) : State :=
  modPla (fun q => { q with
    swaps := q.swaps.filter (fun x => !p x)
    shadowVld := (q.swaps.filter (fun x => p x && x.loaded)).foldl (fun v x => graverBits x.mask clearBit v) q.shadowVld }) s

/-- The work ends: its actions, data, pending loads and active plates are discarded, its grant is returned and its sheets
wiped (R44, R67, R69). -/
def endWork (w : Work) (s : State) : State :=
  let m := (grantOf s w).elim 0 (·.mask)
  let s := modPrs (fun p => { p with actions := p.actions.filter (·.work != w), data := p.data.filter (·.work != w),
                                     checks := p.checks.filter (·.work != w) }) s
  let s := modPla (fun p => { p with swaps := p.swaps.filter (·.work != w),
                                     active := p.active.filter (·.work != w),
                                     loose := p.loose.filter (fun x => p.active.any (fun a => a.work != w && a.plate == x.handle) ||
                                       p.swaps.any (fun y => y.work != w && y.plate == x.handle)),
                                     grants := p.grants.filter (·.work != w),
                                     shadowVld := graverBits m clearBit p.shadowVld,
                                     accums := p.accums.filter (fun x => !m.getLsbD (sheetOf (x.1 / 4096))) }) s
  wipeSheets m s

/-! ## The clock of the housekeeping timer -/

/-- Power readings (R356): `PWR_W` is instantaneous, or the 1 s average rounded to the nearest 25 W, to the
highest one of its 11 bits at most. (DESIGN CHOICE: log entry 45) -/
def powerReading (s : State) : Nat :=
  if confidential s then min 2025 ((s.clk.pwrAvg + 12) / 25 * 25) else s.clk.pwrW

/-- Counters of cycles or time: exact, or bits [15:0] read 0 (R356). -/
def timeReading (s : State) (n : Nat) : Nat := if confidential s then n / 65536 * 65536 else n

end Sys2Proof.Machine
end

