-- ==== Sys2Proof/Machine/Clock.lean ====
section
/-! DEFINITION. The F divisors and the controllers that ask for them: power cap, fast power limit, temperature
(21_clocks_power_thermal.md R398 to R404). Divisors and requests are codes 0 to 3 for ÷4, ÷5, ÷6, ÷8. -/

namespace Sys2Proof.Machine

/-- The divisor that the controllers ask of a die: the largest of the three requests (R398). -/
def wantedDiv (cap : Nat) (d : DieState) : Nat := max cap (max d.therm (if d.diffReq then 3 else 0))

/-- A divisor change of a die is due at this boundary (R398): at most one in 1 ms, but for an exempt request for ÷8. -/
def divDue (now cap : Nat) (d : DieState) : Bool :=
  wantedDiv cap d != d.div &&
    ((d.urgent && wantedDiv cap d == 3) || d.lastChange.all (fun t => decide (t + 1000 ≤ now)))

/-- One die at a boundary. -/
def stepDiv (now cap : Nat) (d : DieState) : DieState :=
  if divDue now cap d then { d with div := wantedDiv cap d, lastChange := some now, urgent := false }
  else if wantedDiv cap d = d.div then { d with urgent := false }
  else d

/-- The divisor changes that a stroke boundary applies (R398), and whether there is one. (DEDUCED: log entry 45) -/
def applyDivisors (s : State) : Bool × State :=
  let n := ((list4 s.clk.dies).filter (divDue s.now s.clk.capReq)).length
  (n != 0, modClk (fun c => { c with dies := map4 c.dies (stepDiv s.now c.capReq), stepCnt := satAdd 32 c.stepCnt n }) s)

/-- The clock and thermal logic works: it has power, and option load has ended but for a core reset, which leaves it and its pins (R389, R392,
Table 20-2). (DEDUCED: log entry 45) -/
def clocksUp (s : State) : Bool := s.rst.railsOn && !systemDown s

/-- POWER_CAP_DECISION (R401): the cap in effect, against the running average `avgW`. The instantaneous and 1 s readings and the input
voltage are measured: free values (notes/assumptions 3). (DEDUCED: log entry 45) -/
def execPowerCapDecision (avgW : Nat) (s : State) : Out :=
  .next <|
    if !clocksUp s then s
    else
      let k := s.clk.capW
      let low := decide (8 * avgW ≤ 7 * k)
      let run := if low then s.clk.lowRun + 1 else 0
      modClk (fun c => { c with
        lowRun := run
        capReq := if k < avgW then min 3 (c.capReq + 1) else if decide (10 ≤ run) then c.capReq - 1 else c.capReq
        sticky := if k < avgW && c.capReq == 3 then setBit c.sticky 1 else c.sticky
        vinMv := (Config.freeCount s.draw 0).toNat % 65536
        pwrW := (Config.freeCount s.draw 1).toNat % 2048
        pwrAvg := (Config.freeCount s.draw 2).toNat % 2048 }) { s with draw := s.draw + 1 }

/-- FAST_POWER_LIMIT (R402): above 2,000 W every die is asked for ÷8 and ALERT_N is driven low. (DEDUCED: log entry 45) -/
def execFastPowerLimit (watts : Nat) (s : State) : Out :=
  .next <|
    if !clocksUp s || decide (watts ≤ 2000) then s
    else
      modPins (fun p => { p with alertFast := true })
        (modClk (fun c => { c with
          capReq := 3
          dies := map4 c.dies (fun d => { d with urgent := true })
          sticky := setBit c.sticky 4
          pwrW := min watts 2047 }) s)

/-- FAST_LIMIT_ALERT_RELEASE (R402): the 1 ms of ALERT_N ends. -/
def execFastLimitAlertRelease (s : State) : Out := .next (modPins (fun p => { p with alertFast := false }) s)

/-- One step of a die's thermal controller on a reading (R403). One sample is 100 us: 10 samples are 1 ms, 100 are 10 ms. (DEDUCED: log entry 45) -/
def thermStep (t : Int) (d : DieState) : DieState :=
  let run := if t ≤ 90 then d.coolRun + 1 else 0
  let since := d.sinceStep + 1
  let d := { d with coolRun := run, sinceStep := since }
  if decide (105 ≤ t) then { d with therm := 3, sinceStep := 0, urgent := true }
  else if decide (95 ≤ t) then (if decide (10 ≤ since) && decide (d.therm < 3) then { d with therm := d.therm + 1, sinceStep := 0 } else d)
  else if decide (100 ≤ run) && decide (10 ≤ since) && d.therm != 0 then { d with therm := d.therm - 1, sinceStep := 0 }
  else d

/-- A reading as `CLK.TEMP` holds it: 8 bits, two's complement. -/
def readTemp (t : Int) (x : TempState) : TempState :=
  let v := max (-128) (min 127 t)
  { tj := v, tjMax := max x.tjMax v }

/-- The difference of two readings is above `n`. -/
def apart (n a b : Int) : Bool := decide (n < a - b) || decide (n < b - a)

/-- Every two readings of a list differ by `n` or less. -/
def within (n : Int) (l : List Int) : Bool := l.all (fun a => l.all (fun b => !apart n a b))

/-- THERMAL_SAMPLE (R403, R404): every die reports its hottest junction; the thermal controllers, the I/O die's request and the
temperature-difference alarm follow. (DEDUCED: log entry 45) -/
def execThermalSample (t0 t1 t2 t3 tio : Int) (s : State) : Out :=
  .next <|
    if !clocksUp s then s
    else
      let ts : Four Int := ⟨t0, t1, t2, t3⟩
      let l := list4 ts
      let hot := fun (t : Int) => l.any (apart 30 t)
      let io := decide (105 ≤ tio)
      let alarm := !within 30 l
      let run := if within 25 l then s.clk.diffLowRun + 1 else 0
      let clears := s.clk.diffAlarm && decide (100 ≤ run)
      let die := fun (t : Int) (d : DieState) =>
        let d := thermStep t d
        let d := if io then { d with therm := 3, sinceStep := 0, urgent := true } else d
        if hot t then { d with diffReq := true, urgent := true } else if clears then { d with diffReq := false } else d
      modClk (fun c =>
        let dies : Four DieState := ⟨die t0 c.dies.a0, die t1 c.dies.a1, die t2 c.dies.a2, die t3 c.dies.a3⟩
        let x := if (list4 dies).any (·.therm != 0) then setBit c.sticky 2 else c.sticky
        { c with
          dies := dies
          temps := ⟨readTemp t0 c.temps.a0, readTemp t1 c.temps.a1, readTemp t2 c.temps.a2, readTemp t3 c.temps.a3, readTemp tio c.temps.a4⟩
          thermHot := io || l.any (fun t => decide (105 ≤ t))
          diffAlarm := alarm || (c.diffAlarm && !clears)
          diffLowRun := run
          sticky := if alarm then setBit x 3 else x }) s

end Sys2Proof.Machine
end

