-- ==== Sys2Proof/Machine/Arith.lean ====
section
/-! DEFINITION. Arithmetic Edition 1 (04_arithmetic_edition_1.md R76 to R100): formats, the one rounding rule, exact
accumulation, canonical trees, functions, attention partials, modular arithmetic and sampling. A finite value is an exact
dyadic number m × 2^e until a named rounding point. -/

namespace Sys2Proof.Machine

/-- An FP32 word. -/
abbrev F32 := BitVec 32

/-- What an FP32 word stands for: NaN, an infinity or zero with its sign (true is minus), or m × 2^e with m not 0. -/
inductive Num where
  | nan
  | inf (neg : Bool)
  | zero (neg : Bool)
  | fin (m : Int) (e : Int)
  deriving DecidableEq, Repr

/-- m × 2^e for a nonnegative or negative exponent, as a scaled integer over 2^base (base at most e). -/
def scaleTo (m : Int) (e base : Int) : Int := m * (2 : Int) ^ (e - base).toNat

/-- floor(m × 2^k) for an integer k. -/
def floorShift (m : Int) (k : Int) : Int :=
  if 0 ≤ k then m * (2 : Int) ^ k.toNat else m / (2 : Int) ^ (-k).toNat

/-- The value of an FP32 word; subnormals read as zero (Table 4-1, R79). -/
def num (x : F32) : Num :=
  let neg := x.getLsbD 31
  let ex := bits x.toNat 30 23
  let man := bits x.toNat 22 0
  if ex = 255 then (if man = 0 then .inf neg else .nan)
  else if ex = 0 then .zero neg
  else
    let m : Int := (2 ^ 23 + man : Nat)
    .fin (if neg then -m else m) ((ex : Int) - 150)

def nan32 : F32 := 0x7FC00000
def posInf : F32 := 0x7F800000
def negInf : F32 := 0xFF800000
def one32 : F32 := 0x3F800000

/-- An infinity or a zero with a sign. -/
def inf32 (neg : Bool) : F32 := if neg then 0xFF800000 else 0x7F800000
def zero32 (neg : Bool) : F32 := if neg then 0x80000000 else 0x00000000

/-- Round a natural number to `w` significant bits, ties to even: the significand and the exponent of its last bit. -/
def roundSig (w a : Nat) : Nat × Int :=
  let l := a.log2
  if l < w then (a * 2 ^ (w - 1 - l), (l : Int) - ((w : Int) - 1))
  else
    let sh := l + 1 - w
    let q := a / 2 ^ sh
    let r := a % 2 ^ sh
    let half := 2 ^ (sh - 1)
    let q := if decide (half < r) || (r == half && q % 2 == 1) then q + 1 else q
    if q = 2 ^ w then (2 ^ (w - 1), (sh : Int) + 1) else (q, (sh : Int))

/-- The one rounding of R79 of the exact value m × 2^e to FP32; m = 0 gives +0. -/
def rne (m : Int) (e : Int) : F32 :=
  if m = 0 then 0
  else
    let neg := decide (m < 0)
    let (q, sh) := roundSig 24 m.natAbs
    let ex : Int := sh + e + 23
    if ex < -126 then zero32 neg
    else if 127 < ex then inf32 neg
    else BitVec.ofNat 32 ((if neg then 2 ^ 31 else 0) + (ex + 127).toNat * 2 ^ 23 + (q - 2 ^ 23))

/-- The one rounding of R79 of the exact value m × 2^e to BF16, whose significand has 8 bits; never by way of FP32 (R80). -/
def rneBf16 (m : Int) (e : Int) : Nat :=
  if m = 0 then 0
  else
    let neg := decide (m < 0)
    let (q, sh) := roundSig 8 m.natAbs
    let ex : Int := sh + e + 7
    let s := if neg then 0x8000 else 0
    if ex < -126 then s
    else if 127 < ex then s + 0x7F80
    else s + (ex + 127).toNat * 128 + (q - 128)

/-- Sign-inverted. -/
def fneg (x : F32) : F32 := x ^^^ 0x80000000

/-- FP32 addition (R82). -/
def fadd (x y : F32) : F32 :=
  match num x, num y with
  | .nan, _ => nan32
  | _, .nan => nan32
  | .inf a, .inf b => if a = b then inf32 a else nan32
  | .inf a, _ => inf32 a
  | _, .inf b => inf32 b
  | .zero a, .zero b => zero32 (a && b)
  | .zero _, .fin m e => rne m e
  | .fin m e, .zero _ => rne m e
  | .fin m e, .fin n f => let b := min e f; rne (scaleTo m e b + scaleTo n f b) b

/-- FP32 subtraction. -/
def fsub (x y : F32) : F32 := fadd x (fneg y)

/-- Sign of a number that is not NaN. -/
def negOf : Num → Bool
  | .nan => false
  | .inf a => a
  | .zero a => a
  | .fin m _ => decide (m < 0)

/-- FP32 multiplication. -/
def fmul (x y : F32) : F32 :=
  let a := num x
  let b := num y
  let sg := xor (negOf a) (negOf b)
  match a, b with
  | .nan, _ => nan32
  | _, .nan => nan32
  | .inf _, .zero _ => nan32
  | .zero _, .inf _ => nan32
  | .inf _, _ => inf32 sg
  | _, .inf _ => inf32 sg
  | .zero _, _ => zero32 sg
  | _, .zero _ => zero32 sg
  | .fin m e, .fin n f =>
    let r := rne (m * n) (e + f)
    r

/-- Fused multiply-add x × y + z, one rounding (R82). -/
def fma (x y z : F32) : F32 :=
  let a := num x
  let b := num y
  let c := num z
  let sg := xor (negOf a) (negOf b)
  match a, b, c with
  | .nan, _, _ => nan32
  | _, .nan, _ => nan32
  | _, _, .nan => nan32
  | .inf _, .zero _, _ => nan32
  | .zero _, .inf _, _ => nan32
  | .inf _, _, .inf t => if sg = t then inf32 t else nan32
  | _, .inf _, .inf t => if sg = t then inf32 t else nan32
  | .inf _, _, _ => inf32 sg
  | _, .inf _, _ => inf32 sg
  | _, _, .inf t => inf32 t
  | .fin m e, .fin n f, .fin o g => let b := min (e + f) g; rne (scaleTo (m * n) (e + f) b + scaleTo o g b) b
  | .fin m e, .fin n f, .zero _ => rne (m * n) (e + f)
  | _, _, .fin o g => rne o g
  | _, _, .zero t => zero32 (sg && t)

/-- A key that orders the words that are not NaN; −0 lies below +0, subnormals count as zeros. -/
def ordKey (x : F32) : Int :=
  match num x with
  | .nan => 0
  | .zero neg => if neg then -1 else 0
  | _ => let k : Int := bits x.toNat 30 0; if x.getLsbD 31 then -k - 1 else k

def isNan (x : F32) : Bool := num x == .nan

/-- Less than, false with a NaN; −0 and +0 compare equal. -/
def flt (x y : F32) : Bool :=
  !isNan x && !isNan y &&
  (match num x, num y with
   | .zero _, .zero _ => false
   | _, _ => decide (ordKey x < ordKey y))

/-- Maximum (R82): the canonical NaN if either is NaN; −0 is less than +0. -/
def fmax (x y : F32) : F32 :=
  if isNan x || isNan y then nan32
  else if ordKey x < ordKey y then
    (match num y with | .zero n => zero32 n | _ => y)
  else (match num x with | .zero n => zero32 n | _ => x)

/-- Minimum (R82): the canonical NaN if either is NaN; −0 is less than +0. -/
def fmin (x y : F32) : F32 :=
  if isNan x || isNan y then nan32
  else if ordKey y < ordKey x then
    (match num y with | .zero n => zero32 n | _ => y)
  else (match num x with | .zero n => zero32 n | _ => x)

/-- Equal, false with a NaN; −0 and +0 compare equal. -/
def feq (x y : F32) : Bool := !isNan x && !isNan y && !flt x y && !flt y x

/-- floor of the square root, by bits from the top. -/
def isqrtBits (n : Nat) : Nat → Nat → Nat
  | 0, r => r
  | i + 1, r => let c := r + 2 ^ i; isqrtBits n i (if c * c ≤ n then c else r)

/-- `recip` (R87). -/
def recip (x : F32) : F32 :=
  match num x with
  | .nan => nan32
  | .zero neg => inf32 neg
  | .inf neg => zero32 neg
  | .fin m e =>
    let a := m.natAbs
    let q := 2 ^ 60 / a
    let st := if 2 ^ 60 % a = 0 then 0 else 1
    let v : Int := (2 * q + st : Nat)
    rne (if m < 0 then -v else v) (-61 - e)

/-- `rsqrt` (R87). -/
def rsqrt (x : F32) : F32 :=
  match num x with
  | .nan => nan32
  | .zero _ => posInf
  | .inf neg => if neg then nan32 else 0
  | .fin m e =>
    if m < 0 then nan32
    else
      let odd := e % 2 != 0
      let a := if odd then 2 * m.natAbs else m.natAbs
      let e := if odd then e - 1 else e
      let q := isqrtBits (2 ^ 120 / a) 61 0
      let st := if q * q * a = 2 ^ 120 then 0 else 1
      rne ((2 * q + st : Nat) : Int) (-61 - e / 2)

/-! ## Canonical trees (R85, R86): leaf lists with absent leaves; absent leaves added on the right change nothing -/

/-- R85 `combine`. -/
def combine (op : α → α → α) : Option α → Option α → Option α
  | none, y => y
  | x, none => x
  | some x, some y => some (op x y)

/-- One level of the tree. -/
def pairUp (op : α → α → α) : List (Option α) → List (Option α)
  | a :: b :: l => combine op a b :: pairUp op l
  | l => l

/-- The root of the canonical tree; `fuel` bounds the levels. -/
def treeRoot (op : α → α → α) : Nat → List (Option α) → Option α
  | _, [] => none
  | _, [x] => x
  | 0, _ => none
  | fuel + 1, l => treeRoot op fuel (pairUp op l)

/-- The canonical FP32 sum; an absent root is +0. -/
def treeSum (l : List (Option F32)) : F32 := (treeRoot fadd l.length l).getD 0

/-- The canonical sum of values that are all present. -/
def sumAll (l : List F32) : F32 := treeSum (l.map some)

/-! ## Functions (R88 to R92) -/

def LOG2E : F32 := 0x3FB8AA3B
def expC1 : F32 := 0x3F317218
def expC2 : F32 := 0x3E75FDF0
def expC3 : F32 := 0x3D635847
def expC4 : F32 := 0x3C1D955B

/-- Table 4-6. -/
def expT : List F32 :=
  [0x3F800000, 0x3F85AAC3, 0x3F8B95C2, 0x3F91C3D3, 0x3F9837F0, 0x3F9EF532, 0x3FA5FED7, 0x3FAD583F,
   0x3FB504F3, 0x3FBD08A4, 0x3FC5672A, 0x3FCE248C, 0x3FD744FD, 0x3FE0CCDF, 0x3FEAC0C7, 0x3FF5257D]

/-- `exp` (R88). -/
def fexp (x : F32) : F32 :=
  if isNan x then nan32
  else
    let y := fmul x LOG2E
    if !flt y 0x43000000 then posInf
    else if flt y 0xC2FC0000 then 0
    else
      let k : Int := match num y with
        | .fin m e => floorShift m (e + 4)
        | _ => 0
      let j := (k % 16).toNat
      let n := (k - j) / 16
      let r := fsub y (rne k (-4))
      let h := fma expC4 r expC3
      let h := fma h r expC2
      let h := fma h r expC1
      let p := fma h r one32
      match num (fmul (expT.getD j 0) p) with
      | .fin m e => rne m (e + n)
      | .zero s => zero32 s
      | .inf s => inf32 s
      | .nan => nan32

/-- `silu` (R89). -/
def silu (x : F32) : F32 :=
  match num x with
  | .nan => nan32
  | .inf true => 0x80000000
  | .inf false => posInf
  | _ => fmul x (recip (fadd one32 (fexp (fneg x))))

/-- The largest of a list by R82. -/
def fmaxAll (l : List F32) : F32 :=
  match l with
  | [] => negInf
  | x :: xs => xs.foldl fmax x

/-- `softmax` (R90). -/
def softmax (v : List F32) : List F32 :=
  if v.all (· == negInf) then v.map (fun _ => 0)
  else
    let m := fmaxAll v
    let e := v.map (fun x => fexp (fsub x m))
    let r := recip (sumAll e)
    e.map (fun x => fmul x r)

/-- `rmsnorm` (R91). -/
def rmsnorm (x g : List F32) (eps : F32) : List F32 :=
  let q := sumAll (x.map (fun a => fmul a a))
  let mu := fmul q (recip (rne x.length 0))
  let rho := rsqrt (fadd mu eps)
  x.zipWith (fun a b => fmul (fmul a rho) b) g

/-- The rotary sine and cosine at position `p` for frequency word `F` (R92). -/
def rotary (p F : Nat) : F32 × F32 :=
  let phi := p * F % 2 ^ 64
  let o := bits phi 63 61
  let w := bits phi 60 37
  let x : Nat := if o % 2 = 0 then w else 2 ^ 24 - w
  let xf := rne x (-27)
  let u := fmul xf xf
  let h := fma 0x42283C1A u 0xC2996966
  let h := fma h u 0x42A335E3
  let h := fma h u 0xC2255DE7
  let h := fma h u 0x40C90FDB
  let s0 := fmul h xf
  let g := fma 0xC1D368F9 u 0x4270FA83
  let g := fma g u 0xC2AAE9E4
  let g := fma g u 0x4281E0F8
  let g := fma g u 0xC19DE9E6
  let c0 := fma g u one32
  match o with
  | 0 => (s0, c0)
  | 1 => (c0, s0)
  | 2 => (c0, fneg s0)
  | 3 => (s0, fneg c0)
  | 4 => (fneg s0, fneg c0)
  | 5 => (fneg c0, fneg s0)
  | 6 => (fneg c0, s0)
  | _ => (fneg s0, c0)

/-- A pair rotates (R92). -/
def rotatePair (sc : F32 × F32) (a b : F32) : F32 × F32 :=
  (fsub (fmul a sc.2) (fmul b sc.1), fadd (fmul a sc.1) (fmul b sc.2))

/-! ## Small formats, conversions and exact accumulation (R77, R78, R80, R81, R83, R84, R86) -/

/-- A magnitude of `mb` mantissa bits and bias `bias`: m × 2^e, subnormals kept (Table 4-1). -/
def miniVal (mb bias n : Nat) : Nat × Int :=
  let ex := n / 2 ^ mb
  let man := n % 2 ^ mb
  if ex = 0 then (man, 1 - (bias : Int) - mb) else (2 ^ mb + man, (ex : Int) - bias - mb)

/-- A number with its sign, a zero where the magnitude is 0. -/
def signed (neg : Bool) (v : Nat × Int) : Num :=
  if v.1 = 0 then .zero neg else .fin (if neg then -(v.1 : Int) else v.1) v.2

/-- What an element of a format stands for (Table 4-1). -/
def fmtNum (f : Fmt) (n : Nat) : Num :=
  match f with
  | .fp32 => num (BitVec.ofNat 32 n)
  | .bf16 => num (BitVec.ofNat 32 (n * 65536))
  | .e4m3 => if n % 128 = 127 then .nan else signed (bit n 7) (miniVal 3 7 (n % 128))
  | .e5m2 =>
    if n % 128 = 0x7C then .inf (bit n 7) else if 0x7C < n % 128 then .nan else signed (bit n 7) (miniVal 2 15 (n % 128))
  | .e2m1 => signed (bit n 3) (miniVal 1 1 (n % 8))
  | .int8 => if n % 256 = 0 then .zero false else .fin (BitVec.ofNat 8 n).toInt 0

/-- A number as FP32: exact for every format of Table 4-1, one rounding of R79 otherwise; a NaN is the canonical one (R78). -/
def f32Of (x : Num) : F32 :=
  match x with
  | .nan => nan32
  | .inf neg => inf32 neg
  | .zero neg => zero32 neg
  | .fin m e => rne m e

/-- Element to FP32 (Table 4-2, first row). -/
def toF32 (f : Fmt) (n : Nat) : F32 := f32Of (fmtNum f n)

/-- BF16 to FP32, exactly; subnormals read as zero. -/
def bf16 (n : Nat) : F32 := toF32 .bf16 n

/-- Element × E8M0 scale to FP32, one rounding (Table 4-2); scale byte 0xFF is NaN. -/
def scaledF32 (f : Fmt) (n v : Nat) : F32 :=
  if v = 255 then nan32
  else match fmtNum f n with
    | .fin m e => rne m (e + ((v : Int) - 127))
    | x => f32Of x

/-- FP32 to BF16 (Table 4-2, R78). -/
def f32ToBf16 (x : F32) : Nat :=
  match num x with
  | .nan => 0x7FC0
  | .inf neg => if neg then 0xFF80 else 0x7F80
  | .zero neg => if neg then 0x8000 else 0
  | .fin m e => rneBf16 m e

/-- The exact value m × 2^e rounded, ties to even, to a format of `mb` mantissa bits with lowest exponent `emin`: the magnitude's code,
subnormals kept, saturating at `top` (Table 4-2). -/
def miniCode (mb : Nat) (emin : Int) (top : Nat) (m e : Int) : Nat :=
  let a := m.natAbs
  let ex : Int := max emin ((a.log2 : Int) + e)
  let k := e - (ex - mb)
  let q : Nat := if 0 ≤ k then a * 2 ^ k.toNat
    else
      let d := 2 ^ (-k).toNat
      let f := a / d
      let r := 2 * (a % d)
      if decide (d < r) || (r == d && f % 2 == 1) then f + 1 else f
  min top ((ex - emin).toNat * 2 ^ mb + q)

/-- The exact value m × 2^e to E4M3, E5M2 or E2M1; for INT8 the nearest integer; two's complement (Table 4-2). -/
def toMini (f : Fmt) (m e : Int) : Byte :=
  let neg := decide (m < 0)
  match f with
  | .e5m2 => BitVec.ofNat 8 ((if neg then 128 else 0) + miniCode 2 (-14) 0x7B m e)
  | .e2m1 => BitVec.ofNat 8 ((if neg then 8 else 0) + miniCode 1 0 7 m e)
  | .int8 =>
    let a := m.natAbs
    let q : Nat := if 0 ≤ e then a * 2 ^ e.toNat
      else
        let d := 2 ^ (-e).toNat
        if decide (d < 2 * (a % d)) || (2 * (a % d) == d && a / d % 2 == 1) then a / d + 1 else a / d
    BitVec.ofInt 8 (if neg then -(min q 128 : Nat) else (min q 127 : Nat))
  | _ => BitVec.ofNat 8 ((if neg then 128 else 0) + miniCode 3 (-6) 0x7E m e)

/-- A zero, or the largest magnitude, of a small format with its sign. -/
def miniEdge (f : Fmt) (neg zero : Bool) : Byte :=
  match f with
  | .e5m2 => (if neg then 128 else 0) + (if zero then 0 else 0x7B)
  | .e2m1 => (if neg then 8 else 0) + (if zero then 0 else 7)
  | .int8 => if zero then 0 else if neg then 0x80 else 0x7F
  | _ => (if neg then 128 else 0) + (if zero then 0 else 0x7E)

/-- FP32 to E4M3, E5M2, E2M1 or INT8 (Table 4-2). A NaN is 0x7F, 0x7E or 0; to E2M1 it has no conversion of its own, since R81 gives its
block scale 0xFF and elements 0. -/
def f32ToMini (f : Fmt) (x : F32) : Byte :=
  match num x with
  | .nan => match f with
    | .e4m3 => 0x7F
    | .e5m2 => 0x7E
    | _ => 0
  | .inf neg => miniEdge f neg false
  | .zero neg => miniEdge f neg true
  | .fin m e => toMini f m e

/-- FP32 to E4M3 (Table 4-2). -/
def f32ToE4m3 (x : F32) : Byte := f32ToMini .e4m3 x

/-- E4M3 to FP32. -/
def e4m3ToF32 (b : Byte) : F32 := toF32 .e4m3 b.toNat

/-- e_max of R81 step 3. -/
def eMax (f : Fmt) : Int :=
  match f with
  | .e5m2 => 15
  | .e2m1 => 2
  | _ => 8

/-- floor(log2) of the largest magnitude of a block, none when every value is zero. -/
def blockTop (ns : List Num) : Option Int :=
  ns.foldl (fun acc n => match n with
    | .fin m e =>
      let t : Int := (m.natAbs.log2 : Int) + e
      some (acc.elim t (max t))
    | _ => acc) none

/-- A block of 32 FP32 values quantized to MXFP8 (E4M3 or E5M2) or MXFP4 (E2M1): scale byte and elements (R81). -/
def mxBlock (f : Fmt) (x : List F32) : Nat × List Byte :=
  let ns := x.map num
  if ns.any (fun n => match n with | .nan => true | .inf _ => true | _ => false) then (0xFF, x.map (fun _ => 0))
  else match blockTop ns with
    | none => (0x00, x.map (fun _ => 0))
    | some top =>
      let X : Int := max (-127) (min 127 (top - eMax f))
      ((X + 127).toNat, ns.map (fun n => match n with
        | .fin m e => toMini f m (e - X)
        | .zero neg => miniEdge f neg true
        | _ => 0))

/-- Quantization of a vector to MXFP8 E4M3 by blocks of 32 (R81, R106). -/
def mx8 (x : List F32) : List (Nat × List Byte) := (chunksOf 32 x.length x).map (mxBlock .e4m3)

/-- The exponent of a format's smallest magnitude, negated: an element is a multiple of 2^−`gran` (Table 4-3). -/
def gran (f : Fmt) : Nat :=
  match f with
  | .e4m3 => 9
  | .e5m2 => 16
  | .e2m1 => 1
  | _ => 0

/-- An array operand as a multiple of 2^−`gran`; none for NaN and infinity (R83). -/
def elem (f : Fmt) (n : Nat) : Option Int :=
  match fmtNum f n with
  | .fin m e => some (scaleTo m e (-(gran f : Int)))
  | .zero _ => some 0
  | _ => none

/-- T of R83 from the blocks of a dot product: for each block e_i and the exact integer sum of its element products, a multiple of
2^−`p`; none when an element is NaN or infinite or a scale byte is 0xFF. With it, E. -/
def dotSum (p : Nat) (blocks : List (Int × Option Int)) : Option (Int × Int) :=
  if blocks.any (fun b => b.2.isNone) then none
  else
    let E : Int := match blocks with
      | [] => 0
      | b :: bs => bs.foldl (fun m x => max m x.1) b.1
    some (blocks.foldl (fun t b => t + floorShift (b.2.getD 0) (b.1 - (p : Int) + 40 - E)) 0, E)

/-- T lies outside the 80 bits of an accumulator (R83). -/
def accOverflows (T : Int) : Bool := decide (T < -(2 : Int) ^ 79 ∨ (2 : Int) ^ 79 ≤ T)

/-- The dot product of R83 from its blocks, converted once to FP32. -/
def dotBlocks (p : Nat) (blocks : List (Int × Option Int)) : F32 :=
  match dotSum p blocks with
  | none => nan32
  | some (T, E) => if accOverflows T then nan32 else rne T (E - 40)

/-- The same converted once to BF16, never by way of FP32 (R80). -/
def dotBlocksBf16 (p : Nat) (blocks : List (Int × Option Int)) : Nat :=
  match dotSum p blocks with
  | none => 0x7FC0
  | some (T, E) => if accOverflows T then 0x7FC0 else rneBf16 T (E - 40)

/-- The sum of products of two element lists, none when an element is NaN or infinite. -/
def prodSum (a b : List (Option Int)) : Option Int :=
  (a.zip b).foldl (fun acc x => match acc, x.1, x.2 with
    | some t, some u, some v => some (t + u * v)
    | _, _, _ => none) (some 0)

/-- The blocks of 32 of a dot product of formats `fa` and `fb` with the block scales `sa` and `sb`; a list of scales that is empty has
none, and its e_i is 0 (R83 steps 1 to 3). -/
def dotOperands (fa fb : Fmt) (a b sa sb : List Nat) : List (Int × Option Int) :=
  let A := chunksOf 32 a.length a
  let B := chunksOf 32 b.length b
  (List.range (max A.length B.length)).map (fun i =>
    let x := sa.getD i 127
    let y := sb.getD i 127
    ((x : Int) - 127 + ((y : Int) - 127),
     if x = 255 ∨ y = 255 then none else prodSum ((A.getD i []).map (elem fa)) ((B.getD i []).map (elem fb))))

/-- The dot product of two vectors of small formats (R83, the pairings of Table 4-3). -/
def dotMini (fa fb : Fmt) (a b sa sb : List Nat) : F32 := dotBlocks (gran fa + gran fb) (dotOperands fa fb a b sa sb)

/-- The exact dot product of two E4M3 vectors without scales, converted to FP32 (R93). -/
def dotE4m3 (a b : Bytes) : F32 :=
  dotBlocks 18 [(0, prodSum (a.map (fun x => elem .e4m3 x.toNat)) (b.map (fun x => elem .e4m3 x.toNat)))]

/-- The BF16 dot product and the FP32 dot product of the wide lanes: FP32 additions, over the canonical tree, of the rounded products
(Table 4-4; a product of two BF16 values is exact in FP32). -/
def dotLanes (a b : List F32) : F32 := sumAll (a.zipWith fmul b)

/-! ## Attention partials (R94, R95) -/

/-- A partial that is not empty: maximum, sum, outputs. The empty partial is none. -/
structure Partial where
  m : F32
  s : F32
  o : List F32
  deriving DecidableEq, Repr

/-- The partial of a KV block from its included positions: leaf index, score, value elements, indices rising (R94). -/
def blockPartial (hd : Nat) (es : List (Nat × F32 × List F32)) : Option Partial :=
  let m := fmaxAll (es.map (fun e => e.2.1))
  if es.isEmpty || m == negInf then none
  else
    let n := maxNat (es.map (·.1)) + 1
    let leaf := fun (f : F32 × List F32 → F32) =>
      (List.range n).map (fun i => (es.find? (fun e => e.1 == i)).map (fun e => f e.2))
    let ex := fun (sc : F32) => fexp (fsub sc m)
    some { m := m, s := treeSum (leaf (fun e => ex e.1)),
           o := (List.range hd).map (fun d => treeSum (leaf (fun e => fmul (ex e.1) (e.2.getD d 0)))) }

/-- The merge of two partials that are not empty (R95). -/
def mergePartial (l r : Partial) : Partial :=
  let m := fmax l.m r.m
  let a := fexp (fsub l.m m)
  let b := fexp (fsub r.m m)
  { m := m, s := fadd (fmul l.s a) (fmul r.s b),
    o := l.o.zipWith (fun x y => fadd (fmul x a) (fmul y b)) r.o }

/-- The attention output of a root (R95). -/
def rootOut (hd : Nat) : Option Partial → List F32
  | none => List.replicate hd 0
  | some p => let r := recip p.s; p.o.map (fun x => fmul x r)

/-- The attention output at the root of the block tree (R95). -/
def attnOut (hd : Nat) (blocks : List (Option Partial)) : List F32 := rootOut hd (treeRoot mergePartial blocks.length blocks)

/-! ## Modular arithmetic (R96, R97) -/

/-- Addition modulo q. -/
def modAdd (q a b : Nat) : Nat := if q ≤ a + b then a + b - q else a + b

/-- Subtraction modulo q. -/
def modSub (q a b : Nat) : Nat := if a < b then a + q - b else a - b

/-- The reduction of R97 of a product `x`. -/
def barrett (x q : Nat) : Nat :=
  let k := q.log2 + 1
  let mu := 2 ^ (2 * k) / q
  let t := x / 2 ^ (k - 1)
  let t := t * mu / 2 ^ (k + 1)
  let r := x - t * q
  let r := if q ≤ r then r - q else r
  if q ≤ r then r - q else r

/-- Multiplication modulo q (R97). -/
def modMul (q a b : Nat) : Nat := barrett (a * b) q

/-- a^n modulo q, from the bits of n; `fuel` bounds them. -/
def modPow (q : Nat) : Nat → Nat → Nat → Nat
  | 0, _, _ => 1 % q
  | fuel + 1, a, n =>
    if n = 0 then 1 % q
    else
      let h := modPow q fuel (a * a % q) (n / 2)
      if n % 2 = 1 then a * h % q else h

/-! ## Sampling (R98, R99) -/

/-- The uniform value of position `p` (R98). -/
def uniform (seed : Bytes) (p : Nat) : F32 :=
  let w := field (aes256 seed (leBytes 4 p ++ leBytes 4 1 ++ zeros 8)) 0 8
  rne ((w / 2 ^ 40 : Nat) : Int) (-24)

/-- Insert into a ranking: largest first, ties by the lower index, which came earlier. −0 and +0 tie: R99 gives them no order of their own.
(DESIGN CHOICE: log entry 80) -/
def rankInsert (x : F32 × Nat) : List (F32 × Nat) → List (F32 × Nat)
  | [] => [x]
  | y :: ys => if flt y.1 x.1 then x :: y :: ys else y :: rankInsert x ys

/-- Indices ranked by value (R99 step 3). -/
def ranking (a : List F32) : List (F32 × Nat) := a.zipIdx.foldl (fun l x => rankInsert x l) []

/-- The running sums, each with one rounding (R99 step 5). -/
def runningSums (acc : F32) : List F32 → List F32
  | [] => []
  | e :: es => let c := fadd acc e; c :: runningSums c es

/-- A sampling block's fields (Table 1-4). -/
def sTemp (b : Bytes) : F32 := BitVec.ofNat 32 (field b 0 4)
def sTopP (b : Bytes) : F32 := BitVec.ofNat 32 (field b 4 4)
def sTopK (b : Bytes) : Nat := field b 8 4
def sMaxNew (b : Bytes) : Nat := field b 12 4
def sStops (b : Bytes) : List Nat := [field b 16 4, field b 20 4, field b 24 4]

/-- The temperature is ±0 (R99 step 1, R100). -/
def isZero (x : F32) : Bool := match num x with | .zero _ => true | _ => false

/-- The token chosen from the logits at position `p` (R99). -/
def sample (seed sampling : Bytes) (z : List F32) (p : Nat) : Nat :=
  let z := z.map (fun x => if isNan x then negInf else x)
  let T := sTemp sampling
  if isZero T then ((ranking z).head?.map (·.2)).getD 0
  else
    let rt := recip T
    let a := z.map (fun x => let v := fmul x rt; if isNan v then negInf else v)
    let K := let k := sTopK sampling; if decide (0 < k ∧ k < z.length) then k else z.length
    let ranks := (ranking a).take K
    match ranks with
    | [] => 0
    | (a0, i0) :: _ =>
      if a0 == negInf then 0
      else if a0 == posInf then i0
      else
        let e := ranks.map (fun x => fexp (fsub x.1 a0))
        let S := sumAll e
        let kept : Nat :=
          if flt (sTopP sampling) one32 then
            let theta := fmul (sTopP sampling) S
            match (runningSums 0 e).findIdx? (fun c => !flt c theta) with
            | some i => i + 1
            | none => e.length
          else e.length
        let e := e.take kept
        let t := fmul (uniform seed p) (sumAll e)
        let r := ((runningSums 0 e).findIdx? (fun c => flt t c)).getD (kept - 1)
        ((ranks[r]?).map (·.2)).getD 0

end Sys2Proof.Machine
end

