-- ==== Sys2Proof/Machine/Datapath.lean ====
section
/-! DEFINITION. What an action computes: the operations of Arithmetic Edition 1 on the data it consumes, in its graver's array,
accumulators and wide lanes and in its sheet's crossbar (03_fabric_and_plates.md R52 to R55, 04_arithmetic_edition_1.md R76 to R92). -/

namespace Sys2Proof.Machine

/-- The elements of a packed vector. -/
def elemsOf (f : Fmt) (b : Bytes) : List Nat :=
  match f with
  | .fp32 => (chunksOf 4 b.length b).map leNat
  | .bf16 => (chunksOf 2 b.length b).map leNat
  | .e2m1 => b.flatMap (fun x => [x.toNat % 16, x.toNat / 16])
  | _ => b.map (·.toNat)

/-- Pairs of 4-bit codes as bytes, the low half first. -/
def nibbles : List Nat → Bytes
  | a :: b :: l => BitVec.ofNat 8 (a % 16 + 16 * (b % 16)) :: nibbles l
  | [a] => [BitVec.ofNat 8 (a % 16)]
  | [] => []

/-- A vector of codes, packed. -/
def packElems (f : Fmt) (l : List Nat) : Bytes :=
  match f with
  | .fp32 => l.flatMap (leBytes 4)
  | .bf16 => l.flatMap (leBytes 2)
  | .e2m1 => nibbles l
  | _ => l.map (BitVec.ofNat 8)

/-- FP32 words of a byte string, and back. -/
def lanesOf (b : Bytes) : List F32 := (elemsOf .fp32 b).map (BitVec.ofNat 32)
def packLanes (l : List F32) : Bytes := packElems .fp32 (l.map (·.toNat))

/-- 64-bit words of a byte string, and back. -/
def wordsIn (b : Bytes) : List Nat := (chunksOf 8 b.length b).map leNat
def packWords (l : List Nat) : Bytes := l.flatMap (leBytes 8)

/-- One conversion of Table 4-2 into a format. -/
def convertTo (dst : Fmt) (x : F32) : Nat :=
  match dst with
  | .fp32 => x.toNat
  | .bf16 => f32ToBf16 x
  | f => (f32ToMini f x).toNat

/-- The chunks of a product of at most 65,536 elements each, by the bound of R83 (R86). -/
def dotChunks (a b sa sb : List Nat) : List (List Nat × List Nat × List Nat × List Nat) :=
  let cut := fun (k : Nat) (l : List Nat) (i : Nat) => (l.drop (k * i)).take k
  (List.range (max 1 ((a.length + 65535) / 65536))).map (fun i => (cut 65536 a i, cut 65536 b i, cut 2048 sa i, cut 2048 sb i))

/-- The dot product of one row (R83); beyond 65,536 elements, those of its chunks added over the canonical tree (R86). -/
def rowDot (fa fb : Fmt) (a b sa sb : List Nat) : F32 :=
  sumAll ((dotChunks a b sa sb).map (fun c => dotMini fa fb c.1 c.2.1 c.2.2.1 c.2.2.2))

/-- T of each chunk of a row as its accumulator holds it: 80 bits, and whether it overflowed (R52, R83). After a NaN or infinite operand or a
scale byte 0xFF, what it holds is a free value, and no overflow counts. (DESIGN CHOICE: log entry 79) -/
def rowAcc (fa fb : Fmt) (a b sa sb : List Nat) : List (BitVec 80 × Bool) :=
  (dotChunks a b sa sb).map (fun c => match dotSum (gran fa + gran fb) (dotOperands fa fb c.1 c.2.1 c.2.2.1 c.2.2.2) with
    | none => (Config.openAcc (dotOperands fa fb c.1 c.2.1 c.2.2.1 c.2.2.2), false)
    | some (T, _) => (BitVec.ofInt 80 T, accOverflows T))

/-- The rows of a matrix operand with the scales of each. -/
def rowsOf (f : Fmt) (n : Nat) (b s : Bytes) : List (List Nat × List Nat) :=
  let r := chunksOf n (elemsOf f b).length (elemsOf f b)
  let k := (n + 31) / 32
  let sc := chunksOf k s.length (s.map (·.toNat))
  r.zipIdx.map (fun x => (x.1, sc.getD x.2 []))

/-- One of the 256 permutations that a plate holds for a sheet's crossbar: bijective on 512 words (R55); what is no permutation moves nothing. -/
def permOf (image : Bytes) (sheet k : Nat) : List Nat :=
  let l := Config.platePerm image sheet (k % 256)
  if l.length == 512 && (List.range 512).all l.contains then l else List.range 512

/-- One pass of 512 words of 64 bits through a crossbar: none is doubled, dropped or altered (R55). -/
def crossbar (perm : List Nat) (ws : List Nat) : List Nat := perm.map (fun i => ws.getD i 0)

/-- The words of a graver among the operands of an action, each with the unit that published it, or the action's own for what it read from
memory or worked out. -/
def graverWords (g : Nat) (args : List (Nat × Bytes)) : List Nat := (args.filter (·.1 == g)).flatMap (fun a => wordsIn a.2)

/-- The words that enter pass `p` of a sheet's crossbar: 32 from the lanes of each of its 16 gravers, and of no other graver (R55). A lane of
which the action names no word gives what the image's datapath leaves there. (DESIGN CHOICE: log entry 79) -/
def crossbarIn (image : Bytes) (sheet p : Nat) (args : List (Nat × Bytes)) : List Nat :=
  (List.range 16).flatMap (fun i =>
    let w := graverWords (sheet * 16 + i) args
    (List.range 32).map (fun l => (w[p * 32 + l]?).getD (Config.idleLane image (i * 32 + l)).toNat))

/-- The crossbar of a graver's sheet (R55): as many passes as its fullest graver needs, and of each the 32 words that the graver's own lanes
receive. A service or I/O domain has no crossbar. -/
def crossbarFor (image : Bytes) (unit k : Nat) (args : List (Nat × Bytes)) : List Nat :=
  if unit < 512 then
    let sheet := unit / 16
    let passes := maxNat ((List.range 16).map (fun i => ((graverWords (sheet * 16 + i) args).length + 31) / 32))
    (List.range passes).flatMap (fun p =>
      ((crossbar (permOf image sheet k) (crossbarIn image sheet p args)).drop (unit % 16 * 32)).take 32)
  else []

/-- The exact 128-bit product of two 64-bit integers (R53, Table 3-2), of numbers with a sign or without. (DESIGN CHOICE: log entry 79) -/
def wideProduct (signed : Bool) (a b : Nat) : Bytes :=
  let v := fun (n : Nat) => if signed then (BitVec.ofNat 64 n).toInt else (n : Int)
  bvBytes 16 (BitVec.ofInt 128 (v a * v b))

/-- Two FP32 vectors lane by lane. -/
def lanewise (op : F32 → F32 → F32) (x y : Bytes) : Bytes := packLanes ((lanesOf x).zipWith op (lanesOf y))

/-- What a comparison leaves in each lane. -/
def compareWise (op : F32 → F32 → Bool) (x y : Bytes) : Bytes :=
  (lanesOf x).zipWith (fun a b => BitVec.ofNat 8 (b2n (op a b))) (lanesOf y)

/-- Residues word by word. -/
def residueWise (op : Nat → Nat → Nat) (x y : Bytes) : Bytes := packWords ((wordsIn x).zipWith op (wordsIn y))

/-- The result of an operation of a unit on its operands, each with the unit that it comes from. -/
def evalOp (image : Bytes) (unit : Nat) (op : EdOp) (args0 : List (Nat × Bytes)) : Bytes :=
  let args := args0.map (·.2)
  let x := args.getD 0 []
  let y := args.getD 1 []
  let z := args.getD 2 []
  match op with
  | .dot fa fb n toBf16 =>
    let b := elemsOf fb y
    let sb := (args.getD 3 []).map (·.toNat)
    (rowsOf fa n x z).flatMap (fun r =>
      if toBf16 && decide (n ≤ 65536) then
        leBytes 2 (dotBlocksBf16 (gran fa + gran fb) (dotOperands fa fb r.1 b r.2 sb))
      else leBytes 4 (rowDot fa fb r.1 b r.2 sb).toNat)
  | .laneDot f n =>
    let b := (elemsOf f y).map (toF32 f)
    (rowsOf f n x []).flatMap (fun r => leBytes 4 (dotLanes (r.1.map (toF32 f)) b).toNat)
  | .convert src dst => packElems dst ((elemsOf src x).map (fun e => convertTo dst (toF32 src e)))
  | .unscale f => packLanes ((elemsOf f x).zipIdx.map (fun e => scaledF32 f e.1 (y.getD (e.2 / 32) 127).toNat))
  | .quantize f =>
    packElems f ((chunksOf 32 (lanesOf x).length (lanesOf x)).flatMap (fun c => (mxBlock f c).2.map (·.toNat)))
  | .scales f => (chunksOf 32 (lanesOf x).length (lanesOf x)).map (fun c => BitVec.ofNat 8 (mxBlock f c).1)
  | .add => lanewise fadd x y
  | .sub => lanewise fsub x y
  | .mul => lanewise fmul x y
  | .fma => packLanes (((lanesOf x).zip (lanesOf y)).zipWith (fun p c => Machine.fma p.1 p.2 c) (lanesOf z))
  | .min => lanewise fmin x y
  | .max => lanewise fmax x y
  | .less => compareWise flt x y
  | .equal => compareWise feq x y
  | .recip => packLanes ((lanesOf x).map Machine.recip)
  | .rsqrt => packLanes ((lanesOf x).map Machine.rsqrt)
  | .exp => packLanes ((lanesOf x).map fexp)
  | .silu => packLanes ((lanesOf x).map Machine.silu)
  | .softmax => packLanes (Machine.softmax (lanesOf x))
  | .rmsnorm eps => packLanes (Machine.rmsnorm (lanesOf x) (lanesOf y) eps)
  | .rotate freq pos =>
    let r := (lanesOf x).zipWith (rotatePair (rotary pos freq.toNat)) (lanesOf y)
    packLanes (r.map (·.1) ++ r.map (·.2))
  | .modAdd q => residueWise (Machine.modAdd q) x y
  | .modSub q => residueWise (Machine.modSub q) x y
  | .modMul q => residueWise (Machine.modMul q) x y
  | .intMul signed => ((wordsIn x).zipWith (wideProduct signed) (wordsIn y)).flatten
  | .permute k => packWords (crossbarFor image unit k args0)
  | .join => args.flatten

/-- What an operation leaves in the accumulators of its graver, and how many of them overflowed (R52, R83). -/
def accOp (op : EdOp) (args : List Bytes) : List (BitVec 80) × Nat :=
  match op with
  | .dot fa fb n _ =>
    let b := elemsOf fb (args.getD 1 [])
    let sb := (args.getD 3 []).map (·.toNat)
    let l := (rowsOf fa n (args.getD 0 []) (args.getD 2 [])).flatMap (fun r => rowAcc fa fb r.1 b r.2 sb)
    (l.map (·.1), (l.filter (·.2)).length)
  | _ => ([], 0)

/-- An action's work so far: its values, the accumulators as its last product left them, and the overflows. -/
structure Worked where
  vals : List Bytes
  accs : List (BitVec 80)
  ovf  : Nat

/-- The steps of an action of a unit over the data it consumed, the first of them published by the units `srcs`. -/
def runSteps (image : Bytes) (unit : Nat) (steps : List EdStep) (srcs : List Nat) (inputs : List Bytes) : Worked :=
  steps.foldl (fun w st =>
    let args := st.args.map (fun i => (srcs.getD i unit, w.vals.getD i []))
    let a := accOp st.op (args.map (·.2))
    { vals := w.vals ++ [evalOp image unit st.op args], accs := if a.1.isEmpty then w.accs else a.1, ovf := w.ovf + a.2 })
    { vals := inputs, accs := [], ovf := 0 }

end Sys2Proof.Machine
end

