-- ==== Sys2Proof/Machine/Regs.lean ====
section
/-! DEFINITION. The register spaces: which block lies at an offset of a function's BAR0 (Tables 15-3, 15-4, R17), what a
32-bit read of each register returns (each block's register table), and what a write does to each field (R15). -/

namespace Sys2Proof.Machine

/-- The blocks of Table 0-6 and the doorbell pages. -/
inductive Blk where
  | ids | rst | clk | prs | cvu | ent | pla | hif | grv | kst | mpr | buf | tst | mbx | tlm
  | fnStatus | ptn | hev | lnk | rdm | doorEvent | doorWork | doorCompletion
  deriving DecidableEq, Repr

/-- The block that occupies an offset of BAR0 of a function, and the offset within it (Tables 15-3 and 15-4, R17). -/
def blockAt (fn : Nat) (off : Nat) : Option (Blk × Nat) :=
  let page := off / 0x1000
  if fn = 0 then
    if page = 0x0 then some (.ids, off)
    else if page = 0x1 then some (.rst, off - 0x1000)
    else if page = 0x2 then some (.clk, off - 0x2000)
    else if page = 0x3 then some (.prs, off - 0x3000)
    else if page = 0x4 then some (.cvu, off - 0x4000)
    else if page = 0x5 then some (.ent, off - 0x5000)
    else if page = 0x6 then some (.pla, off - 0x6000)
    else if page = 0x7 then some (.hif, off - 0x7000)
    else if page = 0x8 || page = 0x9 then some (.grv, off - 0x8000)
    else if page = 0xA then some (.kst, off - 0xA000)
    else if page = 0xB then some (.mpr, off - 0xB000)
    else if page = 0xC then some (.buf, off - 0xC000)
    else if page = 0xD then some (.tst, off - 0xD000)
    else if decide (0x10000 ≤ off ∧ off < 0x1C000) then some (.mbx, off - 0x10000)
    else if decide (0x20000 ≤ off ∧ off < 0x30000) then some (.tlm, off - 0x20000)
    else if decide (0x100000 ≤ off ∧ off < 0x110000) then some (.doorEvent, off - 0x100000)
    else none
  else if page = 0 then some (.fnStatus, off)
  else if fn = 2 then (if page = 1 then some (.ptn, off - 0x1000) else none)
  else if decide (0x100000 ≤ off ∧ off < 0x110000) then some (.doorWork, off - 0x100000)
  else if decide (0x110000 ≤ off ∧ off < 0x120000) then some (.doorCompletion, off - 0x110000)
  else if fn = 3 && page = 1 then some (.hev, off - 0x1000)
  else if fn = 4 && page = 1 then some (.lnk, off - 0x1000)
  else if fn = 4 && page = 2 then some (.rdm, off - 0x2000)
  else none

/-- A naturally aligned access of `w` bytes. -/
def aligned (off w : Nat) : Bool := w != 0 && off % w == 0

/-- The offset within a mailbox window is one of the command header or the payload (Table 16-1). -/
def windowData (o : Nat) : Bool := decide (o < 0x20) || decide (0x40 ≤ o ∧ o < 0x4000)

/-- The access has the right width (R17). -/
def rightWidth (b : Blk) (off width : Nat) (isWrite : Bool) : Bool :=
  match b with
  | .mbx => if windowData (off % 0x4000) then [1, 2, 4, 8].contains width && aligned off width else width == 4 && aligned off 4
  | .tlm => [1, 2, 4, 8].contains width && aligned off width
  | .doorEvent | .doorWork | .doorCompletion =>
    !isWrite || (width == 8 && aligned off 8)
  | _ => width == 4 && aligned off 4

/-- The access is right under R17: some block occupies the offset, and the width is right. -/
def rightAccess (fn off width : Nat) (isWrite : Bool) : Bool :=
  match blockAt fn off with
  | none => false
  | some (b, o) => rightWidth b o width isWrite

/-- R17: an access of the wrong width or to an offset that no block occupies is counted. -/
def countBad (s : State) : State :=
  modHif (fun h => { h with badAccess := sat h.badAccess, sticky := setBit h.sticky 1 }) s

/-- R395: until option load ends after a core reset, blocks on the compute dies or in the control processor complex read 0
and ignore writes. (DEDUCED: log entries 18, 19) -/
def blockDown (s : State) (b : Blk) : Bool :=
  (s.rst.optLoad || s.rst.inReset) && (b == .grv || b == .mbx)

/-! ## Register values -/

/-- A signed reading as 8 bits of two's complement. -/
def byteOfInt (i : Int) : Nat := (BitVec.ofInt 8 i).toNat

/-- Word `i` of a byte string. -/
def wordOf (b : Bytes) (i : Nat) : Nat := field b (4 * i) 4

/-- IDS, Table 0-9 (R18): 0 before the end of option load. -/
def idsReg (s : State) (off : Nat) : Nat :=
  if !s.idsOk then 0
  else if off = 0x000 then s.partId.toNat
  else if off = 0x004 then Config.stepping.toNat
  else if off = 0x008 then 0x0001
  else if decide (0x040 ≤ off ∧ off < 0x080) then
    match s.kst.slots.find? (·.slot == 0) with
    | some k => wordOf (sha512 k.pub) ((off - 0x040) / 4)
    | none => 0
  else 0

/-- RST, Table 20-6. -/
def rstReg (s : State) (off : Nat) : Nat :=
  if off = 0x000 then s.rst.last * 16 + b2n s.rst.coreSeen * 4 + b2n s.rst.systemSeen * 2 + b2n s.rst.powerOn
  else if off = 0x004 then s.backup.resetCount
  else if off = 0x008 then s.rst.optRestarts
  else if off = 0x00C then b2n s.rst.optBad * 2 + b2n s.rst.shortPulse
  else if off = 0x010 then s.rst.optBadCnt
  else if off = 0x014 then s.rst.coreCnt
  else 0

/-- CLK, Table 21-4. -/
def clkReg (s : State) (off : Nat) : Nat :=
  let c := s.clk
  if off = 0x000 then
    (if c.capReq = 0 then 0 else 2048) + b2n (thermLow s) * 1024 + 256 * b2n (s.clk.idle && pressIdle s) +
      c.dies.a0.div + 4 * c.dies.a1.div + 16 * c.dies.a2.div + 64 * c.dies.a3.div
  else if off = 0x004 then c.sticky.toNat
  else if off = 0x008 then c.capW
  else if off = 0x00C then c.vinMv * 65536 + powerReading s
  else if decide (0x010 ≤ off ∧ off < 0x024) then
    let t := get5 c.temps ((off - 0x010) / 4)
    byteOfInt t.tjMax * 256 + byteOfInt t.tj
  else if decide (0x030 ≤ off ∧ off < 0x040) then timeReading s (get4 c.dies ((off - 0x030) / 4)).throttleUs
  else if off = 0x044 then c.stepCnt
  else 0

/-- `PRS.STALL_DOMAIN` as it reads: coarsened to the die's first service domain (Table 2-7). (DEDUCED: log entry 43) -/
def stallDomainRead (s : State) : Nat :=
  let d := s.prs.stallDomain
  if confidential s && decide (d < 512) then 512 + d / 128 * 7 else d

/-- PRS, Tables 2-4 to 2-9. -/
def prsReg (s : State) (off : Nat) : Nat :=
  let p := s.prs
  if off = 0x000 then p.stroke % 2 ^ 32
  else if off = 0x004 then p.strokeHi
  else if off = 0x008 then b2n p.stalled * 8 + b2n (exhausted s) * 4 + b2n (guardSet s) * 2 + b2n (pressIdle s)
  else if off = 0x00C then p.sticky.toNat
  else if off = 0x010 then p.limitMs
  else if off = 0x014 then stallDomainRead s
  else if off = 0x020 then p.snapAt % 2 ^ 32
  else if off = 0x024 then p.snapAt / 2 ^ 32
  else if off = 0x028 then b2n p.snapDone * 4 + b2n p.snapPending * 2
  else if off = 0x030 then p.lastApply % 2 ^ 32
  else if off = 0x034 then p.lastApplyHi
  else if off = 0x038 then (participants s).length
  else 0

/-- The CRC-32C or CRC-64 result of the unit: the register XOR the final value (R382). -/
def cvuResult (c : CvuState) : Nat :=
  if c.poly then (c.reg ^^^ 0xFFFFFFFFFFFFFFFF#64).toNat else ((c.reg &&& 0xFFFFFFFF#64) ^^^ 0xFFFFFFFF#64).toNat

/-- CVU, Table 19-4, without the read of RESULT_LO, which has a row of its own. -/
def cvuReg (s : State) (off : Nat) : Nat :=
  let c := s.cvu
  if off = 0x000 then b2n c.poly
  else if off = 0x004 then c.queue.length * 2 + b2n (!c.queue.isEmpty)
  else if off = 0x008 then c.sticky.toNat
  else if off = 0x010 then c.fold.toNat % 2 ^ 32
  else if off = 0x014 then c.fold.toNat / 2 ^ 32
  else if off = 0x028 then cvuResult c % 2 ^ 32
  else if off = 0x02C then (if c.poly then c.resultHi.toNat else 0)
  else 0

/-- ENT, Table 19-2. -/
def entReg (s : State) (off : Nat) : Nat :=
  let e := s.ent
  if off = 0x000 then
    b2n e.reseeding * 512 + b2n e.ready * 256 +
      sumNat ((List.range 8).map (fun i => match e.sources[i]? with
        | some x => if x.passed = 4 then 2 ^ i else 0
        | none => 0))
  else if off = 0x004 then e.sticky.toNat
  else if off = 0x008 then e.reseedCnt
  else if off = 0x00C then e.hostWait
  else if decide (0x010 ≤ off ∧ off < 0x030) then
    match e.sources[(off - 0x010) / 4]? with
    | some x => x.aptFail * 65536 + x.rctFail
    | none => 0
  else 0

/-- Bytes of the staged images. -/
def storeUsed (s : State) : Nat := sumNat (s.pla.store.map (·.image.length))

/-- PLA, Tables 3-10 to 3-12. -/
def plaReg (s : State) (off : Nat) : Nat :=
  let p := s.pla
  if off = 0x000 then (if p.swaps.isEmpty then 0 else 2048) + b2n (loading s) * 1024 + p.store.length
  else if off = 0x004 then p.sticky.toNat
  else if off = 0x008 then (sheetBusy s).toNat
  else if off = 0x00C then (sheetTwin s).toNat
  else if off = 0x010 then p.twinCnt
  else if off = 0x014 then p.loadRate
  else if off = 0x018 then p.lastSwap % 2 ^ 32
  else if off = 0x01C then p.lastSwapHi
  else if off = 0x020 then (storeUsed s + 0xFFFFF) / 0x100000
  else 0

/-- GRV, Table 3-13 (R75): in OWNED_CONFIDENTIAL every word reads 0. -/
def grvReg (s : State) (off : Nat) : Nat :=
  let g := off / 16
  if confidential s then 0
  else if off % 16 = 0 then
    (if (sheetTwin s).getLsbD (sheetOf g) && decide (256 ≤ g) then 2 ^ 31 else 0) +
      (if s.pla.activeBuf.getLsbD g then 2 ^ 30 else 0) + (if s.pla.shadowVld.getLsbD g then 2 ^ 29 else 0) +
      sumNat ((List.range 16).map (fun b => if (resvBanks s).contains (g * 16 + b) then 2 ^ b else 0))
  else if off % 16 = 4 then mapGet s.pla.parityCnt g
  else 0

/-- HIF, Table 15-8. -/
def hifReg (s : State) (off : Nat) : Nat :=
  let h := s.hif
  if off = 0x000 then b2n h.up * 64 + b2n h.flit * 32 + h.width * 8 + h.speed
  else if off = 0x004 then h.sticky.toNat
  else if off = 0x008 then h.badAccess
  else if off = 0x00C then h.bar2Deny
  else if off = 0x010 then tdiCode h.tdi
  else if off = 0x014 then h.tdiReject
  else if off = 0x018 then h.hostErr
  else if decide (0x020 ≤ off ∧ off < 0x034) then (get5 h.fns ((off - 0x020) / 4)).bar2
  else if decide (0x040 ≤ off ∧ off < 0x054) then
    let f := get5 h.fns ((off - 0x040) / 4)
    b2n f.d3hot * 4 + b2n f.fenced * 2 + b2n f.quiesced
  else 0

/-- HIF.FN_STATUS, Table 15-9. -/
def fnStatusReg (s : State) (fn off : Nat) : Nat :=
  if off = 0 then
    let f := get5 s.hif.fns fn
    fn * 256 + b2n f.d3hot * 4 + b2n f.fenced * 2 + b2n f.quiesced
  else 0

/-- Full tenant slots, slots 64 to 255 (Table 17-2, `TENANT_USED`). -/
def tenantUsed (s : State) : Nat := (s.kst.slots.filter (fun k => decide (64 ≤ k.slot))).length

/-- KST, Table 17-11. -/
def kstReg (s : State) (off : Nat) : Nat :=
  let k := s.kst
  if off = 0x000 then b2n (attestReady s) * 512 + b2n (identityReady s) * 256 + tenantUsed s
  else if off = 0x004 then k.sticky.toNat
  else if off = 0x008 then k.unwrapFail
  else if off = 0x00C then k.staleWrap
  else if off = 0x010 then k.engineDeny
  else 0

/-- MPR, Table 18-10. (DEDUCED: log entry 39) -/
def mprReg (s : State) (off : Nat) : Nat :=
  let m := s.mpr
  if off = 0x000 then m.sweepPct * 8 + b2n m.wiping * 4 + b2n m.sweep * 2 + b2n m.activeB
  else if off = 0x004 then m.sticky.toNat
  else if off = 0x008 then m.sweepRate
  else if off = 0x00C then m.macFail
  else if off = 0x010 then m.treeFail
  else if off = 0x014 then m.poisonMark
  else if off = 0x018 then m.treeMiss
  else if off = 0x01C then m.reencrypt
  else if off = 0x020 then m.epoch
  else 0

/-- A port is in ring mode. -/
def ringPort (s : State) (p : Nat) : Bool := (get5 s.ports p).mode == 2

/-- Cells a channel's packets occupy. -/
def chanOcc (c : Channel) : Nat := sumNat (c.fifo.map (·.1))

/-- Cells a channel's guarantee holds: 0 on a ring port (R286). -/
def chanGuar (s : State) (i : Nat) (c : Channel) : Nat := if ringPort s (i / 8) then 0 else c.guar * 64

/-- Free cells of the common reserve (R286, R287); 0 before option load has ended. (DEDUCED: log entry 19) -/
def reserveFree (s : State) : Nat :=
  if s.rst.optLoad || s.rst.inReset then 0
  else
    let guar := sumNat (s.buf.channels.zipIdx.map (fun x => chanGuar s x.2 x.1))
    let lent := sumNat (s.buf.channels.zipIdx.map (fun x => chanOcc x.1 - chanGuar s x.2 x.1))
    let rings := ((List.range 5).filter (ringPort s)).length * s.buf.ringShare * 4096
    1048576 - (guar + lent + rings + s.ptn.stageMib * 4096)

/-- The mask of asserted channels from `lo`, `n` of them. -/
def pauseMask (s : State) (lo n : Nat) : Nat :=
  sumNat ((List.range n).map (fun i => match s.buf.channels[lo + i]? with
    | some c => if c.asserted then 2 ^ i else 0
    | none => 0))

/-- BUF, Tables 14-7 and 14-8. -/
def bufReg (s : State) (off : Nat) : Nat :=
  let b := s.buf
  if off = 0x000 then reserveFree s
  else if off = 0x004 then b.sticky.toNat
  else if off = 0x008 then b.ringShare
  else if off = 0x00C then b.parity
  else if off = 0x010 then b.doorbell
  else if off = 0x014 then pauseMask s 0 32
  else if off = 0x018 then pauseMask s 32 8
  else if decide (0x100 ≤ off ∧ off < 0x380) then
    match b.channels[(off - 0x100) / 16]? with
    | none => 0
    | some c =>
      if off % 16 = 0 then c.low * 2 ^ 24 + c.high * 2 ^ 16 + c.borrow * 2 ^ 8 + c.guar
      else if off % 16 = 4 then chanOcc c
      else if off % 16 = 8 then c.overrun
      else c.oversize
  else if decide (0x400 ≤ off ∧ off < 0x450) then
    let p := (off - 0x400) / 16
    let x := get5 b.shares p
    if off % 16 = 0 then (if ringPort s p then x.cells else 0)
    else if off % 16 = 4 then x.overrun
    else if off % 16 = 8 then x.oversize
    else x.xoffCnt
  else 0

/-- Self-test kinds: 1 logic, 2 memory, 3 HBM pattern. -/
def testKind (s : State) : Nat :=
  match s.tst.running with
  | some (k, _, _) => k
  | none => 0

/-- TST, Table 22-7. -/
def tstReg (s : State) (off : Nat) : Nat :=
  let k := testKind s
  if off = 0x000 then (if k = 3 then 4 else 0) + (if k = 2 then 2 else 0) + (if k = 1 then 1 else 0)
  else if off = 0x004 then s.tst.sticky.toNat
  else if off = 0x008 then
    Config.stepping.toNat * 2 ^ 28 + s.partId.toNat * 2 ^ 12 + Config.manufacturer.toNat * 2 + 1
  else if off = 0x00C then s.tst.failCnt
  else if off = 0x010 then b2n (debugLive s)
  else 0

/-- The mailbox registers of one window, Table 16-3. -/
def mbxReg (s : State) (mb off : Nat) : Nat :=
  let b := get4 s.mbx.boxes mb
  if off = 0x020 then b2n b.irqEn * 2 ^ 22 + b.vector * 2 ^ 16
  else if off = 0x024 then b.state
  else if off = 0x028 then b.sticky.toNat
  else if off = 0x02C then cpStatus s
  else if off = 0x030 then b2n s.mbx.overrun * 2 + b2n s.mbx.ring.isSome
  else if off = 0x034 then s.mbx.lost
  else 0

/-- PTN, Table 9-9. -/
def ptnReg (s : State) (off : Nat) : Nat :=
  let p := s.ptn
  if off = 0x000 then p.rounds.length
  else if off = 0x004 then p.sticky.toNat
  else if off = 0x008 then p.stageMib
  else if off = 0x010 then p.admitCnt
  else if off = 0x014 then p.dupCnt
  else if off = 0x018 then p.staleCnt
  else if off = 0x01C then p.formatCnt
  else if off = 0x020 then p.stagePoison
  else if off = 0x024 then p.icvCnt
  else if off = 0x028 then p.poisonCnt
  else if off = 0x02C then p.correctCnt
  else if off = 0x030 then p.withheldCnt
  else 0

/-- HEV, Tables 10-10 and 11-2. -/
def hevReg (s : State) (off : Nat) : Nat :=
  let h := s.hev
  if off = 0x000 then h.ctxs.length
  else if off = 0x004 then h.sticky.toNat
  else if off = 0x010 then h.opCnt
  else if off = 0x014 then h.mismatch
  else if off = 0x018 then h.levelCnt
  else if off = 0x01C then h.autoFault
  else if off = 0x020 then h.autoCheck
  else if off = 0x028 then h.keyStream % 2 ^ 32
  else if off = 0x02C then h.streamHi
  else if off = 0x030 then h.resHit
  else if off = 0x034 then h.burnishCnt
  else 0

/-- `LNK.STATUS` (Table 12-7). -/
def lnkStatus (p : Port) : Nat :=
  p.lock * 4096 + p.reason * 256 + p.rate * 32 + b2n p.keyed * 16 + b2n p.xoffOut * 8 + b2n p.up * 4 + p.mode

/-- LNK of one port, Table 12-7. -/
def lnkReg (p : Port) (off : Nat) : Nat :=
  if off = 0x00 then lnkStatus p
  else if off = 0x04 then p.sticky.toNat
  else if off = 0x10 then p.fecCorr
  else if off = 0x14 then p.fecUncorr
  else if off = 0x18 then p.tagFail
  else if off = 0x1C then p.retx
  else if off = 0x20 then p.dup
  else if off = 0x24 then p.epochDrop
  else if off = 0x28 then p.hopDrop
  else if off = 0x2C then p.macDrop
  else if off = 0x30 then p.pauseRx
  else if off = 0x34 then p.ecnMark
  else if off = 0x38 then p.rekeyCnt
  else 0

/-- RDM, Table 13-10. -/
def rdmReg (s : State) (off : Nat) : Nat :=
  let r := s.rdm
  if off = 0x000 then r.conns.length
  else if off = 0x004 then r.sticky.toNat
  else if off = 0x008 then r.aiGbps * 256 + r.gShift
  else if off = 0x00C then (r.windows.filter (·.revoking)).length
  else if off = 0x010 then r.accessViol
  else if off = 0x014 then r.dup
  else if off = 0x018 then r.staleDup
  else if off = 0x01C then r.ctxMiss
  else if off = 0x020 then r.missDrop
  else if off = 0x024 then r.retx
  else if off = 0x028 then r.timeout
  else if off = 0x02C then r.rnrTx
  else if off = 0x030 then r.rnrRx
  else if off = 0x034 then r.cnpTx
  else if off = 0x038 then r.cnpRx
  else if off = 0x03C then r.poison
  else if off = 0x040 then r.flush
  else if off = 0x044 then r.badPkt
  else 0

/-- A byte of a mailbox window (Table 16-1). Completion payload bytes beyond CPL_LENGTH are undefined until written (R312). (DEDUCED: log entry 16) -/
def windowByte (s : State) (mb off : Nat) : Byte :=
  let b := get4 s.mbx.boxes mb
  if windowData off then
    match b.cplEnd with
    | some n =>
      if decide (0x40 + n ≤ off) && !b.fresh.any (fun r => decide (r.1 ≤ off ∧ off < r.1 + r.2)) then
        Config.freeByte ((mb + 4 * b.serial) * 2 ^ 14 + off)
      else cellGet b.window off
    | none => cellGet b.window off
  else BitVec.ofNat 8 (mbxReg s mb (off / 4 * 4) / 2 ^ (8 * (off % 4)))

/-- `n` bytes of a mailbox window from `off`; the spec does not say what a read past 0x3FFF returns: a free value. (DEDUCED: log entry 17) -/
def windowBytes (s : State) (mb off n : Nat) : Bytes :=
  (List.range n).map (fun i => if off + i < 0x4000 then windowByte s mb (off + i) else Config.freeByte (s.draw + off + i))

/-- A byte of the telemetry buffer as it reads: `SEQ`, and, while the module writes the buffer, the old or the new byte
(notes/assumptions 3). (DEDUCED: log entry 41) -/
def tlmByte (s : State) (off : Nat) : Byte :=
  if decide (0x008 ≤ off ∧ off < 0x00C) then BitVec.ofNat 8 (s.tst.seq / 2 ^ (8 * (off - 0x008)))
  else if s.prs.snapLatched && Config.freeBool (s.draw + off) then cellGet s.tst.latched off
  else cellGet s.tst.buffer off

/-- A 32-bit register read without side effect. -/
def regRead (s : State) (fn : Nat) (b : Blk) (off : Nat) : Nat :=
  if blockDown s b then 0
  else match b with
  | .ids => idsReg s off
  | .rst => rstReg s off
  | .clk => clkReg s off
  | .prs => prsReg s off
  | .cvu => cvuReg s off
  | .ent => entReg s off
  | .pla => plaReg s off
  | .hif => hifReg s off
  | .grv => grvReg s off
  | .kst => kstReg s off
  | .mpr => mprReg s off
  | .buf => bufReg s off
  | .tst => tstReg s off
  | .mbx => leNat (windowBytes s (off / 0x4000) (off % 0x4000) 4)
  | .tlm => leNat ((List.range 4).map (fun i => tlmByte s (off + i)))
  | .fnStatus => fnStatusReg s fn off
  | .ptn => ptnReg s off
  | .hev => hevReg s off
  | .lnk => if off < 0x500 then lnkReg (get5 s.ports (off / 0x100)) (off % 0x100) else 0
  | .rdm => rdmReg s off
  | .doorEvent | .doorWork | .doorCompletion => 0

/-! ## Register writes (R15) -/

/-- A value clamped to [lo, hi]: "stores the nearer limit". -/
def clamp (lo hi v : Nat) : Nat := max lo (min hi v)

/-- The W1C bits of `v` among the lowest `n` are cleared. -/
def w1c (n : Nat) (old : BitVec 32) (v : Nat) : BitVec 32 := old &&& ~~~(BitVec.ofNat 32 (v % 2 ^ n))

/-- A write to CLK (Table 21-4): STICKY is W1C, CAP is RWS; STANDBY has a row of its own. -/
def clkWrite (off v : Nat) (s : State) : State :=
  if off = 0x004 then modClk (fun c => { c with sticky := w1c 7 c.sticky v }) s
  else if off = 0x008 then modClk (fun c => { c with capShadow := some (clamp 900 1650 (v % 2048)) }) s
  else s

/-- A write to PRS (Tables 2-6 to 2-8): LIMIT_MS is RWS, SNAP_AT is RWL while a snapshot is pending (R48), DONE is W1C. -/
def prsWrite (off v : Nat) (s : State) : State :=
  let lo := off = 0x020
  if off = 0x00C then modPrs (fun p => { p with sticky := w1c 4 p.sticky v }) s
  else if off = 0x010 then modPrs (fun p => { p with limitShadow := some (clamp 1 1000 (v % 1024)) }) s
  else if off = 0x020 || off = 0x024 then
    if s.prs.snapPending then modPrs (fun p => { p with sticky := setBit p.sticky 0 }) s
    else modPrs (fun p => { p with snapAt := if lo then p.snapAt / 2 ^ 32 * 2 ^ 32 + v % 2 ^ 32
                                             else v % 65536 * 2 ^ 32 + p.snapAt % 2 ^ 32 }) s
  else if off = 0x028 then (if bit v 2 then modPrs (fun p => { p with snapDone := false }) s else s)
  else s

/-- A write to CVU (Table 19-4, R383): POLY and FOLD are RWL while the queue is not empty. -/
def cvuWrite (off v : Nat) (s : State) : State :=
  let rwl := fun (f : CvuState → CvuState) =>
    if s.cvu.queue.isEmpty then modCvu f s else modCvu (fun c => { c with sticky := setBit c.sticky 0 }) s
  if off = 0x000 then rwl (fun c => { c with poly := bit v 0 })
  else if off = 0x008 then modCvu (fun c => { c with sticky := w1c 2 c.sticky v }) s
  else if off = 0x010 then rwl (fun c => { c with fold := BitVec.ofNat 64 (c.fold.toNat / 2 ^ 32 * 2 ^ 32 + v % 2 ^ 32) })
  else if off = 0x014 then rwl (fun c => { c with fold := BitVec.ofNat 64 (v % 2 ^ 32 * 2 ^ 32 + c.fold.toNat % 2 ^ 32) })
  else s

/-- A write to PLA (Tables 3-10, 3-11, R67): LOAD_RATE is RWL while a load runs. -/
def plaWrite (off v : Nat) (s : State) : State :=
  if off = 0x004 then modPla (fun p => { p with sticky := w1c 5 p.sticky v }) s
  else if off = 0x014 then
    if loading s then modPla (fun p => { p with sticky := setBit p.sticky 0 }) s
    else modPla (fun p => { p with loadRate := min 3 (v % 8) }) s
  else s

/-- A write to HIF (Table 15-8, R307): BAR2_BASE is ignored outside OWNED_OPEN. -/
def hifWrite (off v : Nat) (s : State) : State :=
  if off = 0x004 then modHif (fun h => { h with sticky := w1c 5 h.sticky v }) s
  else if decide (0x020 ≤ off ∧ off < 0x034) then
    if ownedOpen s then modFn ((off - 0x020) / 4) (fun f => { f with bar2 := v % 4096 }) s else s
  else s

/-- A write to MPR (Table 18-10): SWEEP_RATE is RWL while a sweep or a wipe runs; values above 8 store 8. -/
def mprWrite (off v : Nat) (s : State) : State :=
  if off = 0x004 then modMpr (fun m => { m with sticky := w1c 4 m.sticky v }) s
  else if off = 0x008 then
    if s.mpr.sweep || s.mpr.wiping then modMpr (fun m => { m with sticky := setBit m.sticky 0 }) s
    else modMpr (fun m => { m with sweepRate := min 8 (v % 16) }) s
  else s

/-- A CH_CFG value breaks R282 or R292. -/
def chInvalid (v : Nat) : Bool :=
  let low := bits v 31 24
  let high := bits v 23 16
  decide (128 < bits v 7 0) || !(decide (low < high) && decide (high ≤ bits v 7 0 + bits v 15 8))

/-- A write to BUF (Table 14-7, R291, R292): RING_SHARE is RWL while a port is in ring mode, CH_CFG while its port is up. -/
def bufWrite (off v : Nat) (s : State) : State :=
  let reject := modBuf (fun b => { b with sticky := setBit b.sticky 0 }) s
  if off = 0x004 then modBuf (fun b => { b with sticky := w1c 6 b.sticky v }) s
  else if off = 0x008 then
    if (List.range 5).any (ringPort s) then reject
    else modBuf (fun b => { b with ringShare := clamp 2 8 (v % 16) }) s
  else if decide (0x100 ≤ off ∧ off < 0x380) && off % 16 = 0 then
    let c := (off - 0x100) / 16
    if (get5 s.ports (c / 8)).up then reject
    else if chInvalid v then modBuf (fun b => { b with sticky := setBit b.sticky 5 }) s
    else
      let set := fun (x : Channel) => { x with low := bits v 31 24, high := bits v 23 16, borrow := bits v 15 8, guar := bits v 7 0 }
      modBuf (fun b => { b with channels := updAt set c b.channels }) s
  else s

/-- A write to the mailbox registers of a window (Table 16-3) of the bytes that `mask` enables; GO has a row of its own. -/
def mbxRegWrite (mb off v mask : Nat) (s : State) : State :=
  let b := get4 s.mbx.boxes mb
  if off = 0x020 then
    let m := if b.state = 1 then 0 else Nat.land mask 0x7F0000
    let ctrl := b2n b.irqEn * 2 ^ 22 + b.vector * 2 ^ 16
    let new := Nat.lor (ctrl - Nat.land ctrl m) (Nat.land v m)
    let s := if b.state = 1 && Nat.land mask 0x7F0000 != 0 then modBox mb (fun b => { b with sticky := setBit b.sticky 0 }) s else s
    modBox mb (fun b => { b with irqEn := bit new 22, vector := bits new 21 16 }) s
  else if off = 0x028 then modBox mb (fun b => { b with sticky := w1c 3 b.sticky (Nat.land v mask) }) s
  else if off = 0x030 then (if bit (Nat.land v mask) 1 then modMbx (fun m => { m with overrun := false }) s else s)
  else s

/-- A write of bytes to the command header or payload of a window (R312): ignored, with BUSY_WRITE, while it is BUSY. -/
def windowStore (mb off : Nat) (bs : Bytes) (s : State) : State :=
  let b := get4 s.mbx.boxes mb
  if b.state = 1 then modBox mb (fun b => { b with sticky := setBit b.sticky 1 }) s
  else modBox mb (fun b => { b with window := cellWrite b.window off bs, fresh := (off, bs.length) :: b.fresh }) s

/-- A write to TST, RST, ENT, KST, PTN, HEV, LNK or RDM: W1C sticky bits, and the RWL fields of PTN (R193) and RDM (R272). -/
def otherWrite (b : Blk) (off v : Nat) (s : State) : State :=
  match b with
  | .rst =>
    if off = 0x000 then
      modRst (fun r => { r with coreSeen := r.coreSeen && !bit v 2, systemSeen := r.systemSeen && !bit v 1, powerOn := r.powerOn && !bit v 0 }) s
    else if off = 0x00C then modRst (fun r => { r with optBad := r.optBad && !bit v 1, shortPulse := r.shortPulse && !bit v 0 }) s
    else s
  | .ent => if off = 0x004 then modEnt (fun e => { e with sticky := w1c 1 e.sticky v }) s else s
  | .kst => if off = 0x004 then modKst (fun k => { k with sticky := w1c 3 k.sticky v }) s else s
  | .tst => if off = 0x004 then modTst (fun t => { t with sticky := w1c 1 t.sticky v }) s else s
  | .hev => if off = 0x004 then modHev (fun h => { h with sticky := w1c 5 h.sticky v }) s else s
  | .lnk =>
    if off % 0x100 = 0x04 && decide (off < 0x500) then
      modPort (off / 0x100) (fun p => { p with sticky := w1c 5 p.sticky v }) s
    else s
  | .ptn =>
    if off = 0x004 then modPtn (fun p => { p with sticky := w1c 4 p.sticky v }) s
    else if off = 0x008 then
      if s.ptn.rounds.isEmpty then modPtn (fun p => { p with stageMib := clamp 16 128 (v % 256) }) s
      else modPtn (fun p => { p with sticky := setBit p.sticky 0 }) s
    else s
  | .rdm =>
    if off = 0x004 then modRdm (fun r => { r with sticky := w1c 5 r.sticky v }) s
    else if off = 0x008 then
      if s.rdm.conns.isEmpty then
        modRdm (fun r => { r with aiGbps := max 1 (bits v 15 8), gShift := clamp 1 8 (v % 16) }) s
      else modRdm (fun r => { r with sticky := setBit r.sticky 0 }) s
    else s
  | _ => s

/-- A write of the right width to a register (R15, R16): the fields of the word, each by its access code. (DEDUCED: log entry 18) -/
def regWrite (b : Blk) (off width v : Nat) (s : State) : State :=
  if blockDown s b then s
  else match b with
  | .clk => clkWrite off v s
  | .prs => prsWrite off v s
  | .cvu => cvuWrite off v s
  | .pla => plaWrite off v s
  | .hif => hifWrite off v s
  | .mpr => mprWrite off v s
  | .buf => bufWrite off v s
  | .mbx =>
    let o := off % 0x4000
    if windowData o then windowStore (off / 0x4000) o (leBytes width v) s
    else mbxRegWrite (off / 0x4000) o v 0xFFFFFFFF s
  | .ids | .grv | .tlm | .fnStatus | .doorEvent | .doorWork | .doorCompletion => s
  | .rst | .ent | .kst | .tst | .hev | .lnk | .ptn | .rdm => otherWrite b off v s

/-- The high half that a read of a `_LO` register latches (R435). -/
def latchHi (r : LoReg) (s : State) : State :=
  match r with
  | .strokeLo => modPrs (fun p => { p with strokeHi := p.stroke / 2 ^ 32 }) s
  | .lastApplyLo => modPrs (fun p => { p with lastApplyHi := p.lastApply / 2 ^ 32 }) s
  | .lastSwapLo => modPla (fun p => { p with lastSwapHi := p.lastSwap / 2 ^ 32 }) s
  | .keyStreamLo => modHev (fun h => { h with streamHi := h.keyStream / 2 ^ 32 }) s

/-- The low half that the read returns. -/
def loValue (r : LoReg) (s : State) : Nat :=
  match r with
  | .strokeLo => s.prs.stroke % 2 ^ 32
  | .lastApplyLo => s.prs.lastApply % 2 ^ 32
  | .lastSwapLo => s.pla.lastSwap % 2 ^ 32
  | .keyStreamLo => s.hev.keyStream % 2 ^ 32

end Sys2Proof.Machine
end

