-- ==== Sys2Proof/Machine/Mailbox.lean ====
section
/-! DEFINITION. Mailboxes: the GO write and its checks, the start of waiting commands, mailbox 3 over SMBus, the event ring
and its doorbell (16_control_and_mailboxes.md R308 to R321, R324 for FW_FALLBACK). -/

namespace Sys2Proof.Machine

/-- The checks of R313 that depend on the state: recovery (R326), no security firmware (R324), and lifecycle, from which recovery alone exempts
(R352). (DEDUCED: log entry 16) -/
def stateCheck (s : State) (op : Nat) : Option Status :=
  firstFail [
    ((s.mbx.recovery || s.mbx.secInvalid) && !([0x0101, 0x0C01, 0x0C03].contains op), .notPermitted),
    (!s.mbx.recovery && !stateAccepts (reportedState s) op,
      if s.life.overlay then .tamperLocked else .notPermitted)]

/-- MAILBOX_COMMAND_CHECK (R313). (DEDUCED: log entry 16) -/
def commandCheck (s : State) (j : Job) : Option Status :=
  match firstFail [
    (j.flags / 2 != 0 || !zeroAt j.head 0x0E 2 || !zeroAt j.head 0x18 8 || decide (16320 < field j.head 8 4), .badArg),
    (!opcodeCatalogue.contains j.opcode, .unknownOpcode),
    (j.mb == 3 && !([0x01, 0x02, 0x03, 0x0B, 0x0C].contains (j.opcode / 256)), .notPermitted)] with
  | some st => some st
  | none => stateCheck s j.opcode

/-- Families 0x02 and 0x0C run alone (R314). -/
def exclusive (op : Nat) : Bool := op / 256 == 0x02 || op / 256 == 0x0C

/-- A command is judged at its GO: the firmware runs, and no command that runs alone is incomplete before it (R314, R354, R418).
(DEDUCED: log entry 16) -/
def judgesNow (s : State) : Bool :=
  firmwareRuns s && s.life.removal.isNone && s.mbx.jobs.all (fun x => !exclusive x.opcode)

/-- A write of 1 to `GO` of mailbox `mb` (R311, R312, R326): ignored with GO_REJECT, or the mailbox becomes BUSY, its header and
payload are taken and the checks of R313 are made; a refused command completes at once. A command that waits for one that runs alone, for a
removal or for a halted processor is judged when it begins. -/
def mailboxGo (mb : Nat) (s : State) : State :=
  let b := get4 s.mbx.boxes mb
  let ready := if s.mbx.recovery then mb == 3 else s.mbx.fwReady
  if blockDown s .mbx then s
  else if b.state = 1 || !ready then modBox mb (fun b => { b with sticky := setBit b.sticky 2 }) s
  else
    let hdr := windowBytes s mb 0 32
    let len := min (field hdr 8 4) 16320
    let order := s.mbx.nextOrder
    let j : Job := { mb := mb, order := order, head := hdr, opcode := field hdr 0 2, flags := field hdr 2 2, tag := field hdr 4 4,
                     payload := windowBytes s mb 0x40 len, phase := 0, attached := true, subject := 0, applied := 0, bad := [], data := [], ended := none }
    let s1 := modBox mb (fun b => { b with state := 1, serial := (b.serial + 1) % 2 ^ 32 }) s
    let s1 := modMbx (fun m => { m with nextOrder := order + 1, jobs := m.jobs ++ [j] }) s1
    if !judgesNow s then s1
    else match commandCheck s j with
    | some st => answer j st s1
    | none => s1

/-- A waiting command may begin (R314): no removal runs and no command runs in its mailbox; an exclusive one when no earlier command is incomplete
and nothing runs; every other when no earlier command of its family, and no earlier exclusive one, is incomplete. (DEDUCED: log entry 16) -/
def mayBegin (s : State) (j : Job) : Bool :=
  let others := s.mbx.jobs.filter (·.order != j.order)
  let running := others.filter (fun x => decide (1 ≤ x.phase))
  let ahead := others.filter (fun x => decide (x.order < j.order))
  j.phase == 0 && s.life.removal.isNone && running.all (fun x => x.mb != j.mb) &&
    (if exclusive j.opcode then running.isEmpty && ahead.isEmpty
     else ahead.all (fun x => !exclusive x.opcode && x.opcode / 256 != j.opcode / 256))

/-- A self-test of I/O-die blocks or of the pool is running (R412). -/
def blockTest (s : State) : Bool :=
  match s.tst.running with
  | some (_, _, b) => b != 0
  | none => false

/-- Commands of families 0x04 to 0x0A complete with BUSY: zero fill pending or running (R353), block self-test (R412). (DEDUCED: log entry 16) -/
def workBlocked (s : State) (op : Nat) : Bool :=
  decide (0x04 ≤ op / 256 ∧ op / 256 ≤ 0x0A) && (s.mpr.wiping || !s.mpr.filled || blockTest s)

/-- COMMAND_DISPATCH (R314): the waiting command of the mailbox begins, or completes refused. (DEDUCED: log entry 16) -/
def execCommandDispatch (mb : MbId) (s : State) : Out :=
  .next <|
    match s.mbx.jobs.find? (fun j => j.mb == mb.val && j.phase == 0) with
    | none => s
    | some j =>
      if !firmwareRuns s || !mayBegin s j then s
      else match commandCheck s j with
      | some st => answer j st s
      | none =>
        if workBlocked s j.opcode then answer j .busy s
        else modJob j.order (fun j => { j with phase := 1 }) s

/-! ## Mailbox 3 over SMBus (R315, R424) -/

/-- The module answers on SMBus: not in Standby, not tripped, and option load has ended (R424). -/
def smbusAnswers (s : State) : Bool := s.rst.railsOn && !s.rst.standby && !s.rst.optLoad && !s.rst.inReset

/-- The module answers at a target address: 0x58 with the strapped bits (R424). -/
def smbusAt (addr : BitVec 7) (s : State) : Bool := smbusAnswers s && addr.toNat == 0x58 + s.rst.strapAddr

/-- One word of the mailbox registers of window 3, written with the bytes that `mask` enables (R315). (DEDUCED: log entry 17) -/
def smbusRegWord (off v mask : Nat) (s : State) : State :=
  let s := mbxRegWrite 3 off v mask s
  if off = 0x020 && bit (Nat.land v mask) 0 then mailboxGo 3 s else s

/-- The bytes of a Block Write in ascending order: header and payload bytes are stored, register bytes are gathered by word;
`acc` is the register word being gathered (offset, value, mask). (DEDUCED: log entry 17) -/
def smbusBytes (off : Nat) (acc : Option (Nat × Nat × Nat)) : Bytes → State → State
  | [], s => match acc with
    | some (w, v, m) => smbusRegWord w v m s
    | none => s
  | b :: bs, s =>
    let flush := fun (st : State) => match acc with
      | some (w, v, m) => smbusRegWord w v m st
      | none => st
    if windowData off then smbusBytes (off + 1) none bs (windowStore 3 off [b] (flush s))
    else
      let w := off / 4 * 4
      let sh := 2 ^ (8 * (off % 4))
      match acc with
      | some (w', v, m) =>
        if w' = w then smbusBytes (off + 1) (some (w, v + b.toNat * sh, m + 255 * sh)) bs s
        else smbusBytes (off + 1) (some (w, b.toNat * sh, 255 * sh)) bs (flush s)
      | none => smbusBytes (off + 1) (some (w, b.toNat * sh, 255 * sh)) bs s

/-- SMBUS_BLOCK_WRITE (R315). A failed PEC discards and NACKs the transaction; a write past 0x3FFF is discarded whole. (DEDUCED: log entry 17) -/
def execSmbusBlockWrite (place : SmbPlace) (data : Bytes) (pecOk : Bool) (s : State) : Out :=
  .next <|
    if !smbusAt place.addr s then s
    else if !pecOk then emit .smbusNack s
    else if decide (0x4000 < place.off.toNat + data.length) || decide (30 < data.length) || blockDown s .mbx then s
    else smbusBytes place.off.toNat none data s

/-- SMBUS_PROCESS_CALL (R315): `count` bytes of mailbox 3's window. (DEDUCED: log entry 17) -/
def execSmbusProcessCall (place : SmbPlace) (count : Nat) (pecOk : Bool) (s : State) : Out :=
  .next <|
    if !smbusAt place.addr s then s
    else if !pecOk then emit .smbusNack s
    else emit (.readData (windowBytes s 3 place.off.toNat (min count 32))) s

/-! ## The event ring (R319, R320) -/

/-- A ring's base breaks R274: its location code, alignment, R298, bit 63, or a device ring outside installed HBM or on a held
location (R299). -/
def ringBaseBad (s : State) (loc base bytes : Nat) : Bool :=
  if loc = 0 then bit base 63 || base % 4096 != 0
  else if loc = 1 then
    match decodeAddr base with
    | .dev a => a % 4096 != 0 || !inHbm s a bytes || heldRange s a bytes
    | _ => true
  else true

/-- A tail writeback address breaks R274. -/
def tailBad (s : State) (tail : Nat) : Bool :=
  tail % 8 != 0 ||
  (match decodeAddr tail with
   | .host _ => false
   | .dev a => !inHbm s a 8 || heldRange s a 8
   | .bad => true)

/-- The host or device number of an address field. -/
def addrOf (v : Nat) : Nat := if bit v 63 then v % 2 ^ 48 else v

/-- FW_FALLBACK events that waited for a ring are posted (R324). (DEDUCED: log entry 58) -/
def postFallback (s : State) : State :=
  if s.mbx.ring.isNone then s
  else s.mbx.fallbackEv.foldl (fun t e => postEvent 0x0C01 1 (pack [(e.1, 8), (e.2.1, 8)]) e.2.2 t)
    (modMbx (fun m => { m with fallbackEv := [] }) s)

/-- EVENT_RING_SET (R319). (DEDUCED: log entry 58) -/
def execEventRingSet (mb : MbId) (s : State) : Out :=
  .next <| onJob mb 0x0110 s fun j =>
    let loc := arg j 0 1
    let k := arg j 1 1
    let vec := arg j 2 2
    let mask := arg j 24 8
    match firstFail [
      (s.mbx.ring.isSome, .notIdle),
      (!lenIs j 32 || !zeroAt j.payload 4 4 || decide (1 < loc) || decide (k < 4) || decide (16 < k) ||
        (decide (63 < vec) && vec != 0xFFFF) || mask % 2 != 0 || decide (2 ^ 13 ≤ mask) ||
        ringBaseBad s loc (arg j 8 8) (32 * 2 ^ k) || tailBad s (arg j 16 8), .badArg)] with
    | some st => answer j st s
    | none =>
      let r : EventRing := { hbm := loc == 1, k := k, vector := vec, base := addrOf (arg j 8 8), tail := arg j 16 8,
                             mask := BitVec.ofNat 64 mask, producer := 0, consumer := 0 }
      let s := modMbx (fun m => { m with ring := some r }) s
      answer j .ok (postFallback s)

/-- EVENT_RING_CLEAR (R319). -/
def execEventRingClear (mb : MbId) (s : State) : Out :=
  .next <| onJob mb 0x0111 s fun j =>
    if !lenIs j 8 || !allZero j.payload then answer j .badArg s
    else answer j .ok (modMbx (fun m => { m with ring := none, irqOpen := false, irqPending := false }) s)

/-- The event-ring doorbell (R320, under R275 and R276): ignored when no ring is set, or when it claims entries not yet written. Its
reserved half is discarded (R16). -/
def eventDoorbell (v : Nat) (s : State) : State :=
  let reject := modBuf (fun b => { b with sticky := setBit b.sticky 4, doorbell := sat b.doorbell }) s
  match s.mbx.ring with
  | none => reject
  | some r =>
    let c := v % 2 ^ 32
    if decide ((r.producer + 2 ^ 32 - r.consumer) % 2 ^ 32 < (c + 2 ^ 32 - r.consumer) % 2 ^ 32) then reject
    else modMbx (fun m => { m with ring := some { r with consumer := c } }) s

/-- EVENT_IRQ_COALESCE_EXPIRE (R320): the 10 us interval after a message ends; a tail write inside it is signalled now. -/
def execEventIrqCoalesceExpire (s : State) : Out :=
  .next <|
    match s.mbx.ring with
    | none => modMbx (fun m => { m with irqOpen := false, irqPending := false }) s
    | some r =>
      if s.mbx.irqPending then modMbx (fun m => { m with irqPending := false }) (post 0 (.msix 0 r.vector) s)
      else modMbx (fun m => { m with irqOpen := false }) s

end Sys2Proof.Machine
end

