-- ==== Sys2Proof/Machine/Model.lean ====
section
/-! DEFINITION. The Intaglio model class (05_intaglio_class.md R101 to R113): the shape header and its checks, the byte order
of a weight set, and the forward computation. -/

namespace Sys2Proof.Machine

/-- The fields of the shape header (Table 5-1). -/
structure Shape where
  layers  : Nat
  heads   : Nat
  kvHeads : Nat
  hd      : Nat
  d       : Nat
  f       : Nat
  vocab   : Nat
  window  : Nat
  role    : Nat
  headFmt : Nat
  eps     : F32
  length  : Nat
  deriving DecidableEq, Repr

/-- The fields as the first 256 bytes give them. -/
def shapeOf (b : Bytes) : Shape :=
  { layers := field b 0x08 2, heads := field b 0x0A 2, kvHeads := field b 0x0C 2, hd := field b 0x0E 2,
    d := field b 0x10 4, f := field b 0x14 4, vocab := field b 0x18 4, window := field b 0x1C 4,
    role := field b 0x20 1, headFmt := field b 0x21 1, eps := BitVec.ofNat 32 (field b 0x24 4), length := field b 0x28 8 }

/-- Bytes of a row of `n` inputs (R105). -/
def rowBytes (fp8 : Bool) (n : Nat) : Nat := n / 32 * (if fp8 then 33 else 17)

/-- Bytes of a matrix with its row scales. -/
def matBytes (fp8 : Bool) (rows n : Nat) : Nat := rows * rowBytes fp8 n + 4 * rows

/-- Bytes of one layer (R104). -/
def layerBytes (s : Shape) : Nat :=
  4 * s.d + matBytes false (s.heads * s.hd) s.d + 2 * matBytes false (s.kvHeads * s.hd) s.d +
    12 * s.heads + 8 * s.kvHeads + matBytes false s.d (s.heads * s.hd) +
    4 * s.d + 2 * matBytes false s.f s.d + matBytes false s.d s.f

/-- The length that the layout gives (R104). -/
def layoutBytes (s : Shape) : Nat :=
  256 + s.hd / 2 * 8 + s.vocab * s.d * 2 + s.layers * layerBytes s + 4 * s.d + matBytes (s.headFmt == 2) s.vocab s.d

/-- KV bytes per token (R108). -/
def kvPerToken (s : Shape) : Nat := 2 * s.layers * s.kvHeads * s.hd

/-- Bytes of a KV block (R110). -/
def kvBlockBytes (s : Shape) : Nat := 4096 * kvPerToken s

/-- Where the byte of layer `l`, KV head `h`, part `kv`, position `p` and element `e` lies in its KV block (R110). -/
def kvOffset (s : Shape) (l h kv p e : Nat) : Nat := ((l * s.kvHeads + h) * 2 + kv) * 4096 * s.hd + p % 4096 * s.hd + e

/-- The offset of the first failing shape check (R103, Table 5-2, R112): ascending offsets, then 0xF0 for the layout. `role` is
the role that the command expects, `supplied` the supplied length. -/
def shapeFail (b : Bytes) (role supplied : Nat) : Option Nat :=
  let s := shapeOf b
  let out := fun (lo hi v : Nat) => decide (v < lo) || decide (hi < v)
  let check := [
    (decide (b.length < 256), 0xF0),
    (field b 0x00 4 != 0x4853584F, 0x00),
    (field b 0x04 2 != 0x0001, 0x04),
    (field b 0x06 2 != 0x0001, 0x06),
    (out 1 256 s.layers, 0x08),
    (out 1 256 s.heads, 0x0A),
    (out 1 64 s.kvHeads, 0x0C),
    (s.heads % s.kvHeads != 0, 0x0C),
    (!([64, 128, 256].contains s.hd), 0x0E),
    (out 256 32768 (s.heads * s.hd), 0x0E),
    (decide (1048576 < kvPerToken s), 0x0E),
    (out 256 32768 s.d || s.d % 256 != 0, 0x10),
    (out 256 65536 s.f || s.f % 256 != 0, 0x14),
    (out 1024 262144 s.vocab, 0x18),
    (s.role != 1 && s.role != 2, 0x20),
    (s.role != role, 0x20),
    ((s.role == 1 && s.window != 0) ||
      (s.role == 2 && (out 4096 65536 s.window || s.window % 4096 != 0)), 0x20),
    (s.headFmt != 1 && s.headFmt != 2, 0x21),
    (field b 0x22 2 != 0, 0x22),
    (out 0x00800000 0x7F7FFFFF s.eps.toNat, 0x24),
    (role == 2 && decide (2147483648 < s.length), 0x28),
    (!zeroAt b 0x30 208, 0x30),
    (s.length != layoutBytes s || s.length != supplied, 0xF0)]
  (check.find? (·.1)).map (·.2)

/-- The shape digest of a weight set (R102). -/
def shapeDigest (b : Bytes) : Bytes := sha512 (b.take 256)

/-! ## Tensors -/

/-- A matrix in a weight set: offset, rows, inputs, MXFP8 or MXFP4. -/
structure Mat where
  off  : Nat
  rows : Nat
  n    : Nat
  fp8  : Bool

/-- The FP32 word at an offset. -/
def f32At (w : Bytes) (off : Nat) : F32 := BitVec.ofNat 32 (field w off 4)

/-- `n` FP32 words. -/
def f32s (w : Bytes) (off n : Nat) : List F32 := (List.range n).map (fun i => f32At w (off + 4 * i))

/-- A group of 32 weights: its scale byte and its elements, as multiples of 2^−9 (E4M3) or 2^−1 (E2M1) (R105). -/
def group (w : Bytes) (fp8 : Bool) (off : Nat) : Nat × List (Option Int) :=
  if fp8 then (field w off 1, (slice w (off + 1) 32).map (fun b => elem .e4m3 b.toNat))
  else (field w off 1, (slice w (off + 1) 16).flatMap (fun b => [elem .e2m1 (b.toNat % 16), elem .e2m1 (b.toNat / 16)]))

/-- proj(A, W) (R106): each row's exact dot product in FP32, times the row scale. -/
def proj (w : Bytes) (m : Mat) (A : List (Nat × List Byte)) : List F32 :=
  let gb := if m.fp8 then 33 else 17
  let a := A.map (fun x => (x.1, x.2.map (fun b => elem .e4m3 b.toNat)))
  (List.range m.rows).map (fun r =>
    let blocks := a.zipIdx.map (fun x =>
      let g := group w m.fp8 (m.off + r * rowBytes m.fp8 m.n + x.2 * gb)
      let e : Int := (x.1.1 : Int) - 127 + ((g.1 : Int) - 127)
      (e, if x.1.1 = 0xFF || g.1 = 0xFF then none else prodSum x.1.2 g.2))
    fmul (dotBlocks (if m.fp8 then 18 else 10) blocks) (f32At w (m.off + m.rows * rowBytes m.fp8 m.n + 4 * r)))

/-- Offsets of the tensors of a layer (R104). -/
structure Layer where
  gAttn : Nat
  wq    : Mat
  wk    : Mat
  wv    : Mat
  psi   : Nat
  cc    : Nat
  omega : Nat
  kappa : Nat
  nu    : Nat
  wo    : Mat
  gFfn  : Nat
  wg    : Mat
  wu    : Mat
  wd    : Mat

/-- The layer that begins at `o`. -/
def layerAt (s : Shape) (o : Nat) : Layer :=
  let q := o + 4 * s.d
  let k := q + matBytes false (s.heads * s.hd) s.d
  let v := k + matBytes false (s.kvHeads * s.hd) s.d
  let psi := v + matBytes false (s.kvHeads * s.hd) s.d
  let kap := psi + 12 * s.heads
  let wo := kap + 8 * s.kvHeads
  let gf := wo + matBytes false s.d (s.heads * s.hd)
  let wg := gf + 4 * s.d
  let wu := wg + matBytes false s.f s.d
  let wd := wu + matBytes false s.f s.d
  { gAttn := o
    wq := ⟨q, s.heads * s.hd, s.d, false⟩
    wk := ⟨k, s.kvHeads * s.hd, s.d, false⟩
    wv := ⟨v, s.kvHeads * s.hd, s.d, false⟩
    psi := psi, cc := psi + 4 * s.heads, omega := psi + 8 * s.heads
    kappa := kap, nu := kap + 4 * s.kvHeads
    wo := ⟨wo, s.d, s.heads * s.hd, false⟩
    gFfn := gf
    wg := ⟨wg, s.f, s.d, false⟩
    wu := ⟨wu, s.f, s.d, false⟩
    wd := ⟨wd, s.d, s.f, false⟩ }

/-- The first layer's offset, after the rotary words and the embedding table. -/
def layersOff (s : Shape) : Nat := 256 + s.hd / 2 * 8 + s.vocab * s.d * 2

/-! ## The forward computation (R106 to R109) -/

/-- The stored key and value rows of one position, by layer and KV head: index (layer × G + head) × 2, key then value. -/
abbrev KvRows := List Bytes

/-- Rotate a head's vector at position `p` (R92, R106): pair i is elements i and i + hd/2. -/
def rotateHead (w : Bytes) (hd p : Nat) (x : List F32) : List F32 :=
  let h := hd / 2
  let ps := (List.range h).map (fun i =>
    rotatePair (rotary p (field w (256 + 8 * i) 8)) (x.getD i 0) (x.getD (i + h) 0))
  ps.map (·.1) ++ ps.map (·.2)

/-- Heads of a projected vector. -/
def headsOf (n hd : Nat) (x : List F32) : List (List F32) := (List.range n).map (fun i => (x.drop (i * hd)).take hd)

/-- A query node: a token at its position, with the indices of the earlier nodes that its attention includes (R129). -/
structure QNode where
  pos   : Nat
  token : Nat
  anc   : List Nat
  deriving DecidableEq, Repr

/-- Tokens one after another from position `p` on, each including those before it. -/
def chainNodes (p : Nat) (ts : List Nat) : List QNode := ts.zipIdx.map (fun x => ⟨p + x.2, x.1, List.range x.2⟩)

/-- The included positions of node `i` with their rows: those of `ctx`, its ancestors and itself (R129); of a draft, the last WINDOW only
(R112). -/
def included (s : Shape) (ctx : List (Nat × KvRows)) (nodes : List QNode) (kvs : List KvRows) (i : Nat) : List (Nat × KvRows) :=
  match nodes[i]? with
  | none => []
  | some n =>
    let all := ctx ++ (n.anc ++ [i]).filterMap (fun k => (nodes[k]?).map (fun x => (x.pos, kvs.getD k [])))
    if s.window = 0 then all else all.filter (fun c => decide (n.pos < c.1 + s.window))

/-- The partial of KV block `b` for query head `j` of layer `l` over the included positions (R107, R94). -/
def blockLeaf (w : Bytes) (s : Shape) (l : Nat) (inc : List (Nat × KvRows)) (q : List F32) (j b : Nat) : Option Partial :=
  let L := layerAt s (layersOff s + l * layerBytes s)
  let q' := q.map (fun x => f32ToE4m3 (fmul x (f32At w (L.psi + 4 * j))))
  let c := f32At w (L.cc + 4 * j)
  let row := (l * s.kvHeads + j / (s.heads / s.kvHeads)) * 2
  blockPartial s.hd ((inc.filter (fun x => x.1 / 4096 == b)).map (fun x =>
    (x.1 % 4096, fmul (dotE4m3 q' (x.2.getD row [])) c, (x.2.getD (row + 1) []).map e4m3ToF32)))

/-- u of query head `j` of layer `l` from its attention output (R107 step 5). -/
def headOut (w : Bytes) (s : Shape) (l j : Nat) (a : List F32) : List F32 :=
  let L := layerAt s (layersOff s + l * layerBytes s)
  a.map (fun x => fmul x (f32At w (L.omega + 4 * j)))

/-- u of query head `j` with every block at hand (R107, R94, R95). -/
def attend (w : Bytes) (s : Shape) (l : Nat) (inc : List (Nat × KvRows)) (q : List F32) (j : Nat) : List F32 :=
  let top := maxNat (inc.map (·.1)) / 4096
  headOut w s l j (attnOut s.hd ((List.range (top + 1)).map (blockLeaf w s l inc q j)))

/-- A layer before its attention, for one node: its queries by head, and its KV rows with this layer's (R106). -/
def layerFront (w : Bytes) (s : Shape) (l p : Nat) (x : List F32) (kv : KvRows) : List (List F32) × KvRows :=
  let L := layerAt s (layersOff s + l * layerBytes s)
  let A := mx8 (rmsnorm x (f32s w L.gAttn s.d) s.eps)
  let q := (headsOf s.heads s.hd (proj w L.wq A)).map (rotateHead w s.hd p)
  let k := (headsOf s.kvHeads s.hd (proj w L.wk A)).map (rotateHead w s.hd p)
  let v := headsOf s.kvHeads s.hd (proj w L.wv A)
  let store := fun (base : Nat) (rows : List (List F32)) =>
    rows.zipIdx.map (fun r => r.1.map (fun e => f32ToE4m3 (fmul e (f32At w (base + 4 * r.2)))))
  (q, kv ++ ((store L.kappa k).zip (store L.nu v)).flatMap (fun r => [r.1, r.2]))

/-- A layer after its attention, for one node: Wo and the feed-forward unit on u of every head (R106). -/
def layerBack (w : Bytes) (s : Shape) (l : Nat) (x u : List F32) : List F32 :=
  let L := layerAt s (layersOff s + l * layerBytes s)
  let x := x.zipWith fadd (proj w L.wo (mx8 u))
  let B := mx8 (rmsnorm x (f32s w L.gFfn s.d) s.eps)
  let h := (proj w L.wg B).zipWith (fun a b => fmul (silu a) b) (proj w L.wu B)
  x.zipWith fadd (proj w L.wd (mx8 h))

/-- Where a run of nodes stands: by node, the residual stream and the KV rows so far. -/
structure NodeRun where
  xs  : List (List F32)
  kvs : List KvRows
  deriving DecidableEq, Repr

/-- The queries by node and head of a layer, and the run with that layer's KV rows. -/
def frontAll (w : Bytes) (s : Shape) (nodes : List QNode) (l : Nat) (r : NodeRun) : List (List (List F32)) × NodeRun :=
  let f := nodes.zipIdx.map (fun n => layerFront w s l n.1.pos (r.xs.getD n.2 []) (r.kvs.getD n.2 []))
  (f.map (·.1), { r with kvs := f.map (·.2) })

/-- Layers `l` to `l + n − 1` of every node. `mix` gives each node's u of all heads for a layer. -/
def layersRun (w : Bytes) (s : Shape) (nodes : List QNode) (mix : Nat → List (List (List F32)) → List KvRows → List (List F32)) :
    Nat → Nat → NodeRun → NodeRun
  | 0, _, r => r
  | n + 1, l, r =>
    let f := frontAll w s nodes l r
    let us := mix l f.1 f.2.kvs
    layersRun w s nodes mix n (l + 1) { f.2 with xs := f.2.xs.zipIdx.map (fun x => layerBack w s l x.1 (us.getD x.2 [])) }

/-- The embedding of each node (R106), and no KV rows yet. -/
def embedAll (w : Bytes) (s : Shape) (nodes : List QNode) : NodeRun :=
  { xs := nodes.map (fun n => (List.range s.d).map (fun i => bf16 (field w (256 + s.hd / 2 * 8 + (n.token * s.d + i) * 2) 2)))
    kvs := nodes.map (fun _ => []) }

/-- Attention with every block at hand. -/
def mixAlone (w : Bytes) (s : Shape) (ctx : List (Nat × KvRows)) (nodes : List QNode) (l : Nat) (qs : List (List (List F32))) (kvs : List KvRows) :
    List (List F32) :=
  qs.zipIdx.map (fun n => n.1.zipIdx.flatMap (fun q => attend w s l (included s ctx nodes kvs n.2) q.1 q.2))

/-- The forward computation of every node over the included positions of `ctx` (R106). -/
def forward (w : Bytes) (ctx : List (Nat × KvRows)) (nodes : List QNode) : NodeRun :=
  let s := shapeOf w
  layersRun w s nodes (mixAlone w s ctx nodes) s.layers 0 (embedAll w s nodes)

/-- The logits of a residual stream (R106). -/
def logits (w : Bytes) (x : List F32) : List F32 :=
  let s := shapeOf w
  let o := layersOff s + s.layers * layerBytes s
  proj w ⟨o + 4 * s.d, s.vocab, s.d, s.headFmt == 2⟩ (mx8 (rmsnorm x (f32s w o s.d) s.eps))

end Sys2Proof.Machine
end

