-- ==== Sys2Proof/Machine/Fabric.lean ====
section
/-! DEFINITION. Data that mailbox commands read (15_host_interface.md R436), and the fabric: grants and reservations, staging
and its checks, bind, load, swap, invocation of a plate's action lists, and the plate commands
(03_fabric_and_plates.md R59 to R73). -/

namespace Sys2Proof.Machine

/-! ## The data of a mailbox command (R436) -/

/-- What a command does with the part of its data that has been read (R436): whether it has ended, and the state. -/
abbrev Early := Bytes → State → Bool × State

/-- Nothing can be checked before all the data are there. -/
def noEarly : Early := fun _ s => (false, s)

/-- Read `len` bytes at a "host or device address" for a mailbox command, and go on with them or with the status that R436
gives. The `head` first bytes are judged before more is read. A host read is a request of PF0 that HOST_READ_COMPLETION answers; `sigOk` is what the row says of a signature. (DEDUCED: log entry 20) -/
def fetchSource (j : Job) (sigOk : Bool) (v len head : Nat) (early : Early) (go : Except Status Bytes → State → State) (s : State) : State :=
  match decodeAddr v with
  | .bad => answer j .badArg s
  | .host a => waitJob j j.subject (hostReadHead 0 a len head (.command j.mb j.order sigOk) (modJob j.order (fun x => { x with bad := j.bad }) s))
  | .dev a =>
    let k := min head len
    let first := if k = 0 then (.ok [], s) else devRead j.bad a k s
    match first.1 with
    | .error st => go (.error st) first.2
    | .ok b =>
      let e := if k = 0 then (false, first.2) else early b first.2
      if e.1 then e.2
      else
        let r := devRead j.bad (a + k) (len - k) e.2
        match r.1 with
        | .error .dataPoisoned =>
          let e := early (b ++ cellRead r.2.mem.cells (a + k) (cleanLen j.bad r.2 (a + k) (len - k))) r.2
          if e.1 then e.2 else go (.error .dataPoisoned) e.2
        | .error st => go (.error st) r.2
        | .ok c => go (.ok (b ++ c)) r.2

/-- A command's meaning that begins once and reads memory, where `m.bad` fails. -/
def onReads (m : MbReads) (op : Nat) (s : State) (f : Job → State) : State := onNewJob m.mb op s (fun j => f { j with bad := m.bad })

/-! ## Works, their grants and their session strokes (R45, R68, R71) -/

/-- Handles of every open session, round and context. -/
def workHandles (s : State) : List Nat :=
  (s.dec.elim [] (fun d => [d.handle])) ++ s.ptn.rounds.map (·.handle) ++ s.hev.ctxs.map (·.handle)

/-- The work that a session, round or context handle names (R64). -/
def workOf (s : State) (h : Nat) : Option Work :=
  if s.dec.any (·.handle == h) then some .decode
  else if s.ptn.rounds.any (·.handle == h) then some (.round h)
  else if s.hev.ctxs.any (·.handle == h) then some (.ctx h)
  else none

/-- A platen round by its handle. -/
def roundAt (s : State) (h : Nat) : Option Round := s.ptn.rounds.find? (·.handle == h)

/-- A homomorphic context by its handle. -/
def ctxAt (s : State) (h : Nat) : Option HCtx := s.hev.ctxs.find? (·.handle == h)

/-- The module stroke that is session stroke 0 of a work in motion; none while the decode session is parked or stopped (R45). (DEDUCED: log entry 48) -/
def workBase (s : State) : Work → Option Int
  | .decode => s.dec.bind (fun d => if d.state = 5 || d.state = 6 then none else some d.base)
  | .round h => (roundAt s h).map (·.base)
  | .ctx h => (ctxAt s h).map (·.base)

/-- The session stroke of a work: that of the module minus its base, or the value it froze at (R45). -/
def sessionStroke (s : State) (w : Work) : Nat :=
  match workBase s w with
  | none => s.dec.elim 0 (·.frozen)
  | some b => (s.prs.stroke - b).toNat

/-- A decode session in motion holds the press (R35): its step has reached the commit stroke and not committed, or the stroke in which its next step
is invoked has come and the step has not begun. So neither a late vote nor a wait between steps adds a session stroke (R25, R45).
(DEDUCED: log entry 48) -/
def decodeHolds (s : State) : Bool :=
  s.dec.any (fun d => (d.state == 3 || d.state == 4) && decide ((if d.pendStep.isSome then d.lastAt else d.resumeAt) ≤ sessionStroke s .decode))

/-- A twin grant lacks the twin of a sheet that it names (R71). -/
def twinLacks (m : BitVec 32) : Bool := twinMask m &&& ~~~m != 0

/-- The sheets of a mask can be granted: no work and no self-test holds one (R2, R68, R412). -/
def sheetsFree (s : State) (m : BitVec 32) : Bool := disjoint m (sheetBusy s) && disjoint m (testSheets s)

/-- Grant sheets, and banks for `bytes` of reservations, to a work; none when they cannot be granted (R2, R3, R69). The reserved banks are wiped: a
device write may have reached them while they were free (R12, R69, R179). -/
def grant (w : Work) (m : BitVec 32) (twin : Bool) (bytes : Nat) (s : State) : Option State :=
  if !sheetsFree s m then none
  else
    (pickBanks (bankCount bytes) m twin [] s.draw).map (fun b =>
      wipeBanks b (modPla (fun p => { p with grants := p.grants ++ [⟨w, m, twin, b⟩] }) { s with draw := s.draw + 1 }))

/-- A staged plate by its handle. -/
def plateAt (s : State) (h : Nat) : Option Plate := s.pla.store.find? (·.handle == h)

/-- The plate that a work's buffers hold under a handle, in the store or out of it (R66, R67). -/
def configAt (s : State) (h : Nat) : Option Plate := (s.pla.store ++ s.pla.loose).find? (·.handle == h)

/-- Both halves of a bind mask in twin mode (R71). -/
def fullMask (twin : Bool) (m : BitVec 32) : BitVec 32 := if twin then m ||| twinMask m else m

/-! ## PLATE_STAGE (R59 to R64) -/

/-- The section table of an image breaks check 6 of R62. (DEDUCED: log entry 46) -/
def sectionsBad (img : Bytes) : Bool :=
  let cnt := field img 0x12 2
  let lo := 0x100 + 16 * cnt
  let hi := img.length - 4640
  let secs := (List.range cnt).map (fun i =>
    let e := 0x100 + 16 * i
    (field img e 2, field img (e + 4) 4, field img (e + 8) 4, field img (e + 2) 2 + field img (e + 12) 4))
  let bad := fun (x : Nat × Nat × Nat × Nat) =>
    decide (x.1 < 1) || decide (7 < x.1) || x.2.1 % 16 != 0 || x.2.2.1 == 0 || decide (x.2.1 < lo) ||
      decide (hi < x.2.1 + x.2.2.1) || x.2.2.2 != 0
  let idx := secs.zipIdx
  secs.any bad || !noDup (secs.map (·.1)) ||
    idx.any (fun x => idx.any (fun y => x.2 != y.2 && overlaps x.1.2.1 x.1.2.2.1 y.1.2.1 y.1.2.2.1))

/-- The digest of an image (R60). -/
def plateDigest (img : Bytes) : Bytes := sha512 (img.take (img.length - 4640))

/-- A signer is accepted for a kind (R61): the Cehorn plate key, or an enrolled owner plate key for every kind but 6. -/
def signerOk (s : State) (signer : Bytes) (kind : Nat) : Bool :=
  signer == digest64 Config.cehornPlateDigest ||
  (kind != 6 && (list4 s.life.plateKeys).any (fun k => !k.isEmpty && sha512 k == signer))

/-- Check 2 of R62 over the header. -/
def plateHeaderBad (img : Bytes) : Bool :=
  field img 0x00 4 != 0x54414C50 || field img 0x04 2 != 1 || field img 0x08 4 / 4 != 0 || field img 0x14 4 / 65536 != 0 ||
    field img 0x1C 4 != 0 || !zeroAt img 0xA0 96

/-- The checks of R62 before the signature, in their order: the reason code of the first that fails (Table 3-6). `n` is the
supplied length. -/
def stageReason (s : State) (img : Bytes) (n : Nat) : Option Nat :=
  let checks := [
    (field img 0x0C 4 != n, 1),
    (plateHeaderBad img || !zeroAt img (n - 13) 13, 2),
    (field img 0x06 2 != 1, 3),
    (!signerOk s (slice img 0x60 64) (field img 0x10 1), 4)]
  (checks.find? (·.1)).map (·.2)

/-- Check 6 of R62: a header value out of range, or a bad section layout. (DEDUCED: log entry 46) -/
def stageLayoutBad (img : Bytes) : Bool :=
  let out := fun (lo hi v : Nat) => decide (v < lo) || decide (hi < v)
  out 1 6 (field img 0x10 1) || out 1 32 (field img 0x11 1) || out 1 32 (field img 0x12 2) ||
    decide (0x00FFFFFF < field img 0x18 4) || sectionsBad img

/-- A stage or bind ends with `PLATE_REJECTED` and a reason code (R62, R65, Table 3-10). -/
def rejectPlate (j : Job) (reason : Nat) (s : State) : State :=
  refuseWith j .plateRejected reason (modPla (fun p => { p with sticky := setBit p.sticky 2 }) s)

/-- The supplied length is one that no image may have (check 1 of R62). (DEDUCED: log entry 46) -/
def imageLengthBad (n : Nat) : Bool := decide (n < 8192) || decide (67108864 < n) || n % 16 != 0

/-- PLATE_STAGE with the part of its image that has been read: LENGTH, and check 2 as far as the header shows it (R62, R436). -/
def plateEarly (j : Job) : Early := fun img s =>
  if decide (16 ≤ img.length) && field img 0x0C 4 != arg j 8 4 then (true, rejectPlate j 1 s)
  else if decide (256 ≤ img.length) && plateHeaderBad img then (true, rejectPlate j 2 s)
  else (false, s)

/-- PLATE_STAGE once its image has been read, or its read has failed. -/
def plateStageData (j : Job) (sigOk : Bool) (r : Except Status Bytes) (s : State) : State :=
  match r with
  | .error st => answer j st s
  | .ok img =>
    match stageReason s img img.length with
    | some c => rejectPlate j c s
    | none =>
      if !sigOk then answer j .signatureInvalid (modPla (fun p => { p with sticky := setBit p.sticky 1 }) s)
      else if stageLayoutBad img then rejectPlate j 5 s
      else if decide (64 ≤ s.pla.store.length) || decide (0x40000000 < storeUsed s + img.length) then answer j .busy s
      else
        let h := freshHandle ((s.pla.store ++ s.pla.loose).map (·.handle)) s
        let p : Plate := { handle := h.1, image := img, digest := plateDigest img, signer := slice img 0x60 64,
                           kind := field img 0x10 1, sheets := field img 0x11 1, flags := field img 0x08 4,
                           span := field img 0x18 4, shape := slice img 0x20 64 }
        finish j .ok (leBytes 4 h.1 ++ zeros 4 ++ p.digest)
          (modPla (fun x => { x with store := x.store ++ [p] }) (writeLines (storeBase s + storeUsed s) img.length h.2))

/-- PLATE_STAGE (0x0401; R59 to R63). (DEDUCED: log entry 46) -/
def execPlateStage (m : MbReads) (sigOk : Bool) (s : State) : Out :=
  .next <| onReads m 0x0401 s fun j =>
    if !lenIs j 16 || arg j 12 4 != 0 || badAddr (arg j 0 8) then answer j .badArg s
    else if imageLengthBad (arg j 8 4) then rejectPlate j 1 s
    else fetchSource j sigOk (arg j 0 8) (arg j 8 4) 0 (plateEarly j) (plateStageData j sigOk) s

/-! ## PLATE_BIND (R65, R66) -/

/-- The plate kinds that match a work (R65, check 6). -/
def kindFits : Work → Nat → Bool
  | .decode, k => k == 1 || k == 2
  | .round _, k => k == 3
  | .ctx _, k => k == 4 || k == 5

/-- The shape that a plate of this kind must be compiled for (R65, check 8). -/
def shapeFits (s : State) (w : Work) (p : Plate) : Bool :=
  match w with
  | .decode =>
    if p.kind = 1 then s.weights.any (fun x => shapeDigest x.bytes == p.shape)
    else s.dec.any (fun d => !d.draft.isEmpty && shapeDigest d.draft == p.shape)
  | .round _ => p.shape == zeros 64
  | .ctx h => (ctxAt s h).any (fun c => sha512 c.block == p.shape)

/-- Checks 6 to 8 of Table 3-6: the reason of the first that fails. -/
def bindReason (s : State) (w : Work) (twin : Bool) (p : Plate) : Option Nat :=
  if !kindFits w p.kind then some 6
  else if twin && p.flags % 2 == 0 then some 7
  else if !shapeFits s w p then some 8
  else none

/-- The sheet mask of a bind breaks R65 or R71. -/
def bindMaskBad (g : Grant) (p : Plate) (m : BitVec 32) : Bool :=
  m &&& ~~~g.mask != 0 || popcount m != p.sheets || (bit p.flags 1 && !singleDie m) ||
    (g.twin && m &&& ~~~primaryMask != 0)

/-- An action of the work on a sheet of the mask is due at or after session stroke `S` (R66 step 3). -/
def oldPlateBusy (s : State) (w : Work) (m : BitVec 32) (S : Nat) : Bool :=
  s.prs.actions.any (fun a => a.work == w && decide (a.unit < 512) && m.getLsbD (sheetOf a.unit) && decide (S ≤ a.due))

/-- PLATE_BIND (0x0402; R65, R66). -/
def execPlateBind (mb : MbId) (s : State) : Out :=
  .next <| onNewJob mb 0x0402 s fun j =>
    if !lenIs j 24 || arg j 12 4 != 0 then answer j .badArg s
    else match workOf s (arg j 0 4), plateAt s (arg j 4 4) with
    | some w, some p =>
      let g := (grantOf s w).getD ⟨w, 0, false, []⟩
      let m := BitVec.ofNat 32 (arg j 8 4)
      let full := fullMask g.twin m
      if bindMaskBad g p m then answer j .badArg s
      else match bindReason s w g.twin p with
      | some c => rejectPlate j c s
      | none =>
        let land := sessionStroke s w
        let S := if arg j 16 8 = 0 then land + 2 else arg j 16 8
        if s.pla.swaps.any (fun x => !disjoint x.mask full) then answer j .busy s
        else if S ≤ land + 1 then answer j .swapLate s
        else if oldPlateBusy s w full S then answer j .notIdle s
        else
          let x : Swap := { work := w, plate := p.handle, mask := full, stroke := S, start := land + 1, loading := false, loaded := false }
          finish j .ok (leBytes 8 S) (modPla (fun q => { q with swaps := q.swaps ++ [x] }) s)
    | _, _ => answer j .badArg s

/-! ## PLATE_UNSTAGE, FABRIC_STATUS (Table 3-7, R67) -/

/-- The plate is bound, active or pending, or belongs to a registered burnish set (R67, R222). -/
def plateInUse (s : State) (h : Nat) : Bool :=
  s.pla.swaps.any (·.plate == h) || s.pla.active.any (·.plate == h) || s.hev.ctxs.any (fun c => c.burnish.any (fun b => b.plates.contains h))

/-- Where the image of a plate lies in the store: the images follow one another in the order of their stages, so that whatever R63 lets in has its
place, and one that leaves has the later ones move up. (DESIGN CHOICE: log entry 85) -/
def plateStart (s : State) (h : Nat) : Nat := storeBase s + sumNat ((s.pla.store.takeWhile (·.handle != h)).map (·.image.length))

/-- PLATE_UNSTAGE (0x0403). -/
def execPlateUnstage (mb : MbId) (s : State) : Out :=
  .next <| onNewJob mb 0x0403 s fun j =>
    if !lenIs j 8 || arg j 4 4 != 0 || (plateAt s (arg j 0 4)).isNone then answer j .badArg s
    else if plateInUse s (arg j 0 4) then answer j .notIdle s
    else
      let i := plateStart s (arg j 0 4)
      let n := (plateAt s (arg j 0 4)).elim 0 (·.image.length)
      answer j .ok (modPla (fun p => { p with store := p.store.filter (·.handle != arg j 0 4) }) (writeLines i (storeBase s + storeUsed s - n - i) s))

/-- Banks of a sheet that no reservation holds. -/
def freeBanks (s : State) (sheet : Nat) : Nat := 256 - ((resvBanks s).filter (fun b => b / 256 == sheet)).length

/-- FABRIC_STATUS (0x0404). -/
def execFabricStatus (mb : MbId) (s : State) : Out :=
  .next <| onNewJob mb 0x0404 s fun j =>
    if !lenIs j 0 then answer j .badArg s
    else
      let busy := sheetBusy s ||| testSheets s
      finish j .ok (leBytes 4 (~~~busy).toNat ++ leBytes 4 (sheetTwin s).toNat ++ leBytes 4 s.pla.store.length ++
        leBytes 8 (storeUsed s) ++ (List.range 32).flatMap (fun i => leBytes 2 (freeBanks s i))) s

/-! ## Load, swap and invocation (R36, R66) -/

/-- Load actions whose session stroke START has been reached begin (R66 step 4). -/
def startLoads (s : State) : State :=
  modPla (fun p => { p with swaps := p.swaps.map (fun x =>
    if (workBase s x.work).isSome && decide (x.start ≤ sessionStroke s x.work) then { x with loading := true } else x) }) s

/-- A bit of a 512-bit word is inverted. -/
def flipBit (v : BitVec 512) (i : Nat) : BitVec 512 := v ^^^ BitVec.ofNat 512 (2 ^ i)

/-- One swap applies: the plate becomes active on its sheets, whose buffers change place (R66, Table 3-13). -/
def applySwap (x : Swap) (s : State) : State :=
  let old := s.pla.active.map (fun a => if a.work == x.work then { a with mask := a.mask &&& ~~~x.mask } else a)
  let now := old.filter (fun a => a.mask != 0) ++ [⟨x.work, x.plate, x.mask⟩]
  let left := s.pla.swaps.filter (· != x)
  modPla (fun p => { p with
    active := now
    swaps := left
    loose := p.loose.filter (fun y => now.any (·.plate == y.handle) || left.any (·.plate == y.handle))
    activeBuf := graverBits x.mask flipBit p.activeBuf
    shadowVld := graverBits x.mask clearBit p.shadowVld
    lastSwap := s.prs.stroke }) s

/-- PLATE_SWAP: every loaded plate whose swap session stroke has begun becomes active (R66). -/
def applySwaps (s : State) : State :=
  (s.pla.swaps.filter (fun x => x.loaded && (workBase s x.work).isSome && decide (x.stroke ≤ sessionStroke s x.work))).foldl
    (fun st x => applySwap x st) s

/-- This member's index in its ring, 0 outside (Table 2-1). -/
def memberIndex (s : State) : Nat := s.ring.elim 0 (·.index)

/-- The ring epoch, 0 outside a ring (Table 2-1). -/
def ringEpoch (s : State) : Nat := s.ring.elim 0 (·.epoch)

/-- The action that a template gives when its work invokes the plate at session stroke `S` (R34, R36). `flip` is set for the
secondary half of a twin work, whose gravers and producers are the twins (R71); what another member produces comes from its primary half alone
(R72). R71 names no twin of a service or I/O domain: its action runs once for each half, on what that half publishes. (DESIGN CHOICE: log entry 81)
Every name carries this member's index and the epoch (Table 2-1, R143); only a session of the ring names what other members produce. (DEDUCED: log
entry 43) -/
def instantiate (s : State) (w : Work) (run : Option Nat) (plate S id : Nat) (flip : Bool) (t : ActionTemplate) : Action :=
  let unit := fun (u : Nat) => if flip && decide (u < 512) then Nat.xor u 0x100 else u
  let shared := w == .decode && s.dec.any (fun d => d.ring != 0)
  let member := fun (ahead : Nat) => if shared then (memberIndex s + ahead) % s.ring.elim 1 (·.count) else memberIndex s
  let name := fun (i : Nat × Nat × Nat × Nat) =>
    ({ stroke := S + i.2.2.1, member := member i.1, unit := if member i.1 == memberIndex s then unit i.2.1 else i.2.1, epoch := ringEpoch s
       slot := i.2.2.2 } : DatumName)
  let out := fun (o : Nat × Nat × Nat) =>
    (({ stroke := 0, member := memberIndex s, unit := unit t.unit, epoch := ringEpoch s, slot := o.1 } : DatumName), o.2)
  { id := id, work := w, plate := plate, run := run, unit := unit t.unit, start := S + t.startOff, due := S + max t.startOff t.dueOff,
    inputs := t.inputs.map name, reads := t.reads, steps := t.steps, outputs := t.outputs.map out, stores := t.stores,
    checked := t.checked, sends := t.sends && !flip, trigger := if flip then none else t.trigger, exch := none, twin := flip, running := false,
    consumed := [], poisoned := false }

/-- The actions of a list of templates, numbered from `id`. -/
def instantiateAll (s : State) (w : Work) (run : Option Nat) (plate S : Nat) (flip : Bool) : Nat → List ActionTemplate → List Action
  | _, [] => []
  | id, t :: ts => instantiate s w run plate S id flip t :: instantiateAll s w run plate S flip (id + 1) ts

/-- Invoke one active plate of a work at session stroke `S`: its action lists are instantiated (R36), in both halves of a twin
work (R71). `run` names the run of the plate where a work may have several at a time. -/
def invokePlate (w : Work) (run : Option Nat) (a : Active) (S : Nat) (s : State) : State :=
  match configAt s a.plate with
  | none => s
  | some p =>
    let twin := (grantOf s w).any (·.twin)
    let ts := Config.plateActions p.image (if twin then a.mask &&& primaryMask else a.mask)
    let one := instantiateAll s w run a.plate S false s.prs.nextAction ts
    let two := if twin then instantiateAll s w run a.plate S true (s.prs.nextAction + ts.length) ts else []
    modPrs (fun q => { q with actions := q.actions ++ one ++ two, nextAction := q.nextAction + one.length + two.length }) s

/-- The active plates of a work whose kind is `k`. -/
def activeOf (s : State) (w : Work) (k : Nat) : List Active :=
  s.pla.active.filter (fun a => a.work == w && (configAt s a.plate).any (·.kind == k))

/-- Invoke every active plate of kind `k` of a work at session stroke `S`. -/
def invokeKind (w : Work) (run : Option Nat) (k S : Nat) (s : State) : State :=
  (activeOf s w k).foldl (fun st a => invokePlate w run a S st) s

/-- The largest DUE offset of the active plates of kind `k` of a work (SPAN, Table 3-4). -/
def spanOf (s : State) (w : Work) (k : Nat) : Nat :=
  maxNat ((activeOf s w k).map (fun a => (configAt s a.plate).elim 0 (·.span)))

/-- The work still has instantiated actions that are not complete. -/
def workBusy (s : State) (w : Work) : Bool := s.prs.actions.any (fun a => a.work == w)

end Sys2Proof.Machine
end

