-- ==== Sys2Proof/Machine/HevMath.lean ====
section
/-! DEFINITION. The exact definitions of the homomorphic engine: primes and roots, the NTT, base conversion, key switch, rescale,
automorphism (10_homomorphic_engine.md R196, R197, R203, R206 to R210, R214). A polynomial is a list of N residues; a component is
the list of its limbs' polynomials. -/

namespace Sys2Proof.Machine

/-- A polynomial modulo one prime: residues by index. -/
abbrev Poly := List Nat

/-- a^n modulo r. -/
def pw (r a n : Nat) : Nat := modPow r (n.log2 + 1) a n

/-- The inverse of a modulo a prime r. -/
def inv (r a : Nat) : Nat := pw r a (r - 2)

/-! ## Primes and roots (R196, R197) -/

/-- n − 1 = d × 2^k with d odd: (d, k); `fuel` bounds k. -/
def oddPart : Nat → Nat → Nat × Nat
  | 0, d => (d, 0)
  | fuel + 1, d => if d % 2 = 0 && d != 0 then let x := oddPart fuel (d / 2); (x.1, x.2 + 1) else (d, 0)

/-- The squares of x, k of them: one is n − 1. -/
def hitsMinusOne (n : Nat) : Nat → Nat → Bool
  | 0, _ => false
  | k + 1, x => x == n - 1 || hitsMinusOne n k (x * x % n)

/-- n passes the Miller–Rabin test with base a. -/
def mrBase (n a : Nat) : Bool :=
  let x := oddPart 64 (n - 1)
  let y := pw n a x.1
  a % n == 0 || y == 1 || hitsMinusOne n x.2 y

/-- n is prime under the deterministic test of R196. -/
def mrPrime (n : Nat) : Bool :=
  decide (2 ≤ n) && (n == 2 || (n % 2 == 1 && [2, 3, 5, 7, 11, 13, 17, 19, 23, 29, 31, 37].all (mrBase n)))

/-- The first number from `i` on, among `fuel` of them, for which `p` holds. -/
def firstFrom (p : Nat → Bool) : Nat → Nat → Option Nat
  | 0, _ => none
  | fuel + 1, i => if p i then some i else firstFrom p fuel (i + 1)

/-- ψ_r: the least integer in [2, r) whose N-th power is r − 1 (R197). -/
def psi (N r : Nat) : Nat := (firstFrom (fun x => pw r x N == r - 1) (r - 2) 2).getD 1

/-! ## The NTT (R203) -/

/-- The low `w` bits of i reversed. -/
def brv (w i : Nat) : Nat := (List.range w).foldl (fun a k => 2 * a + bits i k k) 0

/-- e_i = 2 × brv(i) + 1. -/
def expOf (w i : Nat) : Nat := 2 * brv w i + 1

/-- The sum of products modulo r. -/
def sumMod (r : Nat) (l : List Nat) : Nat := l.foldl (fun a x => modAdd r a (x % r)) 0

/-- Evaluation form of a polynomial of N = 2^w coefficients. -/
def ntt (w r : Nat) (a : Poly) : Poly :=
  let g := psi (2 ^ w) r
  (List.range (2 ^ w)).map (fun i => sumMod r (a.zipIdx.map (fun x => modMul r x.1 (pw r g (expOf w i * x.2 % 2 ^ (w + 1))))))

/-- Coefficient form of a polynomial in evaluation form. -/
def intt (w r : Nat) (v : Poly) : Poly :=
  let g := psi (2 ^ w) r
  let n' := inv r (2 ^ w)
  (List.range (2 ^ w)).map (fun j =>
    modMul r n' (sumMod r (v.zipIdx.map (fun x => modMul r x.1 (pw r g ((2 ^ (w + 1) - expOf w x.2 * j % 2 ^ (w + 1)) % 2 ^ (w + 1)))))))

/-- Point by point. -/
def polyAdd (r : Nat) (a b : Poly) : Poly := a.zipWith (modAdd r) b
def polySub (r : Nat) (a b : Poly) : Poly := a.zipWith (modSub r) b
def polyMul (r : Nat) (a b : Poly) : Poly := a.zipWith (modMul r) b
def polyNeg (r : Nat) (a : Poly) : Poly := a.map (modSub r 0)

/-- Every limb of a component by a function of its prime. -/
def limbs (q : List Nat) (f : Nat → Poly → Poly) (c : List Poly) : List Poly := q.zipWith f c

/-- Every limb of two components. -/
def limbs2 (q : List Nat) (f : Nat → Poly → Poly → Poly) (a b : List Poly) : List Poly :=
  q.zipWith (fun r (x : Poly × Poly) => f r x.1 x.2) (a.zip b)

/-- A component in evaluation form, and in coefficient form. -/
def toEval (w : Nat) (q : List Nat) (ev : Bool) (c : List Poly) : List Poly := if ev then c else limbs q (ntt w) c
def toCoef (w : Nat) (q : List Nat) (ev : Bool) (c : List Poly) : List Poly := if ev then limbs q (intt w) c else c

/-! ## Base conversion and key switch (R206, R207, R214) -/

/-- The product of primes. -/
def prodOf (l : List Nat) : Nat := l.foldl (· * ·) 1

/-- Conv from the primes S to a prime r of one value, by its residues (R206). -/
def convOne (S : List Nat) (r : Nat) (x : List Nat) : Nat :=
  sumMod r (S.zipWith (fun p v =>
    let m := prodOf S / p
    modMul p (v % p) (inv p (m % p)) * (m % r)) x)

/-- Conv of a polynomial in coefficient form. -/
def conv (S : List Nat) (r : Nat) (N : Nat) (x : List Poly) : Poly := (List.range N).map (fun i => convOne S r (x.map (fun p => p.getD i 0)))

/-- Digit count at level ℓ with K special primes: the digits j with jK ≤ ℓ. -/
def digitCount (K level : Nat) : Nat := if K = 0 then 0 else level / K + 1

/-- ModUp (R207 step 1): digit j of a component at level ℓ in coefficient form, on the primes of B, in evaluation form. -/
def modUp (p : HParams) (level j : Nat) (c : List Poly) : List Poly :=
  let K := p.p.length
  let q := p.q.take (level + 1)
  let S := (q.drop (j * K)).take K
  let x := (c.drop (j * K)).take K
  let own := fun (i : Nat) => decide (j * K ≤ i ∧ i < j * K + S.length)
  ((q ++ p.p).zipIdx).map (fun r =>
    ntt p.logN r.1 (if own r.2 then c.getD r.2 [] else conv S r.1 (2 ^ p.logN) x))

/-- The key part (digit, part) on the primes of B at level ℓ (chunks above ℓ are skipped). -/
def keyPart (p : HParams) (k : HKey) (level j t : Nat) : List Poly :=
  let c := (k.chunks.getD j []).getD t []
  c.take (level + 1) ++ c.drop p.q.length

/-- Zero on the primes of B. -/
def zeroB (p : HParams) (level : Nat) : List Poly :=
  (p.q.take (level + 1) ++ p.p).map (fun _ => List.replicate (2 ^ p.logN) 0)

/-- ModDown (R207 step 3): from B in evaluation form to limbs 0 to ℓ in evaluation form. -/
def modDown (p : HParams) (level : Nat) (u : List Poly) : List Poly :=
  let q := p.q.take (level + 1)
  let low := (p.p.zip (u.drop (level + 1))).map (fun x => intt p.logN x.1 x.2)
  q.zipWith (fun r (x : Poly) =>
    let d := ntt p.logN r (conv p.p r (2 ^ p.logN) low)
    let i := inv r (prodOf p.p % r)
    (polySub r x d).map (fun v => modMul r v i)) u

/-- Add the products of the digits with one key part into U_t. -/
def innerProduct (p : HParams) (k : HKey) (level t : Nat) (ds : List (List Poly)) (u : List Poly) : List Poly :=
  let B := p.q.take (level + 1) ++ p.p
  (ds.zipIdx).foldl (fun a d => limbs2 B polyAdd a (limbs2 B polyMul d.1 (keyPart p k level d.2 t))) u

/-- Every digit of a component. -/
def digits (p : HParams) (level : Nat) (c : List Poly) : List (List Poly) :=
  (List.range (digitCount p.p.length level)).map (fun j => modUp p level j c)

/-- KS(c)_t for a component in coefficient form; the result is in evaluation form (R207). -/
def keySwitch (p : HParams) (k : HKey) (level : Nat) (c : List Poly) (t : Nat) : List Poly :=
  modDown p level (innerProduct p k level t (digits p level c) (zeroB p level))

/-! ## Rescale (R208) -/

/-- The centred value of v modulo q. -/
def centred (q v : Nat) : Int := if (q - 1) / 2 < v then (v : Int) - q else v

/-- Drop limb ℓ of a component in coefficient form, rescaling (CKKS) or switching the modulus (BGV). -/
def rescale (p : HParams) (level : Nat) (c : List Poly) : List Poly :=
  let ql := p.q.getD level 1
  let delta := fun (v : Nat) => if p.bgv then (p.t : Int) * centred ql (modMul ql v (inv ql (p.t % ql))) else centred ql v
  let top := c.getD level []
  (p.q.take level).zipWith (fun r (x : Poly) =>
    let i := inv r (ql % r)
    (x.zip top).map (fun y => modMul r (modSub r y.1 (delta y.2 % (r : Int)).toNat) i)) c

/-! ## Automorphism (R209) -/

/-- σ_g of one limb in coefficient form. -/
def sigma (N g r : Nat) (a : Poly) : Poly :=
  let moved := a.zipIdx.map (fun x => (x.2 * g % (2 * N), x.1))
  (List.range N).map (fun j =>
    match moved.find? (fun m => m.1 % N == j) with
    | some m => if m.1 < N then m.2 else modSub r 0 m.2
    | none => 0)

/-- The sum of products of a limb's words with powers of ψ_r. -/
def psiSum (w r : Nat) (l : List Nat) (e : Nat → Nat) : Nat :=
  sumMod r (l.zipIdx.map (fun x => modMul r x.1 (pw r (psi (2 ^ w) r) (e x.2 % 2 ^ (w + 1)))))

/-- −n modulo 2N. -/
def negExp (w n : Nat) : Nat := 2 ^ (w + 1) - n % 2 ^ (w + 1)

/-- The check values C_in, of a pass's input, and C_out, of its output, in coefficient and in evaluation form (R210). -/
def checkIn (ev : Bool) (w g r : Nat) (a : Poly) : Nat :=
  if ev then psiSum w r a (fun i => negExp w (expOf w i)) else psiSum w r a (fun i => g * i)
def checkOut (ev : Bool) (w g r : Nat) (b : Poly) : Nat :=
  if ev then psiSum w r b (fun i => negExp w (expOf w i * g)) else psiSum w r b id

/-! ## Objects -/

/-- The bytes of a residue list. -/
def residueBytes (c : List (List Poly)) : Bytes := (c.flatten.flatten).flatMap (leBytes 8)

/-- A component at level ℓ. -/
def atLevel (level : Nat) (c : List Poly) : List Poly := c.take (level + 1)

end Sys2Proof.Machine
end

