-- ==== Sys2Proof/Machine/WorkRings.lean ====
section
/-! DEFINITION. Work rings and completion rings: their commands, doorbells, descriptor fetch, and quiesce
(14_rings_and_buffer_pool.md R273 to R280, R438; 15_host_interface.md R301). -/

namespace Sys2Proof.Machine

/-- The functions that own rings (R273). -/
def ownsRings (fn : Nat) : Bool := fn == 1 || fn == 3 || fn == 4

/-- A ring number: the lowest free of 8,192 (R274). -/
def freeRing (used : List Nat) : Option Nat := leastBelow (min 8192 (used.length + 1)) (fun n => !used.contains n)

/-- The refusals that follow a create's field checks: a quiesced or a fenced function (R274). -/
def createGate (s : State) (fn : Nat) : Option Status :=
  firstFail [(quiesced s fn, .notIdle), (fenced s fn, .engineFenced)]

/-- WRING_CREATE (0x0A01, R274). -/
def execWringCreate (mb : MbId) (s : State) : Out :=
  .next <| onNewJob mb 0x0A01 s fun j =>
    let fn := arg j 0 1
    let k := arg j 2 1
    if !lenIs j 16 || arg j 3 1 != 0 || arg j 6 2 != 0 || !ownsRings fn || decide (k < 4) || decide (16 < k) ||
        !(cringAt s (arg j 4 2)).any (fun c => c.fn == fn) || ringBaseBad s (arg j 1 1) (arg j 8 8) (64 * 2 ^ k) then answer j .badArg s
    else match createGate s fn with
    | some st => answer j st s
    | none =>
      match freeRing (s.buf.wrings.map (·.num)) with
      | none => answer j .busy s
      | some n =>
        let w : WRing := { num := n, fn := fn, hbm := arg j 1 1 == 1, k := k, cring := arg j 4 2, base := addrOf (arg j 8 8), state := 1
                           producer := 0, fetch := 0, completed := 0, flushed := 0, destroyer := none }
        finish j .ok (leBytes 2 n ++ zeros 6) (modBuf (fun b => { b with wrings := b.wrings ++ [w] }) s)

/-- CRING_CREATE (0x0A03, R274). A vector that the function does not have (Table 15-2) is out of range. (DEDUCED: log entry 57) -/
def execCringCreate (mb : MbId) (s : State) : Out :=
  .next <| onNewJob mb 0x0A03 s fun j =>
    let fn := arg j 0 1
    let k := arg j 2 1
    let v := arg j 4 2
    if !lenIs j 24 || arg j 6 2 != 0 || !ownsRings fn || decide (k < 4) || decide (16 < k) || (decide (2048 ≤ v) && v != 0xFFFF) ||
        ringBaseBad s (arg j 1 1) (arg j 8 8) (32 * 2 ^ k) || tailBad s (arg j 16 8) then answer j .badArg s
    else match createGate s fn with
    | some st => answer j st s
    | none =>
      match freeRing (s.buf.crings.map (·.num)) with
      | none => answer j .busy s
      | some n =>
        let c : CRing := { num := n, fn := fn, hbm := arg j 1 1 == 1, k := k, coalesce := arg j 3 1, vector := v, base := addrOf (arg j 8 8)
                           tail := arg j 16 8, producer := 0, consumer := 0, reserved := 0, irqOpen := false, irqPending := false }
        finish j .ok (leBytes 2 n ++ zeros 6) (modBuf (fun b => { b with crings := b.crings ++ [c] }) s)

/-- The fetched descriptors of a work ring that are not complete. -/
def ringDescs (s : State) (n : Nat) : List FDesc := s.buf.descs.filter (·.wring == n)

/-- A drained ring is freed, and its WRING_DESTROY completes (R280, R438). -/
def freeDrained (w : WRing) (s : State) : State :=
  let s := modBuf (fun b => { b with wrings := b.wrings.filter (·.num != w.num) }) s
  match w.destroyer.bind (fun d => jobAt s d.2) with
  | some j => conclude j .ok (leBytes 4 w.flushed ++ zeros 4) s
  | none => s

/-- Nothing of a draining ring is left: its fetched descriptors have completed, and no entry waits to be written in its completion ring (R280, R438).
(DEDUCED: log entry 27) -/
def drained (s : State) (w : WRing) : Bool :=
  (ringDescs s w.num).isEmpty && !s.hif.held.any (fun x => match x.2 with
    | .hostWrite fn a _ => s.buf.crings.any (fun c => c.num == w.cring && !c.hbm && fn == c.fn && decide (c.base ≤ a ∧ a < c.base + 32 * 2 ^ c.k))
    | _ => false)

/-- A descriptor read of the ring is outstanding or held. -/
def readingRing (s : State) (n : Nat) : Bool := s.hif.reads.any (fun r => match r.purpose with
  | .descriptor w _ => w == n
  | _ => false)

/-- The outstanding descriptor read of a ring is abandoned, and the entry reserved for it is free again. -/
def abandonFetch (w : WRing) (s : State) : State :=
  if readingRing s w.num then
    modCring w.cring (fun c => { c with reserved := c.reserved - 1 })
      (dropReads (fun r => match r.purpose with
        | .descriptor n _ => n == w.num
        | _ => false) s)
  else s

/-- WRING_DESTROY (0x0A02, R280). -/
def execWringDestroy (mb : MbId) (s : State) : Out :=
  .next <| onNewJob mb 0x0A02 s fun j =>
    if !lenIs j 8 || !zeroAt j.payload 2 6 then answer j .badArg s
    else match wringAt s (arg j 0 2) with
    | none => answer j .badArg s
    | some w =>
      if w.state = 3 || w.state = 4 then answer j .notIdle s
      else
        let s := abandonFetch w s
        let w := { w with state := 4, flushed := (w.producer + 2 ^ 32 - w.fetch) % 2 ^ 32, producer := w.fetch, destroyer := some (j.mb, j.order) }
        let s := modWring w.num (fun _ => w) s
        if drained s w then freeDrained w s else waitJob j w.num s

/-- WRING_DRAIN_DONE (R280, R438): the last fetched descriptor of a draining ring has completed, and its entry is written. -/
def execWringDrainDone (wring : Nat) (s : State) : Out :=
  .next <|
    match wringAt s wring with
    | none => s
    | some w => if w.state = 4 && drained s w then freeDrained w s else s

/-- CRING_DESTROY (0x0A04, Table 14-1). -/
def execCringDestroy (mb : MbId) (s : State) : Out :=
  .next <| onNewJob mb 0x0A04 s fun j =>
    if !lenIs j 8 || !zeroAt j.payload 2 6 || (cringAt s (arg j 0 2)).isNone then answer j .badArg s
    else if s.buf.wrings.any (fun w => w.cring == arg j 0 2) then answer j .notIdle s
    else answer j .ok (modBuf (fun b => { b with crings := b.crings.filter (·.num != arg j 0 2) }) s)

/-- WRING_STATUS (0x0A05, Table 14-1). -/
def execWringStatus (mb : MbId) (s : State) : Out :=
  .next <| onNewJob mb 0x0A05 s fun j =>
    if !lenIs j 8 || !zeroAt j.payload 2 6 then answer j .badArg s
    else match wringAt s (arg j 0 2) with
    | none => answer j .badArg s
    | some w => finish j .ok (leBytes 1 w.state ++ zeros 3 ++ leBytes 4 w.producer ++ leBytes 4 w.fetch ++ leBytes 4 w.completed) s

/-- A function is idle (R301's table). -/
def fnIdle (s : State) (fn : Nat) : Bool :=
  if fn = 1 then s.dec.isNone
  else if fn = 2 then s.ptn.rounds.isEmpty
  else if fn = 3 then s.hev.ctxs.isEmpty
  else s.rdm.conns.isEmpty && s.rdm.windows.isEmpty && s.rdm.regions.isEmpty && s.rdm.pds.isEmpty

/-- FUNC_QUIESCE (0x0A06, R301). (DEDUCED: log entry 57) -/
def execFuncQuiesce (mb : MbId) (s : State) : Out :=
  .next <| onNewJob mb 0x0A06 s fun j =>
    let fn := arg j 0 1
    if !lenIs j 8 || !zeroAt j.payload 2 6 || decide (fn < 1) || decide (4 < fn) || decide (1 < arg j 1 1) then answer j .badArg s
    else if arg j 1 1 = 0 then answer j .ok (modFn fn (fun f => { f with quiesced := false }) s)
    else if !fnIdle s fn || s.buf.descs.any (·.fn == fn) then answer j .notIdle s
    else answer j .ok (modFn fn (fun f => { f with quiesced := true }) s)

/-! ## Doorbells (R275, R276, R438) -/

/-- A doorbell is ignored (R276). -/
def rejectDoorbell (s : State) : State := modBuf (fun b => { b with sticky := setBit b.sticky 4, doorbell := sat b.doorbell }) s

/-- Doorbells of the function are ignored: it is quiesced (R301), or a removal has stopped intake (R354). (DEDUCED: log entry 28) -/
def doorbellsOff (s : State) (fn : Nat) : Bool := quiesced s fn || s.life.removal.isSome

/-- A work-ring doorbell (R276): the producer index of a ring. The reserved half is discarded (R16). -/
def workDoorbell (fn ring v : Nat) (s : State) : State :=
  match wringAt s ring with
  | none => rejectDoorbell s
  | some w =>
    let p := v % 2 ^ 32
    if w.fn != fn || doorbellsOff s fn || fenced s fn then rejectDoorbell s
    else if p = w.producer then s
    else if 2 ^ w.k < (p + 2 ^ 32 - w.fetch) % 2 ^ 32 then rejectDoorbell s
    else modWring ring (fun w => { w with producer := p }) s

/-- A completion-ring doorbell (R276, R438): the consumer index of a ring; a fence does not stop it. -/
def completionDoorbell (fn ring v : Nat) (s : State) : State :=
  match cringAt s ring with
  | none => rejectDoorbell s
  | some c =>
    let n := v % 2 ^ 32
    if c.fn != fn || doorbellsOff s fn then rejectDoorbell s
    else if n = c.consumer then s
    else if (c.producer + 2 ^ 32 - c.consumer) % 2 ^ 32 < (n + 2 ^ 32 - c.consumer) % 2 ^ 32 then rejectDoorbell s
    else modCring ring (fun c => { c with consumer := n }) s

/-! ## Fetch (R277) -/

/-- The completion entry that the ring layer writes for a descriptor, in its function's format (Tables 6-6, 10-7, 13-6). -/
def ringEntry (fn : Nat) (d : Bytes) (st : Status) : Bytes :=
  let code := leBytes 2 (statusCode st)
  if fn = 1 then code ++ slice d 0 1 ++ zeros 5 ++ slice d 0x18 8 ++ zeros 16
  else if fn = 3 then code ++ slice d 1 1 ++ [0xFF] ++ slice d 0x10 4 ++ slice d 0x18 8 ++ zeros 16
  else code ++ slice d 1 1 ++ zeros 5 ++ slice d 0x28 8 ++ slice d 4 4 ++ zeros 12

/-- The descriptor kinds of a function (R273); a remote-memory request has an OP of Table 13-5. -/
def kindOk (fn kind op : Nat) : Bool :=
  if fn = 1 then kind == 0x10 || kind == 0x11
  else if fn = 3 then kind == 0x20
  else (kind == 0x30 && decide (1 ≤ op ∧ op ≤ 5)) || kind == 0x31

/-- A descriptor has been read: the entry of the ring is free, and the descriptor is copied in, or completes refused. (DEDUCED: log entry 57) -/
def fetched (w : WRing) (bytes : Bytes) (poison : Bool) (s : State) : State :=
  let d : FDesc := { id := s.buf.nextDesc, wring := w.num, fn := w.fn, bytes := bytes, taken := false, entry := none }
  let s := modWring w.num (fun w => { w with fetch := (w.fetch + 1) % 2 ^ 32 }) s
  let s := modBuf (fun b => { b with descs := b.descs ++ [d], nextDesc := b.nextDesc + 1 }) s
  if poison then completeDesc d.id (ringEntry w.fn bytes .dataPoisoned) s
  else if !kindOk w.fn (field bytes 0 1) (field bytes 1 1) then completeDesc d.id (ringEntry w.fn bytes .badArg) s
  else s

/-- RING_READ_FAULT (R277): the ring stops. -/
def ringReadFault (w : WRing) (s : State) : State :=
  let s := modCring w.cring (fun c => { c with reserved := c.reserved - 1 }) s
  if w.state != 1 then s
  else
    postEvent 0x0A01 2 (pack [(w.num, 16)]) 0
      (modBuf (fun b => { b with sticky := setBit b.sticky 3 }) (modWring w.num (fun w => { w with state := 2 }) s))

/-- The module may fetch from a work ring: active, a descriptor posted, no read of it outstanding, and an entry of its completion
ring free. (DEDUCED: log entry 57) -/
def mayFetch (s : State) (w : WRing) : Bool :=
  w.state == 1 && w.fetch != w.producer && !readingRing s w.num &&
    (cringAt s w.cring).any (fun c => decide ((c.producer + 2 ^ 32 - c.consumer) % 2 ^ 32 + c.reserved < 2 ^ c.k))

/-- The ring whose turn it is: round robin in ascending ring number. -/
def nextRing (s : State) (fn : Nat) : Option WRing :=
  let ready := s.buf.wrings.filter (fun w => w.fn == fn && mayFetch s w)
  let least := fun (l : List WRing) => l.foldl (fun a w => match a with
    | none => some w
    | some x => if w.num < x.num then some w else a) (none : Option WRing)
  match (get5 s.hif.fns fn).lastRing with
  | none => least ready
  | some n =>
    match least (ready.filter (fun w => decide (n < w.num))) with
    | some w => some w
    | none => least ready

/-- DESCRIPTOR_FETCH (R277): one descriptor of one ring of the function. (DEDUCED: log entry 57) -/
def execDescriptorFetch (f : FnReads) (s : State) : Out :=
  .next <|
    let fn := f.fn
    if fenced s fn.val || s.life.removal.isSome then s
    else match nextRing s fn.val with
    | none => s
    | some w =>
      let a := w.base + 64 * (w.fetch % 2 ^ w.k)
      let s := modFn fn.val (fun f => { f with lastRing := some w.num }) (modCring w.cring (fun c => { c with reserved := c.reserved + 1 }) s)
      if w.hbm then
        let r := checkedRead f.bad a 64 s
        fetched w r.1 r.2.1 r.2.2
      else hostReadReq fn.val a 64 (.descriptor w.num w.fetch) s

/-- COMPLETION_COALESCE_EXPIRE (R278): the interval after a message ends; a tail write inside it is signalled now. -/
def execCompletionCoalesceExpire (cring : Nat) (s : State) : Out :=
  .next <|
    match cringAt s cring with
    | none => s
    | some c =>
      if c.irqPending then modCring cring (fun c => { c with irqPending := false }) (post c.fn (.msix c.fn c.vector) s)
      else modCring cring (fun c => { c with irqOpen := false }) s

end Sys2Proof.Machine
end

