-- ==== Sys2Proof/Machine/Hev.lean ====
section
/-! DEFINITION. The homomorphic engine: contexts, keys, burnish sets, and the beginning, results and end of operations
(10_homomorphic_engine.md R195 to R220; 11_burnish.md R221 to R228). -/

namespace Sys2Proof.Machine

/-! ## Contexts -/

/-- Change a context. -/
def modCtx (h : Nat) (f : HCtx → HCtx) (s : State) : State :=
  modHev (fun v => { v with ctxs := updWhere (·.handle == h) f v.ctxs }) s

/-- Ring degree N. -/
def degree (p : HParams) : Nat := 2 ^ p.logN

/-- Primary sheets of a context. -/
def primarySheets (c : HCtx) : Nat := popcount (if c.twin then c.sheets &&& primaryMask else c.sheets)

/-- The parameter set in a block (Table 10-1). -/
def paramsOf (b : Bytes) : HParams :=
  let l := field b 2 1
  let k := field b 3 1
  { bgv := field b 0 1 == 2, logN := field b 1 1, t := field b 8 8
    q := (List.range l).map (fun i => field b (0x10 + 8 * i) 8), p := (List.range k).map (fun i => field b (0x10 + 8 * l + 8 * i) 8)
    drop := (List.range l).map (fun i => field b (0x10 + 8 * (l + k) + i) 1) }

/-- Bytes of the block that its own LIMBS and SPECIAL give. -/
def blockLen (b : Bytes) : Nat := 16 + 9 * field b 2 1 + 8 * field b 3 1

/-- A prime breaks R196; `all` are the primes of the block. -/
def primeBad (N : Nat) (all : List Nat) (r : Nat) : Bool :=
  decide (2 ^ 61 ≤ r) || r % (2 * N) != 1 || !mrPrime r || decide (1 < (all.filter (· == r)).length)

/-- The offset of the first field of a parameter block that fails R196. (DEDUCED: log entry 69) -/
def blockFails (b : Bytes) : Option Nat :=
  let p := paramsOf b
  let all := p.q ++ p.p
  let L := p.q.length
  let checks := [
    (field b 0 1 != 1 && field b 0 1 != 2, 0),
    (decide (p.logN < 12) || decide (17 < p.logN), 1),
    (decide (L < 1) || decide (64 < L), 2),
    (decide (8 < p.p.length), 3),
    (field b 4 4 != 0, 4),
    ((if p.bgv then decide (p.t < 2) || decide (2 ^ 61 ≤ p.t) || all.any (fun r => Nat.gcd p.t r != 1) else p.t != 0), 8),
    (p.q.any (primeBad (degree p) all), 0x10),
    (p.p.any (primeBad (degree p) all), 0x10 + 8 * L),
    (p.drop.any (fun d => if p.bgv then d != 0 else decide (d < 1) || decide (61 < d)), 0x10 + 8 * all.length)]
  (checks.find? (·.1)).map (·.2)

/-- Step 2 of R199 before the parameter block. (DEDUCED: log entry 69) -/
def ctxOpenBad (p : Bytes) : Bool :=
  let m := BitVec.ofNat 32 (field p 4 4)
  decide (p.length < 32) || p.length != 16 + blockLen (p.drop 16) || decide (1 < field p 0 4) || m == 0 || decide (field p 0xC 4 < 1) ||
    decide (65536 < field p 0xC 4) || decide (256 * popcount m < field p 8 4) || (field p 0 4 == 1 && twinLacks m)

/-- HBM for the slots of a context (R199). -/
def slotBytes (n : Nat) (p : HParams) : Nat := n * (64 + 2 * p.q.length * degree p * 8)

/-- Step 4 of R199: sheets, key reservation and slots. -/
def ctxResources (h : Nat) (p : Bytes) (s : State) : Option State :=
  (grant (.ctx h) (BitVec.ofNat 32 (field p 4 4)) (field p 0 4 == 1) (field p 8 4 * bankBytes) s).bind (fun s =>
    let n := slotBytes (field p 0xC 4) (paramsOf (p.drop 16))
    match placeHbm n s with
    | (some a, s) => some (hold ⟨a, n, .ctx h⟩ s)
    | (none, _) => none)

/-- HEV_CTX_OPEN (0x0801; R196, R199). -/
def execHevCtxOpen (mb : MbId) (s : State) : Out :=
  .next <| onNewJob mb 0x0801 s fun j =>
    if guardSet s then answer j .strokeGuard s
    else if ctxOpenBad j.payload then answer j .badArg s
    else match blockFails (j.payload.drop 16) with
    | some off => refuseWith j .badArg off s
    | none =>
      if quiesced s 3 then answer j .notIdle s
      else if 8 ≤ s.hev.ctxs.length then answer j .busy s
      else
        let h := freshHandle (workHandles s) s
        match ctxResources h.1 j.payload h.2 with
        | none => answer j .busy s
        | some s =>
          let b := j.payload.drop 16
          let c : HCtx := { handle := h.1, twin := arg j 0 4 == 1, sheets := BitVec.ofNat 32 (arg j 4 4), keyBanks := arg j 8 4
                            slotCnt := arg j 0xC 4, params := paramsOf b, block := b, chain := field (sha512 b) 0 8, faulted := false
                            slots := [], keys := [], burnish := none, base := s.prs.stroke }
          finish j .ok (leBytes 4 h.1 ++ zeros 4 ++ leBytes 8 c.chain) (modHev (fun v => { v with ctxs := v.ctxs ++ [c] }) s)

/-- The context that a command names in its first field. -/
def ctxArg (s : State) (j : Job) : Option HCtx := ctxAt s (arg j 0 4)

/-- The fetched descriptors of a context that are not complete. -/
def ctxDescs (s : State) (h : Nat) : List FDesc := s.buf.descs.filter (fun f => f.fn == 3 && field f.bytes 4 4 == h)

/-- A context and everything it holds are gone, its sheets wiped (R200). -/
def closeCtx (h : Nat) (s : State) : State :=
  let s := modHev (fun v => { v with ctxs := v.ctxs.filter (·.handle != h), ops := v.ops.filter (·.ctx != h) }) s
  release (fun o => match o with
    | .ctx c => c == h
    | .key c _ => c == h
    | _ => false) (endWork (.ctx h) s)

/-- HEV_CTX_CLOSE (0x0802, R200). -/
def execHevCtxClose (mb : MbId) (s : State) : Out :=
  .next <| onNewJob mb 0x0802 s fun j =>
    if !lenIs j 8 || arg j 4 4 != 0 || (ctxArg s j).isNone then answer j .badArg s
    else if !(ctxDescs s (arg j 0 4)).isEmpty then answer j .notIdle s
    else answer j .ok (closeCtx (arg j 0 4) s)

/-! ## Evaluation keys (R204, R205) -/

/-- Digits D of a key. -/
def keyDigits (p : HParams) : Nat := (p.q.length + p.p.length - 1) / p.p.length

/-- Bytes of a chunk. -/
def chunkLen (p : HParams) : Nat := 64 + 8 * degree p

/-- Chunks of a key image. -/
def keyChunks (p : HParams) : Nat := keyDigits p * 2 * (p.q.length + p.p.length)

/-- Residue bytes of a key. -/
def keyBytesOf (p : HParams) : Nat := keyChunks p * 8 * degree p

/-- The residues of a chunk or a limb. -/
def residues (b : Bytes) (n : Nat) : Poly := (List.range n).map (fun i => field b (8 * i) 8)

/-- Chunk `i` of a key image breaks Table 10-4, its order, chunk 0's tag, kind or g, or a residue is not below its prime. -/
def chunkBad (c : HCtx) (img : Bytes) (i : Nat) : Bool :=
  let p := c.params
  let n := p.q.length + p.p.length
  let b := slice img (i * chunkLen p) (chunkLen p)
  let x := i % n
  let r := (p.q ++ p.p).getD x 1
  let kind := field b 6 1
  let g := field b 0x18 4
  field b 0 4 != 0x4B56454F || field b 4 2 != 1 || (kind != 1 && kind != 2) || field b 7 1 != p.logN || field b 8 8 != c.chain ||
    (if kind = 1 then g != 0 else g % 2 == 0 || decide (g < 3) || decide (2 * degree p ≤ g)) || field b 0x1C 1 != i / (2 * n) ||
    field b 0x1D 1 != i / n % 2 || field b 0x1E 1 != (if x < p.q.length then x else 64 + x - p.q.length) || field b 0x1F 1 != 0 ||
    field b 0x20 4 != i || !zeroAt b 0x24 28 || kind != field img 6 1 || g != field img 0x18 4 || field b 0x10 8 != field img 0x10 8 ||
    (residues (b.drop 64) (degree p)).any (fun v => decide (r ≤ v))

/-- The chunks of a key image by digit, part and prime. -/
def keyImage (p : HParams) (img : Bytes) : List (List (List Poly)) :=
  let n := p.q.length + p.p.length
  (List.range (keyDigits p)).map (fun j => (List.range 2).map (fun t => (List.range n).map (fun x =>
    residues (slice img (((j * 2 + t) * n + x) * chunkLen p + 64) (8 * degree p)) (degree p))))

/-- Banks that resident keys take of the reservation. (DEDUCED: log entry 70) -/
def residentBanks (c : HCtx) : Nat := sumNat ((c.keys.filter (·.resident)).map (·.banks))

/-- HEV_KEY_LOAD with the chunks of its image that have been read (R205, R436). -/
def keyEarly (j : Job) : Early := fun img s =>
  match ctxAt s (arg j 0 4) with
  | none => (false, s)
  | some c => if (List.range (img.length / chunkLen c.params)).any (chunkBad c img) then (true, answer j .badArg s) else (false, s)

/-- HEV_KEY_LOAD once its image has been read, or its read has failed. -/
def keyLoadData (j : Job) (r : Except Status Bytes) (s : State) : State :=
  match r, ctxAt s (arg j 0 4) with
  | .error st, _ => answer j st s
  | .ok _, none => answer j .badArg s
  | .ok img, some c =>
    let tag := field img 0x10 8
    let kind := field img 6 1
    let g := field img 0x18 4
    if (List.range (keyChunks c.params)).any (chunkBad c img) then answer j .badArg s
    else if c.keys.any (fun k => k.tag == tag && k.kind == kind && k.galois == g) then answer j .duplicate s
    else
      let h := freshHandle (c.keys.map (·.handle)) s
      match placeHbm img.length h.2 with
      | (none, _) => answer j .busy s
      | (some a, s) =>
        let n := bankCount (keyBytesOf c.params)
        let res := arg j 4 4 == 1 && decide (residentBanks c + n ≤ c.keyBanks)
        let k : HKey := { handle := h.1, tag := tag, kind := kind, galois := g, resident := res, banks := n, chunks := keyImage c.params img }
        finish j .ok (leBytes 4 h.1 ++ leBytes 1 (b2n res) ++ zeros 3 ++ leBytes 8 tag)
          (modCtx c.handle (fun c => { c with keys := c.keys ++ [k] }) (hold ⟨a, img.length, .key c.handle h.1⟩ s))

/-- HEV_KEY_LOAD (0x0803, R205): whether HBM can hold the key needs none of its data, and is checked before they are read (R436). -/
def execHevKeyLoad (m : MbReads) (s : State) : Out :=
  .next <| onReads m 0x0803 s fun j =>
    match if lenIs j 24 && decide (arg j 4 4 ≤ 1) && !badAddr (arg j 8 8) then ctxArg s j else none with
    | none => answer j .badArg s
    | some c =>
      if c.params.p.isEmpty || arg j 16 8 != keyChunks c.params * chunkLen c.params then answer j .badArg s
      else if (placeHbm (arg j 16 8) s).1.isNone then answer j .busy s
      else fetchSource j true (arg j 8 8) (arg j 16 8) 0 (keyEarly j) (keyLoadData j) s

/-- A slot of a context by its number: none when it is EMPTY. -/
def hslotAt (c : HCtx) (n : Nat) : Option HSlot := (c.slots.find? (·.1 == n)).map (·.2)

/-- A burnish run whose input has this key tag needs the key (R225, R228). -/
def burnishNeeds (b : BurnishSet) (tag : Nat) (k : HKey) : Bool :=
  k.tag == tag && (if k.kind = 1 then b.relin else b.galois.contains k.galois)

/-- A fetched descriptor of a context names a key: in `KEY`, in the list it has read, or as a burnish run that needs it. -/
def keyNamed (s : State) (c : HCtx) (k : HKey) : Bool :=
  (ctxDescs s c.handle).any (fun f =>
    let op := field f.bytes 1 1
    if op = 0x10 then c.burnish.any (fun b => (hslotAt c (field f.bytes 8 4)).any (fun a => burnishNeeds b a.keyTag k))
    else if op = 0x0C then s.hev.ops.any (fun o => o.desc == f.id && (chunksOf 8 65 o.data).any (fun e => field e 4 4 == k.handle))
    else (op == 8 || op == 0x0B) && field f.bytes 0x14 4 == k.handle)

/-- HEV_KEY_DROP (0x0804, R205). -/
def execHevKeyDrop (mb : MbId) (s : State) : Out :=
  .next <| onNewJob mb 0x0804 s fun j =>
    match if lenIs j 8 then ctxArg s j else none with
    | none => answer j .badArg s
    | some c =>
      match c.keys.find? (·.handle == arg j 4 4) with
      | none => answer j .badArg s
      | some k =>
        if keyNamed s c k then answer j .notIdle s
        else answer j .ok (release (· == .key c.handle k.handle)
          (modCtx c.handle (fun c => { c with keys := c.keys.filter (·.handle != k.handle) }) s))

/-- HEV_CTX_STATUS (0x0805). (DEDUCED: log entry 70) -/
def execHevCtxStatus (mb : MbId) (s : State) : Out :=
  .next <| onNewJob mb 0x0805 s fun j =>
    match if lenIs j 8 && arg j 4 4 == 0 then ctxArg s j else none with
    | none => answer j .badArg s
    | some c =>
      let total := fun (r : Bool) => (c.keys.filter (·.resident == r)).length * keyBytesOf c.params
      finish j .ok ([Config.ctxStateCode c.faulted] ++ zeros 3 ++ leBytes 4 (c.slots.filter (·.2.valid)).length ++ leBytes 4 c.keys.length ++
        leBytes 8 (total true) ++ leBytes 8 (total false)) s

/-! ## Burnish sets (R222, R223) -/

/-- The constant-table section of a plate image. -/
def constantTable (img : Bytes) : Option Bytes :=
  ((List.range (field img 0x12 2)).map (fun i => 0x100 + 16 * i)).findSome? (fun e =>
    if field img e 2 = 6 then some (slice img (field img (e + 4) 4) (field img (e + 8) 4)) else none)

/-- The burnish record of a set's first plate, or none when it fails its checks. (DEDUCED: log entry 72) -/
def burnishRecord (c : HCtx) (plates : List Nat) (digest : Bytes) (img : Bytes) : Option (BurnishSet × Nat) :=
  (constantTable img).bind (fun b =>
    let n := field b 7 1
    let gs := (List.range n).map (fun i => field b (64 + 4 * i) 4)
    if decide (b.length < 64 + 4 * n) || decide (c.params.logN - 1 < field b 0 1) || decide (field b 1 1 < 1) ||
        decide (c.params.q.length < field b 1 1 + 2) || decide (1 < field b 6 1) || decide (48 < n) || !zeroAt b 0xC 52 || !noDup gs ||
        gs.any (fun g => g % 2 == 0 || decide (g < 3) || decide (2 * degree c.params ≤ g)) then none
    else some ({ plates := plates, digest := digest, outLevel := field b 1 1, inScale := field b 2 2, outScale := field b 4 2
                 relin := field b 6 1 == 1, galois := gs, banks := [] }, field b 8 4))

/-- Check 3 of R222 on one plate. (DEDUCED: log entry 46) -/
def burnishReason (c : HCtx) (p : Plate) : Option Nat :=
  if p.kind != 5 then some 6
  else if p.shape != sha512 c.block then some 8
  else if c.twin && p.flags % 2 == 0 then some 7
  else none

/-- The banks of the key reservation of a context: those its grant took at its open. -/
def keyBankList (s : State) (c : HCtx) : List Nat := (grantOf s (.ctx c.handle)).elim [] (fun g => g.banks.take (c.keyBanks * if c.twin then 2 else 1))

/-- HEV_BURNISH_SET (0x0806, R222). -/
def execHevBurnishSet (mb : MbId) (s : State) : Out :=
  .next <| onNewJob mb 0x0806 s fun j =>
    let n := arg j 4 4
    match if j.payload.length == 8 + 4 * n then ctxArg s j else none with
    | none => answer j .badArg s
    | some c =>
      let hs := (List.range n).map (fun i => arg j (8 + 4 * i) 4)
      let ps := hs.filterMap (plateAt s)
      if !(ctxDescs s c.handle).isEmpty then answer j .notIdle s
      else if c.params.bgv || decide (n < 8) || decide (48 < n) || ps.length != n then answer j .badArg s
      else match ps.findSome? (burnishReason c) with
      | some r => refuseWith j .plateRejected r s
      | none =>
        let digest := sha512 (ps.flatMap (·.digest))
        match if ps.any (fun p => p.sheets != primarySheets c) then none else (ps.head?).bind (fun p => burnishRecord c hs digest p.image) with
        | none => refuseWith j .plateRejected 5 s
        | some (b, work) =>
          match pickBanks work c.sheets c.twin (keyBankList s c) s.draw with
          | none => answer j .busy s
          | some banks =>
            let s := { s with draw := s.draw + 1 }
            let keys := keyBankList s c
            let s := modGrant (.ctx c.handle) (fun g => { g with banks := keys ++ banks }) s
            finish j .ok (digest ++ leBytes 4 work ++ leBytes 1 b.outLevel ++ zeros 3 ++ leBytes 2 b.galois.length ++ zeros 2 ++ b.galois.flatMap (leBytes 4))
              (modCtx c.handle (fun c => { c with burnish := some { b with banks := banks } }) s)

/-! ## Slots and completions (R201, R217, Table 10-7) -/

/-- Put an object into a slot. -/
def putSlot (h n : Nat) (o : HSlot) (s : State) : State :=
  modCtx h (fun c => { c with slots := c.slots.filter (·.1 != n) ++ [(n, o)] }) s

/-- A slot becomes INVALID; it keeps its bytes. -/
def invalidate (h n : Nat) (s : State) : State :=
  match (ctxAt s h).bind (fun c => hslotAt c n) with
  | some o => putSlot h n { o with valid := false } s
  | none => putSlot h n { valid := false, level := 0, comps := [], evalForm := false, scale := 0, keyTag := 0 } s

/-- The header of an object (Table 10-3). -/
def headerOf (c : HCtx) (o : HSlot) : Bytes :=
  leBytes 4 0x5458434F ++ leBytes 2 1 ++ leBytes 1 (if c.params.bgv then 2 else 1) ++ leBytes 1 c.params.logN ++ leBytes 8 c.chain ++ leBytes 8 o.keyTag ++
    leBytes 1 o.level ++ leBytes 1 o.comps.length ++ leBytes 1 (b2n o.evalForm) ++ leBytes 1 (b2n (!o.valid)) ++ leBytes 2 o.scale ++ zeros 2 ++
    leBytes 8 (o.comps.length * (o.level + 1) * degree c.params * 8) ++ zeros 24

/-- The completion entry of an operation (Table 10-7). -/
def hevEntry (b : Bytes) (st : Status) (level keyBytes : Nat) : Bytes :=
  leBytes 2 (statusCode st) ++ slice b 1 1 ++ leBytes 1 level ++ slice b 0x10 4 ++ slice b 0x18 8 ++ leBytes 8 keyBytes ++ zeros 8

/-- What an operation's end counts (Table 10-10). -/
def countOp (st : Status) (v : HevState) : HevState :=
  match st with
  | .ok => { v with opCnt := sat v.opCnt }
  | .keyMismatch => { v with mismatch := sat v.mismatch }
  | .levelExhausted => { v with levelCnt := sat v.levelCnt, sticky := setBit v.sticky 3 }
  | .dataPoisoned => { v with sticky := setBit v.sticky 4 }
  | .automorphFault => { v with autoFault := sat v.autoFault, sticky := setBit v.sticky 1 }
  | _ => v

/-- Key bytes streamed and key uses served from SRAM are counted. -/
def countKeys (bytes hits : Nat) (v : HevState) : HevState := { v with keyStream := satAdd 64 v.keyStream bytes, resHit := satAdd 32 v.resHit hits }

/-- An operation completes. -/
def finishOp (f : FDesc) (st : Status) (level keyBytes : Nat) (s : State) : State :=
  completeDesc f.id (hevEntry f.bytes st level keyBytes) (modHev (fun v => { countOp st v with ops := v.ops.filter (·.desc != f.id) }) s)

/-- An operation ends with nothing written. -/
def failOp (f : FDesc) (st : Status) (s : State) : State := finishOp f st 0xFF 0 s

/-- A context enters FAULTED (R211): an event names it. -/
def ctxFaulted (h : Nat) (st : Status) (s : State) : State :=
  if (ctxAt s h).any (fun c => !c.faulted) then postEvent 0x0801 2 (statusCode st) h (modCtx h (fun c => { c with faulted := true }) s) else s

/-- Reads of host memory that a descriptor's operation waits for are abandoned. -/
def dropHevReads (d : Nat) (s : State) : State :=
  dropReads (fun r => r.purpose == .hevImport d || r.purpose == .rotsumList d) s

/-- What belongs to an operation: the actions of its plates, and what they publish and check, carry its descriptor (R218). -/
def ofOp (o : HOp) (w : Work) (run : Option Nat) : Bool := w == .ctx o.ctx && run == some o.desc

/-- The kind 4 plates that a context runs, or comes back to after a burnish run, with their sheets (R226). -/
def homePlates (s : State) (h : Nat) : List (Nat × BitVec 32) :=
  let home := fun (p : Nat) => (plateAt s p).any (·.kind == 4)
  ((s.pla.active.filter (fun a => a.work == .ctx h && home a.plate)).map (fun a => (a.plate, a.mask))) ++
    ((s.pla.swaps.filter (fun x => x.work == .ctx h && home x.plate)).map (fun x => (x.plate, x.mask)))

/-- Swaps that bring those plates back at session stroke `S`, loaded from `start` on. -/
def homeSwaps (s : State) (h S start : Nat) : List Swap :=
  (homePlates s h).map (fun p => { work := .ctx h, plate := p.1, mask := p.2, stroke := S, start := start, loading := false, loaded := false })

/-- The plates of an operation stop: its actions and what they published, and for a burnish run the swaps still to come; the kind 4 plates come
back when the run had taken their sheets (R226, R228). (DEDUCED: log entry 70) -/
def stopPlates (o : HOp) (s : State) : State :=
  let s := modPrs (fun p => { p with
    actions := p.actions.filter (fun a => !ofOp o a.work a.run)
    data := p.data.filter (fun d => !ofOp o d.work d.run)
    checks := p.checks.filter (fun c => !ofOp o c.work c.run) }) s
  if o.op != 0x10 then s
  else
    let land := sessionStroke s (.ctx o.ctx)
    let back := if (activeOf s (.ctx o.ctx) 5).isEmpty then [] else homeSwaps s o.ctx (land + 2) (land + 1)
    modPla (fun p => { p with swaps := p.swaps ++ back }) (dropSwaps (·.work == .ctx o.ctx) s)

/-- What a run of an operation has streamed, used and checked is counted: all of it, or when it stops midway a free part of it
(notes/assumptions 3); the key bytes that it streamed. (DEDUCED: log entry 70) -/
def countRun (whole : Bool) (o : HOp) (s : State) : Nat × State :=
  let part := fun (i n : Nat) => if whole then n else (Config.freeCount s.draw i).toNat % (n + 1)
  let n := part 0 o.keyBytes
  (n, modHev (fun v => { countKeys n (part 1 o.hits) v with autoCheck := satAdd 32 v.autoCheck (part 2 o.checks) })
    (if whole then s else { s with draw := s.draw + 1 }))

/-- A running operation ends with nothing written, by a check on what it has read: its plates stop; the key bytes of an earlier run count (R219). -/
def failRun (o : HOp) (f : FDesc) (st : Status) (s : State) : State := finishOp f st 0xFF o.streamed (stopPlates o s)

/-- An operation ends with nothing written: its plates stop, and its output becomes INVALID (R211, R217). -/
def endBadly (whole : Bool) (o : HOp) (f : FDesc) (st : Status) (s : State) : State :=
  let r := countRun whole o (stopPlates o s)
  finishOp f st 0xFF (o.streamed + r.1) (if o.op = 2 then r.2 else invalidate o.ctx o.out r.2)

/-- An operation stops midway. -/
def stopMidway (o : HOp) (f : FDesc) (st : Status) (s : State) : State := endBadly false o f st s

/-- An operation that runs stops with a status, its output INVALID. -/
def stopOp (o : HOp) (st : Status) (s : State) : State :=
  match descAt s o.desc with
  | none => s
  | some f => stopMidway o f st (dropHevReads f.id s)

/-- A context faults: every running operation stops with a status, its plates' actions and loads are discarded (R40, R67, R302, R437). -/
def faultCtx (h : Nat) (st evSt : Status) (s : State) : State :=
  let s := (s.hev.ops.filter (·.ctx == h)).foldl (fun st' o => stopOp o st st') s
  let s := modPrs (fun p => { p with actions := p.actions.filter (·.work != .ctx h), data := p.data.filter (·.work != .ctx h),
                                     checks := p.checks.filter (·.work != .ctx h) }) s
  ctxFaulted h evSt (dropSwaps (·.work == .ctx h) s)

/-! ## Beginning (R215, R216, R218, R225, R226) -/

/-- Operands that an operation of Table 10-6 uses. -/
def usesA (op : Nat) : Bool := op != 1
def usesB (op : Nat) : Bool := op == 3 || op == 4 || op == 6 || op == 7 || op == 8
def usesOut (op : Nat) : Bool := op != 2

/-- The operation codes. -/
def opKnown (op : Nat) : Bool := decide (1 ≤ op ∧ op ≤ 14) || op == 0x10

/-- Input slots of a descriptor. -/
def inSlots (b : Bytes) : List Nat :=
  (if usesA (field b 1 1) then [field b 8 4] else []) ++ (if usesB (field b 1 1) then [field b 0xC 4] else [])

/-- Output slot of a descriptor. -/
def outSlots (b : Bytes) : List Nat := if usesOut (field b 1 1) then [field b 0x10 4] else []

/-- Two operations of a context conflict, `g` the earlier (R218, R226). -/
def conflicts (f g : Bytes) : Bool :=
  field f 1 1 == 0x10 || field g 1 1 == 0x10 || (outSlots f).any (fun o => (outSlots g).contains o || (inSlots g).contains o) ||
    (inSlots f).any (outSlots g).contains

/-- An earlier-fetched incomplete operation of the context stops this one from beginning. -/
def mustYield (s : State) (f : FDesc) : Bool :=
  (ctxDescs s (field f.bytes 4 4)).any (fun g => decide (g.id < f.id) && conflicts f.bytes g.bytes)

/-- Check 2 of R215. (DEDUCED: log entry 69) -/
def fieldsBad (c : HCtx) (b : Bytes) : Bool :=
  let op := field b 1 1
  field b 0 1 != 0x20 || !opKnown op || decide (1 < field b 2 2) || !zeroAt b 0x30 16 ||
    (inSlots b ++ outSlots b).any (fun n => decide (c.slotCnt ≤ n)) || ((op == 1 || op == 2 || op == 0x0C) && badAddr (field b 0x28 8)) ||
    (op == 0x0C && (c.params.p.isEmpty || decide (field b 0x24 4 < 1) || decide (64 < field b 0x24 4))) ||
    (op == 0x10 && (c.params.bgv || field b 0xC 4 != 0xFFFFFFFF || field b 0x14 4 != 0xFFFFFFFF || field b 2 2 != 0 || !zeroAt b 0x20 16))

/-- The sheets of a context on which a plate of kind 4 is active. -/
def homeSheets (s : State) (h : Nat) : BitVec 32 := (activeOf s (.ctx h) 4).foldl (fun m a => m ||| a.mask) 0

/-- The swaps that will bring kind 4 plates to sheets of a context where none is active: the plates are bound, not yet active (R66). -/
def boundSwaps (s : State) (h : Nat) : List Swap :=
  s.pla.swaps.filter (fun x => x.work == .ctx h && (configAt s x.plate).any (·.kind == 4) && x.mask &&& ~~~homeSheets s h != 0)

/-- A plate of kind 4 is bound to each sheet of the context, active or with its swap pending (R66, R199). -/
def ctxReady (s : State) (c : HCtx) : Bool :=
  ((boundSwaps s c.handle).foldl (fun m x => m ||| x.mask) (homeSheets s c.handle)) &&& c.sheets == c.sheets

/-- The result is rescaled. -/
def rescales (b : Bytes) : Bool := field b 1 1 == 9 || ((field b 1 1 == 7 || field b 1 1 == 8) && bit (field b 2 2) 0)

/-- Check 4 of R215. (DEDUCED: log entry 69) -/
def operandStatus (c : HCtx) (op : Nat) (a b : HSlot) : Option Status :=
  let ct := fun (o : HSlot) => o.comps.length == 2
  let scaled := op == 3 || op == 4 || op == 6
  if op = 6 || op = 7 then
    if ct b || decide (b.level < a.level) || (scaled && !c.params.bgv && a.scale != b.scale) then some .operandMismatch else none
  else if ct a && ct b && a.keyTag != b.keyTag then some .keyMismatch
  else if a.comps.length != b.comps.length || (op == 8 && !ct a) || a.level != b.level || (scaled && !c.params.bgv && a.scale != b.scale) then
    some .operandMismatch
  else none

/-- Check 6 of R215: the scale of a CKKS product, or of a rescaled result, leaves its range. (DEDUCED: log entry 69) -/
def scaleBad (c : HCtx) (d : Bytes) (a : HSlot) (b : Option HSlot) : Bool :=
  let op := field d 1 1
  let sc := a.scale + (if op = 7 || op = 8 then b.elim 0 (·.scale) else 0)
  !c.params.bgv && (decide (65535 < sc) || (rescales d && decide (sc < c.params.drop.getD a.level 0)))

/-- The key that an operation with a `KEY` field uses, when it has the right kind and g. -/
def keyOf (c : HCtx) (d : Bytes) : Option HKey :=
  (c.keys.find? (·.handle == field d 0x14 4)).filter (fun k =>
    if field d 1 1 = 8 then k.kind == 1 else k.kind == 2 && k.galois == field d 0x20 4)

/-- Checks 3 to 7 of R215 on an operation of Table 10-6. (DEDUCED: log entry 69) -/
def operationStatus (c : HCtx) (d : Bytes) : Option Status :=
  let op := field d 1 1
  let a := hslotAt c (field d 8 4)
  let b := if usesB op then hslotAt c (field d 0xC 4) else none
  if usesA op && !a.any (·.valid) || usesB op && !b.any (·.valid) then some .slotInvalid
  else match a with
  | none => none
  | some a =>
    if !usesA op || op = 2 then none
    else match b.bind (operandStatus c op a) with
    | some st => some st
    | none =>
      if (op == 0x0B || op == 0x0C) && a.comps.length != 2 then some .operandMismatch
      else if (rescales d || op == 0x0A) && a.level == 0 then some .levelExhausted
      else if scaleBad c d a b then some .operandMismatch
      else if (op == 8 || op == 0x0B) && (keyOf c d).isNone then some .badArg
      else none

/-- The checks of R225. -/
def burnishStatus (c : HCtx) (d : Bytes) : Option Status :=
  match hslotAt c (field d 8 4) with
  | none => some .slotInvalid
  | some a =>
    if !a.valid then some .slotInvalid
    else match c.burnish with
    | none => some .badArg
    | some b =>
      if a.comps.length != 2 then some .badArg
      else if a.scale != b.inScale then some .operandMismatch
      else
        let has := fun (kind g : Nat) => c.keys.any (fun k => k.tag == a.keyTag && k.kind == kind && k.galois == g)
        if !b.galois.all (has 2) || (b.relin && !has 1 0) then some .keyMismatch else none

/-- Key bytes that one key switch at level ℓ streams (Table 10-8). (DEDUCED: log entry 70) -/
def switchBytes (p : HParams) (level : Nat) : Nat := 2 * digitCount p.p.length level * (level + 1 + p.p.length) * degree p * 8

/-- R216: the key's first chunk carries another tag: the operation stops, its output INVALID; `before` are the key bytes that an earlier run of it
streamed (R219). (DEDUCED: log entry 70) -/
def tagMismatch (f : FDesc) (h : Nat) (k : HKey) (p : HParams) (before : Nat) (s : State) : State :=
  let n := if k.resident then 0 else 8 * degree p
  let s := modHev (fun v => { countKeys n (b2n k.resident) v with sticky := setBit v.sticky 2 }) (invalidate h (field f.bytes 0x10 4) s)
  finishOp f .keyMismatch 0xFF (before + n) s

/-- The swaps of a burnish run that begins with its first plate at session stroke `S`: the set in list order, then the kind 4 plates
again (R226). -/
def burnishPlan (s : State) (plates : List Nat) (S : Nat) : List (Nat × Nat) × Nat :=
  plates.foldl (fun r p => (r.1 ++ [(r.2, p)], r.2 + (plateAt s p).elim 0 (·.span) + 1)) ([], S)

/-- A burnish run's loads and swaps are set up, then the swaps `home` of the plates that it comes back to (R66, R226). -/
def startBurnish (c : HCtx) (b : BurnishSet) (home : List Swap) (d : Nat) (s : State) : State :=
  let land := sessionStroke s (.ctx c.handle)
  let plan := burnishPlan s b.plates (land + 2)
  let starts := (land + 1) :: plan.1.map (·.1)
  let one := fun (x : (Nat × Nat) × Nat) =>
    ({ work := .ctx c.handle, plate := x.1.2, mask := c.sheets, stroke := x.1.1, start := x.2, loading := false, loaded := false } : Swap)
  let back := home.map (fun x => { x with stroke := plan.2, start := starts.getLastD 0 })
  let s := modPla (fun p => { p with swaps := p.swaps ++ (plan.1.zip starts).map one ++ back }) s
  modHev (fun v => { v with ops := updWhere (·.desc == d) (fun o => { o with plan := plan.1 ++ [(plan.2, 0)] }) v.ops }) s

/-- Swaps by their session strokes, as an operation's plan. -/
def planInsert (x : Nat × Nat) : List (Nat × Nat) → List (Nat × Nat)
  | [] => [x]
  | y :: ys => if x.1 < y.1 then x :: y :: ys else y :: planInsert x ys

/-- The plates of a context run for an operation at the next session stroke (R218); one that is bound and not yet active runs from the session
stroke of its swap. (DEDUCED: log entry 71) -/
def startPlates (h d : Nat) (s : State) : State :=
  let plan := (boundSwaps s h).foldl (fun l x => planInsert (x.stroke, x.plate) l) []
  modHev (fun v => { v with ops := updWhere (·.desc == d) (fun o => { o with plan := plan }) v.ops })
    (invokeKind (.ctx h) (some d) 4 (sessionStroke s (.ctx h) + 1) s)

/-- An operation begins: its plates are invoked, or the burnish run is set up. -/
def startOp (c : HCtx) (f : FDesc) (s : State) : State :=
  let o : HOp := { desc := f.id, ctx := c.handle, op := field f.bytes 1 1, out := field f.bytes 0x10 4, result := none, computed := false, keyBytes := 0
                   hits := 0, checks := 0, data := [], retried := false, streamed := 0, poisoned := false, plan := [] }
  let s := modHev (fun v => { v with ops := v.ops ++ [o] }) (takeDesc f.id s)
  match c.burnish, o.op == 0x10 with
  | some b, true => startBurnish c b (homeSwaps s c.handle 0 0) f.id s
  | _, _ => startPlates c.handle f.id s

/-- EXPORT of an INVALID slot writes its header with the flag set; of an EMPTY slot, nothing (R213). The header of a slot that never held
an object is not stated: free bytes (notes/assumptions 3). (DEDUCED: log entry 71) -/
def exportInvalid (c : HCtx) (f : FDesc) (s : State) : State :=
  match hslotAt c (field f.bytes 8 4) with
  | none => failOp f .slotInvalid s
  | some o =>
    let hdr := if o.comps.isEmpty then (List.range 64).map (fun i => if i = 0x1B then 1 else Config.freeByte (s.draw * 64 + i)) else headerOf c o
    let s := { s with draw := s.draw + 1 }
    match decodeAddr (field f.bytes 0x28 8) with
    | .host a => finishOp f .slotInvalid o.level 0 (postData 3 a hdr s)
    | .dev a =>
      if !devOk s a 64 then failOp f .accessViolation s
      else finishOp f .slotInvalid o.level 0 (memWrite a hdr s).2
    | .bad => failOp f .badArg s

/-- HEV_OP_BEGIN (R215, R216, R218, R225). -/
def execHevOpBegin (d : Nat) (s : State) : Out :=
  .next <|
    match descAt s d with
    | none => s
    | some f =>
      if f.fn != 3 || f.taken then s
      else match ctxAt s (field f.bytes 4 4) with
      | none => failOp f .badArg s
      | some c =>
        let op := field f.bytes 1 1
        if mustYield s f then s
        else if c.faulted then failOp f .engineFenced s
        else if fieldsBad c f.bytes then failOp f .badArg s
        else if !ctxReady s c then failOp f .notIdle s
        else if op = 2 && !(hslotAt c (field f.bytes 8 4)).any (·.valid) then exportInvalid c f s
        else match if op = 0x10 then burnishStatus c f.bytes else operationStatus c f.bytes with
        | some st => failOp f st s
        | none =>
          match if op = 8 || op = 0x0B then keyOf c f.bytes else none, hslotAt c (field f.bytes 8 4) with
          | some k, some a => if k.tag != a.keyTag then tagMismatch f c.handle k c.params 0 s else startOp c f s
          | _, _ => startOp c f s

/-! ## Results (Table 10-6) -/

/-- A running operation with its descriptor and context, whose result is not computed. -/
def onOp (d op : Nat) (s : State) (g : HOp → FDesc → HCtx → State) : State :=
  match s.hev.ops.find? (fun o => o.desc == d && o.op == op && !o.computed), descAt s d with
  | some o, some f => match ctxAt s o.ctx with
    | some c => g o f c
    | none => s
  | _, _ => s

/-- Change a running operation. -/
def modOp (d : Nat) (g : HOp → HOp) (s : State) : State := modHev (fun v => { v with ops := updWhere (·.desc == d) g v.ops }) s

/-- The result of an operation is known, with the key bytes it streamed, the uses served from SRAM and the limb passes it checked. -/
def setResult (d : Nat) (r : Option HSlot) (keyBytes hits checks : Nat) (s : State) : State :=
  modOp d (fun o => { o with result := r, computed := true, keyBytes := keyBytes, hits := hits, checks := checks }) s

/-- The primes of a level. -/
def basis (c : HCtx) (level : Nat) : List Nat := c.params.q.take (level + 1)

/-- Components in evaluation form at a level, from an object of either form. -/
def evalComps (c : HCtx) (level : Nat) (o : HSlot) : List (List Poly) :=
  o.comps.map (fun x => toEval c.params.logN (basis c level) o.evalForm (atLevel level x))

/-- Components in coefficient form. -/
def coefComps (c : HCtx) (level : Nat) (o : HSlot) : List (List Poly) :=
  o.comps.map (fun x => toCoef c.params.logN (basis c level) o.evalForm (atLevel level x))

/-- Deliver components in evaluation form in a form. -/
def deliver (c : HCtx) (level : Nat) (ev : Bool) (comps : List (List Poly)) : List (List Poly) :=
  if ev then comps else comps.map (limbs (basis c level) (intt c.params.logN))

/-- Rescale an object (R208), kept in its form. -/
def rescaleObj (c : HCtx) (o : HSlot) : HSlot :=
  let low := (coefComps c o.level o).map (rescale c.params o.level)
  { o with level := o.level - 1
           comps := if o.evalForm then low.map (limbs (basis c (o.level - 1)) (ntt c.params.logN)) else low
           scale := if c.params.bgv then 0 else o.scale - c.params.drop.getD o.level 0 }

/-- The object of an input slot. -/
def inA (c : HCtx) (f : FDesc) : Option HSlot := hslotAt c (field f.bytes 8 4)
def inB (c : HCtx) (f : FDesc) : Option HSlot := hslotAt c (field f.bytes 0xC 4)

/-- A result of two inputs, computed component by component in A's form. -/
def onPair (d op : Nat) (s : State) (g : HCtx → FDesc → HSlot → HSlot → HSlot) : State :=
  onOp d op s fun _ f c => match inA c f, inB c f with
    | some a, some b => setResult d (some (g c f a b)) 0 0 0 s
    | _, _ => s

/-- A result of one input. -/
def onSingle (d op : Nat) (s : State) (g : HCtx → HSlot → HSlot) : State :=
  onOp d op s fun _ f c => match inA c f with
    | some a => setResult d (some (g c a)) 0 0 0 s
    | none => s

/-- Two objects added or subtracted limb by limb, in A's form. -/
def combineObj (h : Nat → Poly → Poly → Poly) (c : HCtx) (a b : HSlot) : HSlot :=
  let q := basis c a.level
  { a with comps := deliver c a.level a.evalForm ((evalComps c a.level a).zipWith (limbs2 q h) (evalComps c a.level b)) }

/-- HEV_ADD (0x03). -/
def execHevAdd (d : Nat) (s : State) : Out := .next (onPair d 0x03 s fun c _ a b => combineObj polyAdd c a b)

/-- HEV_SUB (0x04). -/
def execHevSub (d : Nat) (s : State) : Out := .next (onPair d 0x04 s fun c _ a b => combineObj polySub c a b)

/-- HEV_NEG (0x05). -/
def execHevNeg (d : Nat) (s : State) : Out :=
  .next (onSingle d 0x05 s fun c a => { a with comps := a.comps.map (limbs (basis c a.level) polyNeg) })

/-- HEV_ADD_PLAIN (0x06): the plaintext is added to component 0. -/
def execHevAddPlain (d : Nat) (s : State) : Out :=
  .next (onPair d 0x06 s fun c _ a b =>
    let x := evalComps c a.level a
    let y := limbs2 (basis c a.level) polyAdd (x.getD 0 []) ((evalComps c a.level b).getD 0 []) :: x.drop 1
    { a with comps := deliver c a.level a.evalForm y })

/-- The scale of a product (CKKS: scales add; BGV: 0). -/
def productScale (c : HCtx) (a b : HSlot) : Nat := if c.params.bgv then 0 else a.scale + b.scale

/-- HEV_MUL_PLAIN (0x07), rescaled when asked. -/
def execHevMulPlain (d : Nat) (s : State) : Out :=
  .next (onPair d 0x07 s fun c f a b =>
    let m := (evalComps c a.level b).getD 0 []
    let r := { a with comps := deliver c a.level a.evalForm ((evalComps c a.level a).map (fun x => limbs2 (basis c a.level) polyMul x m))
                      scale := productScale c a b }
    if rescales f.bytes then rescaleObj c r else r)

/-- A key switch streams its key or is served from SRAM: key bytes and hits. -/
def keyUse (c : HCtx) (k : HKey) (level : Nat) : Nat × Nat := if k.resident then (0, 1) else (switchBytes c.params level, 0)

/-- The product of two ciphertexts, relinearized (Table 10-6). -/
def mulObj (c : HCtx) (k : HKey) (a b : HSlot) : HSlot :=
  let q := basis c a.level
  let x := evalComps c a.level a
  let y := evalComps c a.level b
  let m := fun (i j : Nat) => limbs2 q polyMul (x.getD i []) (y.getD j [])
  let d2 := toCoef c.params.logN q true (m 1 1)
  let ks := keySwitch c.params k a.level d2
  { a with comps := deliver c a.level a.evalForm [limbs2 q polyAdd (m 0 0) (ks 0), limbs2 q polyAdd (limbs2 q polyAdd (m 0 1) (m 1 0)) (ks 1)]
           scale := productScale c a b }

/-- HEV_MUL (0x08; R207). -/
def execHevMul (d : Nat) (s : State) : Out :=
  .next (onOp d 0x08 s fun _ f c => match inA c f, inB c f, keyOf c f.bytes with
    | some a, some b, some k =>
      let r := mulObj c k a b
      let u := keyUse c k a.level
      setResult d (some (if rescales f.bytes then rescaleObj c r else r)) u.1 u.2 0 s
    | _, _, _ => s)

/-- HEV_RESCALE (0x09, R208). -/
def execHevRescale (d : Nat) (s : State) : Out := .next (onSingle d 0x09 s rescaleObj)

/-- HEV_DROP (0x0A): limb ℓ is discarded. -/
def execHevDrop (d : Nat) (s : State) : Out :=
  .next (onSingle d 0x0A s fun _ a => { a with level := a.level - 1, comps := a.comps.map (atLevel (a.level - 1)) })

/-- σ_g of a component in coefficient form. -/
def sigmaComp (c : HCtx) (level g : Nat) (x : List Poly) : List Poly := limbs (basis c level) (sigma (degree c.params) g) x

/-- HEV_AUTOMORPH (0x0B; R209, R210): both components pass, on each of l limbs. -/
def execHevAutomorph (d : Nat) (s : State) : Out :=
  .next (onOp d 0x0B s fun _ f c => match inA c f, keyOf c f.bytes with
    | some a, some k =>
      let q := basis c a.level
      let g := field f.bytes 0x20 4
      let x := (coefComps c a.level a).map (sigmaComp c a.level g)
      let ks := keySwitch c.params k a.level (x.getD 1 [])
      let r := { a with comps := deliver c a.level a.evalForm [limbs2 q polyAdd (limbs q (ntt c.params.logN) (x.getD 0 [])) (ks 0), ks 1] }
      let u := keyUse c k a.level
      setResult d (some r) u.1 u.2 (2 * (a.level + 1)) s
    | _, _ => s)

/-- The entries of a ROTSUM list with their keys, or none when one is unknown or has the wrong kind or g. -/
def rotsumKeys (c : HCtx) (b : Bytes) : Option (List HKey) :=
  (chunksOf 8 65 b).mapM (fun e => (c.keys.find? (·.handle == field e 4 4)).filter (fun k => k.kind == 2 && k.galois == field e 0 4))

/-- The result of ROTSUM (R214): one ModUp, the automorphism of every digit for each entry, one ModDown. -/
def rotsumObj (c : HCtx) (ks : List HKey) (a : HSlot) : HSlot :=
  let p := c.params
  let q := basis c a.level
  let B := q ++ p.p
  let x := coefComps c a.level a
  let ds := digits p a.level (x.getD 1 [])
  let turn := fun (g : Nat) (y : List Poly) => B.zipWith (fun r v => ntt p.logN r (sigma (degree p) g r (intt p.logN r v))) y
  let u := fun (t : Nat) => modDown p a.level (ks.foldl (fun acc k => innerProduct p k a.level t (ds.map (turn k.galois)) acc) (zeroB p a.level))
  let zero := q.map (fun _ => List.replicate (degree p) 0)
  let s0 := ks.foldl (fun acc k => limbs2 q polyAdd acc (sigmaComp c a.level k.galois (x.getD 0 []))) zero
  { a with comps := deliver c a.level a.evalForm [limbs2 q polyAdd (limbs q (ntt p.logN) s0) (u 0), u 1] }

/-- The list of a ROTSUM has been read, or its read has failed. -/
def rotsumData (d : Nat) (r : Except Status Bytes) (s : State) : State :=
  onOp d 0x0C s fun o f c => match r, inA c f with
    | .error .dataPoisoned, _ => failRun o f .dataPoisoned (invalidate c.handle (field f.bytes 0x10 4) s)
    | .error st, _ => failRun o f st s
    | .ok _, none => s
    | .ok b, some a =>
      match rotsumKeys c b with
      | none => failRun o f .badArg s
      | some ks =>
        match ks.find? (fun k => k.tag != a.keyTag) with
        | some k => tagMismatch f c.handle k c.params o.streamed (stopPlates o s)
        | none =>
          let n := (ks.filter (fun k => !k.resident)).length * switchBytes c.params a.level
          let passes := ks.length * (a.level + 1 + digitCount c.params.p.length a.level * (a.level + 1 + c.params.p.length))
          setResult d (some (rotsumObj c ks a)) n (ks.filter (·.resident)).length passes (modOp d (fun o => { o with data := b }) s)

/-- Read `n` bytes at a descriptor's ADDR for its operation; `bad` is what fails in device memory. -/
def readFor (bad : List MemFail) (f : FDesc) (off n : Nat) (why : ReadFor) (go : Except Status Bytes → State → State) (s : State) : State :=
  if s.hif.reads.any (·.purpose == why) then s
  else match decodeAddr (field f.bytes 0x28 8) with
  | .bad => go (.error .badArg) s
  | .host a => hostReadReq 3 (a + off) n why s
  | .dev a =>
    let r := devRead bad (a + off) n s
    go r.1 r.2

/-- HEV_ROTSUM (0x0C; R214): the list is read, and the result follows from it. -/
def execHevRotsum (d : DescReads) (s : State) : Out :=
  .next (onOp d.id 0x0C s fun _ f _ => readFor d.bad f 0 (8 * field f.bytes 0x24 4) (.rotsumList d.id) (rotsumData d.id) s)

/-- HEV_NTT (0x0D, R203). -/
def execHevNtt (d : Nat) (s : State) : Out :=
  .next (onSingle d 0x0D s fun c a => { a with comps := evalComps c a.level a, evalForm := true })

/-- HEV_INTT (0x0E, R203). -/
def execHevIntt (d : Nat) (s : State) : Out :=
  .next (onSingle d 0x0E s fun c a => { a with comps := coefComps c a.level a, evalForm := false })

/-- The header of an imported object breaks Table 10-3 or does not fit the context (R213). -/
def headerBad (c : HCtx) (h : Bytes) : Bool :=
  let p := c.params
  let k := field h 0x19 1
  let l := field h 0x18 1
  field h 0 4 != 0x5458434F || field h 4 2 != 1 || field h 6 1 != (if p.bgv then 2 else 1) || field h 7 1 != p.logN || field h 8 8 != c.chain ||
    decide (p.q.length ≤ l) || (k != 1 && k != 2) || decide (1 < field h 0x1A 1) || field h 0x1B 1 != 0 || (p.bgv && field h 0x1C 2 != 0) ||
    field h 0x1E 2 != 0 || field h 0x20 8 != k * (l + 1) * degree p * 8 || !zeroAt h 0x28 24 || (k == 1 && field h 0x10 8 != 0)

/-- The object of a header and its body. -/
def objectOf (c : HCtx) (h body : Bytes) : HSlot :=
  let N := degree c.params
  let l := field h 0x18 1
  { valid := true, level := l
    comps := (List.range (field h 0x19 1)).map (fun k => (List.range (l + 1)).map (fun i => residues (body.drop ((k * (l + 1) + i) * N * 8)) N))
    evalForm := field h 0x1A 1 == 1, scale := field h 0x1C 2, keyTag := field h 0x10 8 }

/-- A residue of an object is not below its prime. -/
def residuesBad (c : HCtx) (o : HSlot) : Bool :=
  o.comps.any (fun x => (c.params.q.zip x).any (fun y => y.2.any (fun v => decide (y.1 ≤ v))))

/-- An import's read has failed. -/
def importFails (o : HOp) (f : FDesc) (c : HCtx) (st : Status) (s : State) : State :=
  failRun o f st (if st = .dataPoisoned then invalidate c.handle (field f.bytes 0x10 4) s else s)

/-- The body of an imported object has been read, or its read has failed. -/
def importBody (d : Nat) (r : Except Status Bytes) (s : State) : State :=
  onOp d 0x01 s fun o f c => match r with
    | .error st => importFails o f c st s
    | .ok b =>
      let x := objectOf c o.data b
      if residuesBad c x then failRun o f .badArg s else setResult d (some x) 0 0 0 s

/-- The header of an imported object has been read, or its read has failed. -/
def importHeader (bad : List MemFail) (d : Nat) (r : Except Status Bytes) (s : State) : State :=
  onOp d 0x01 s fun o f c => match r with
    | .error st => importFails o f c st s
    | .ok h =>
      if headerBad c h then failRun o f .badArg s
      else readFor bad f 64 (field h 0x20 8) (.hevImport d) (importBody d) (modOp d (fun o => { o with data := h }) s)

/-- Data of an import: the header first, then the body. -/
def hevImportData (d : Nat) (r : Except Status Bytes) (s : State) : State :=
  if s.hev.ops.any (fun o => o.desc == d && o.data.isEmpty) then importHeader [] d r s else importBody d r s

/-- HEV_IMPORT (0x01, R213). -/
def execHevImport (d : DescReads) (s : State) : Out :=
  .next (onOp d.id 0x01 s fun _ f _ => readFor d.bad f 0 64 (.hevImport d.id) (importHeader d.bad d.id) s)

/-- HEV_EXPORT (0x02, R213): the slot is read; HEV_OP_COMPLETE writes it out. -/
def execHevExport (d : Nat) (s : State) : Out :=
  .next (onOp d 0x02 s fun o f c => match inA c f, decodeAddr (field f.bytes 0x28 8) with
    | some a, .dev x => if devOk s x (64 + (residueBytes a.comps).length) then setResult d (some a) 0 0 0 s else failRun o f .accessViolation s
    | some a, _ => setResult d (some a) 0 0 0 s
    | none, _ => s)

/-- The keys that a burnish run needs, by kind and then Galois element (R224, R225). -/
def burnishKeys (c : HCtx) (b : BurnishSet) (tag : Nat) : List HKey :=
  (c.keys.filter (burnishNeeds b tag)).foldl (fun l k => insertKey k l) []
where
  /-- Insert a key in the order of kind and g. -/
  insertKey (k : HKey) : List HKey → List HKey
    | [] => [k]
    | x :: xs => if k.kind < x.kind || (k.kind == x.kind && decide (k.galois < x.galois)) then k :: x :: xs else x :: insertKey k xs

/-- The result of a burnish run (R224, R227). (DEDUCED: log entry 72) -/
def burnishObj (c : HCtx) (b : BurnishSet) (a : HSlot) : HSlot :=
  let low := residueBytes (coefComps c 0 a)
  let keys := (burnishKeys c b a.keyTag).map (fun k => (k.kind, k.galois, residueBytes k.chunks.flatten))
  let q := basis c b.outLevel
  let coef := (List.range 2).map (fun k => (q.zipIdx).map (fun r => (List.range (degree c.params)).map (fun i =>
    Config.burnishResidue b.digest low keys k r.2 i % r.1)))
  { valid := true, level := b.outLevel, comps := if a.evalForm then coef.map (limbs q (ntt c.params.logN)) else coef, evalForm := a.evalForm
    scale := b.outScale, keyTag := a.keyTag }

/-- BURNISH (R225 to R227). How often its plates stream a key, use a resident one and check a limb pass is the plates': free counts
(notes/assumptions 3). Without a streamed key no byte streams, and without a resident one no use is served from SRAM (R205). -/
def execBurnish (d : Nat) (s : State) : Out :=
  .next (onOp d 0x10 s fun _ f c => match inA c f, c.burnish with
    | some a, some b =>
      let ks := burnishKeys c b a.keyTag
      let free := fun (i : Nat) (none : Bool) => if none then 0 else (Config.freeCount s.draw i).toNat
      setResult d (some (burnishObj c b a)) (free 0 (ks.all (·.resident))) (free 1 (ks.all (fun k => !k.resident)))
        (free 2 b.galois.isEmpty) { s with draw := s.draw + 1 }
    | _, _ => s)

/-! ## Completion (R211, R213, R217, R227, R228) -/

/-- The plates of an operation have finished, their twin checks are done, and its burnish swaps are all done. -/
def platesDone (s : State) (o : HOp) : Bool :=
  o.plan.isEmpty && s.prs.actions.all (fun a => !ofOp o a.work a.run) && s.prs.checks.all (fun c => !ofOp o c.work c.run)

/-- Write an exported object. -/
def writeExport (f : FDesc) (c : HCtx) (o : HSlot) (s : State) : Status × State :=
  let b := headerOf c o ++ residueBytes o.comps
  match decodeAddr (field f.bytes 0x28 8) with
  | .host a => (.ok, postData 3 a b s)
  | .dev a => if devOk s a b.length then memWrite a b s else (.accessViolation, s)
  | .bad => (.badArg, s)

/-- An operation completes with OK, or an export's write fails. (DEDUCED: log entry 71) -/
def completeOp (o : HOp) (f : FDesc) (c : HCtx) (r : HSlot) (s : State) : State :=
  let w := if o.op = 2 then writeExport f c r s else (.ok, putSlot o.ctx o.out r s)
  let n := countRun true o w.2
  if w.1 != .ok then finishOp f w.1 0xFF (o.streamed + n.1) n.2
  else
    let s := if o.op = 0x10 then modHev (fun v => { v with burnishCnt := sat v.burnishCnt }) n.2 else n.2
    finishOp f .ok r.level (o.streamed + n.1) s

/-- A twin disagreement is counted (R73). -/
def countMismatch (s : State) : State := modPla (fun p => { p with sticky := setBit p.sticky 4, twinCnt := sat p.twinCnt }) s

/-- The check values of the twin halves differ (R73): the operation reruns once from its first plate, then ends with DIGEST_DISAGREE. Each run's
key stream counts (R219). (DEDUCED: log entry 71) -/
def opMismatch (whole : Bool) (o : HOp) (f : FDesc) (c : HCtx) (s : State) : State :=
  if o.retried then endBadly whole o f .digestDisagree s
  else
    let home := homeSwaps s c.handle 0 0
    let r := countRun whole o (stopPlates o s)
    let s := modOp o.desc (fun x => { x with retried := true, computed := false, result := none, data := [], streamed := r.1, plan := []
                                             keyBytes := 0, hits := 0, checks := 0 }) (dropHevReads f.id r.2)
    match c.burnish, o.op == 0x10 with
    | some b, true =>
      startBurnish c b home o.desc (dropSwaps (·.work == .ctx c.handle) s)
    | _, _ => startPlates c.handle o.desc s

/-- A disagreement at a stroke in which an operation's plates ran (R72, R73). -/
def rerunMidway (o : HOp) (s : State) : State :=
  match descAt s o.desc, ctxAt s o.ctx with
  | some f, some c => opMismatch false o f c s
  | _, _ => s

/-- A limb pass is one of the operation's (R209, R214, R225). -/
def passOf (c : HCtx) (f : FDesc) (o : HOp) (g r : Nat) : Bool :=
  let B := fun (level : Nat) => basis c level ++ c.params.p
  match o.op with
  | 0x0B => field f.bytes 0x20 4 == g && (inA c f).any (fun a => (B a.level).contains r)
  | 0x0C => (chunksOf 8 65 o.data).any (fun e => field e 0 4 == g) && (inA c f).any (fun a => (B a.level).contains r)
  | 0x10 => c.burnish.any (fun b => b.galois.contains g) && (c.params.q ++ c.params.p).contains r
  | _ => false

/-- The two checks of a limb pass differ (R210). -/
def passFails (c : HCtx) (eval : Bool) (g r : Nat) (input output : List Nat) : Bool :=
  checkIn eval c.params.logN g r input != checkOut eval c.params.logN g r output

/-- An address in the memory of a context: its sheets' SRAM, its slots, its keys. -/
def ofCtx (s : State) (c : HCtx) (a : Nat) : Bool :=
  if inSram a 1 then c.sheets.getLsbD (sheetOf ((a - sramBase) / graverBytes))
  else s.mem.held.any (fun h => decide (h.base ≤ a ∧ a < h.base + h.len) && (match h.owner with
    | .ctx x => x == c.handle
    | .key x _ => x == c.handle
    | _ => false))

/-- The address of a failure. -/
def failAddr : MemFail → Nat
  | .check a => a
  | .treeOnce a => a
  | .treeTwice a => a

/-- The words of a context that an operation reads and that fail their check are counted (R54, R360). -/
def failWords (c : HCtx) (bad : List MemFail) (s : State) : State :=
  (bad.filter (fun f => ofCtx s c (failAddr f))).foldl (fun st f => (checkedRead [f] (failAddr f / 8 * 8) 8 st).2.2) s

/-- HEV_OP_COMPLETE (R210, R211, R213, R217, R227): the last stroke of an operation, with what the physical store and the checks report.
(DEDUCED: log entry 71) -/
def execHevOpComplete (d : Nat) (ev : HevEvent) (s : State) : Out :=
  .next <|
    match s.hev.ops.find? (fun o => o.desc == d && o.computed), descAt s d with
    | some o, some f => match ctxAt s o.ctx, o.result with
      | some c, some r =>
        match ev with
        | .none =>
          if !platesDone s o then s
          else if o.poisoned then endBadly true o f .dataPoisoned s
          else completeOp o f c r s
        | .poison bad => stopMidway o f .dataPoisoned (failWords c bad s)
        | .pass eval g x input output =>
          if passOf c f o g x && passFails c eval g x input output then
            ctxFaulted c.handle .automorphFault (stopMidway o f .automorphFault s)
          else s
        | .twinMismatch => if c.twin && platesDone s o then opMismatch true o f c (countMismatch s) else s
      | _, _ => s
    | _, _ => s

end Sys2Proof.Machine
end

