-- ==== Sys2Proof/Machine/Crc.lean ====
section
/-! DEFINITION. The two CRCs of the module (19_entropy_and_check_values.md R380, Table 19-3) with their fold values. -/

namespace Sys2Proof.Machine

/-- One bit of CRC-64 (ECMA-182), non-reflected, most significant bit first. -/
def crc64Bit (r : BitVec 64) : BitVec 64 := if r.msb then (r <<< 1) ^^^ 0x42F0E1EBA9EA3693#64 else r <<< 1

/-- One byte of CRC-64. -/
def crc64Byte (r : BitVec 64) (b : Byte) : BitVec 64 := Nat.repeat crc64Bit 8 (r ^^^ (b.zeroExtend 64 <<< 56))

/-- One bit of CRC-32C, reflected: the register shifts toward bit 0. -/
def crc32Bit (r : BitVec 32) : BitVec 32 := if r.getLsbD 0 then (r >>> 1) ^^^ 0x82F63B78#32 else r >>> 1

/-- One byte of CRC-32C. -/
def crc32Byte (r : BitVec 32) (b : Byte) : BitVec 32 := Nat.repeat crc32Bit 8 (r ^^^ b.zeroExtend 32)

/-- The initial CRC-64 register for fold value F. -/
def crc64Init (f : BitVec 64) : BitVec 64 := 0xFFFFFFFFFFFFFFFF#64 ^^^ f

/-- The initial CRC-32C register for fold value F. -/
def crc32Init (f : BitVec 64) : BitVec 32 := 0xFFFFFFFF#32 ^^^ f.extractLsb' 0 32 ^^^ f.extractLsb' 32 32

/-- CRC-64 of a byte string folded with F. -/
def crc64 (f : BitVec 64) (bs : Bytes) : BitVec 64 := bs.foldl crc64Byte (crc64Init f) ^^^ 0xFFFFFFFFFFFFFFFF#64

/-- CRC-32C of a byte string folded with F. -/
def crc32c (f : BitVec 64) (bs : Bytes) : BitVec 32 := bs.foldl crc32Byte (crc32Init f) ^^^ 0xFFFFFFFF#32

end Sys2Proof.Machine
end

