-- ==== Sys2Proof/Machine/Platen.lean ====
section
/-! DEFINITION. The platen: rounds, slices and their admission, closing, corrections, release and abort
(09_platen_aggregation.md R176 to R192). -/

namespace Sys2Proof.Machine

/-! ## Rounds and slices (R176, R177) -/

/-- Element width w (Table 9-1). -/
def elemWidth (mode : Nat) : Nat := if mode = 1 then 4 else 8

/-- Mask keystream bytes per element (Table 9-1). -/
def streamWidth (mode : Nat) : Nat := if mode = 1 then 4 else if mode = 2 then 8 else 16

/-- Slice count S. -/
def sliceCount (r : Round) : Nat := (r.vec + (r.slice - 1)) / r.slice

/-- Elements of slice `i`. -/
def sliceElems (r : Round) (i : Nat) : Nat := if i + 1 < sliceCount r then r.slice else r.vec - (sliceCount r - 1) * r.slice

/-- The modulus of element `e`. (DEDUCED: log entry 61) -/
def elemModulus (r : Round) (e : Nat) : Nat :=
  if r.mode = 3 then r.primes.getD (e / r.limbElems % r.primes.length) 1 else 2 ^ (8 * elemWidth r.mode)

/-- Cohort count of slice `i`. -/
def cohortCount (r : Round) (i : Nat) : Nat := (r.admitted.filter (·.2 == i)).length

/-- Slices whose cohort count is at or above the minimum. -/
def slicesAbove (r : Round) : Nat := ((List.range (sliceCount r)).filter (fun i => decide (r.cohort ≤ cohortCount r i))).length

/-- Add, or subtract, values to the accumulator of slice `i` (R96, R177). -/
def accumulate (r : Round) (i : Nat) (vals : List Nat) (sub : Bool) : Round :=
  { r with acc := (vals.zipIdx).foldl (fun m x =>
      let e := i * r.slice + x.2
      let q := elemModulus r e
      let a := mapGet m e
      mapSet m e (if sub then modSub q a x.1 else modAdd q a x.1)) r.acc }

/-- Change a round. -/
def modRound (h : Nat) (f : Round → Round) (s : State) : State :=
  modPtn (fun p => { p with rounds := updWhere (·.handle == h) f p.rounds }) s

/-- A poisoned accumulator word was read for slice `i`: the first time it sets the slice's flag, counts and posts the event (R185). -/
def poisonSlice (h i : Nat) (s : State) : State :=
  if (roundAt s h).any (fun r => !r.poisoned.contains i) then
    postEvent 0x0701 2 i h
      (modPtn (fun p => { p with sticky := setBit p.sticky 3, poisonCnt := sat p.poisonCnt })
        (modRound h (fun r => { r with poisoned := insertNat i r.poisoned }) s))
  else s

/-- The device addresses and lengths of slice `i`'s accumulator: in SRAM over the banks of the carve-out in ascending order, in HBM from the
start of the round's range (R177, R179). (DEDUCED: log entry 61) -/
def accPieces (s : State) (r : Round) (i : Nat) : List (Nat × Nat) :=
  let lo := elemWidth r.mode * i * r.slice
  let n := elemWidth r.mode * sliceElems r i
  if r.accSram then
    ((s.pla.grants.filter (·.work == .round r.handle)).flatMap (·.banks)).zipIdx.filterMap (fun b =>
      let a := max lo (bankBytes * b.2)
      let e := min (lo + n) (bankBytes * (b.2 + 1))
      if a < e then some (sramBase + bankBytes * b.1 + (a - bankBytes * b.2), e - a) else none)
  else (s.mem.held.filter (·.owner == .round r.handle)).map (fun x => (x.base + lo, n))

/-- The pieces of an accumulator are read for an addition: whether a word of them carries a poison tag, and what the reads count (R54, R360). -/
def readPieces (bad : List MemFail) (ps : List (Nat × Nat)) (s : State) : Bool × State :=
  ps.foldl (fun x p => let c := checkedRead bad p.1 p.2 x.2; (x.1 || c.2.1, c.2.2)) (false, s)

/-- The sums are written back over the pieces: whole lines lose their marks and whole words their parity errors (R54, R360). -/
def mendPieces (ps : List (Nat × Nat)) (s : State) : State :=
  modMem (fun m =>
    { m with poison := m.poison.filter (fun l => !ps.any (fun p => coversLine p.1 p.2 l))
             parity := m.parity.filter (fun w => !ps.any (fun p => decide (p.1 ≤ w * 8 ∧ w * 8 + 8 ≤ p.1 + p.2))) }) s

/-- Values are added to a slice. The words of its accumulator are read for it, those at the addresses `bad` with an error, and a poison tag on
one of them poisons the slice (R185). -/
def addToSlice (h i : Nat) (vals : List Nat) (sub : Bool) (bad : List MemFail) (s : State) : State :=
  match roundAt s h with
  | none => s
  | some r =>
    let ps := accPieces s r i
    let x := readPieces bad ps s
    let s := mendPieces ps (if x.1 then poisonSlice h i x.2 else x.2)
    modRound h (fun r => accumulate r i vals sub) s

/-! ## Admission (R181 to R184) -/

/-- The fold value F of a slice's ICV (R181). -/
def sliceFold (id client slice : Nat) : BitVec 64 := BitVec.ofNat 64 (id % 2 ^ 20 * 2 ^ 44 + client * 2 ^ 20 + slice)

/-- The elements of a body. -/
def bodyElems (r : Round) (body : Bytes) : List Nat :=
  let w := elemWidth r.mode
  (List.range (body.length / w)).map (fun k => field body (w * k) w)

/-- The checks of R183 on a slice: the first that fails. -/
def sliceCheck (r : Round) (b : Bytes) (poison : Bool) : Option Status :=
  let client := field b 8 4
  let i := field b 0xC 4
  let n := field b 0x10 4
  let body := b.drop 64
  firstFail [
    (r.state != 1, .staleKey),
    (field b 0 8 != r.id || decide (r.clients ≤ client) || decide (sliceCount r ≤ i) || n != elemWidth r.mode * sliceElems r i ||
      b.length != 64 + n || !zeroAt b 0x14 4 || !zeroAt b 0x20 32, .badArg),
    (poison, .dataPoisoned),
    (field b 0x18 8 != (crc64 (sliceFold r.id client i) body).toNat, .icvMismatch),
    (r.mode == 3 && ((bodyElems r body).zipIdx).any (fun x => decide (elemModulus r (i * r.slice + x.2) ≤ x.1)), .badArg),
    (r.admitted.contains (client, i), .duplicate)]

/-- The platen's answer is counted (Table 9-9). -/
def countAnswer (st : Status) (p : PtnState) : PtnState :=
  match st with
  | .ok => { p with admitCnt := sat p.admitCnt }
  | .duplicate => { p with dupCnt := sat p.dupCnt }
  | .staleKey => { p with staleCnt := sat p.staleCnt }
  | .dataPoisoned => { p with stagePoison := sat p.stagePoison, sticky := setBit p.sticky 2 }
  | .icvMismatch => { p with icvCnt := sat p.icvCnt, sticky := setBit p.sticky 1 }
  | _ => { p with formatCnt := sat p.formatCnt }

/-- A staged slice is checked and, when every check passes, admitted: its bit is set, its body added, its cohort counted (R183).
A round that is released or aborted answers STALE_KEY. The round's active kind 3 plates are invoked in the session stroke of the admission: R36 leaves
the invocation stroke to the chapter on the platen, which names none. (DESIGN CHOICE: log entry 82) -/
def admitSlice (x : Staged) (bad : List MemFail) (s : State) : Status × State :=
  match roundAt s x.round with
  | none => (.staleKey, modPtn (countAnswer .staleKey) s)
  | some r =>
    match sliceCheck r x.bytes x.poison with
    | some st => (st, modPtn (countAnswer st) s)
    | none =>
      let i := field x.bytes 0xC 4
      let s := modRound r.handle (fun r => { r with admitted := r.admitted ++ [(field x.bytes 8 4, i)] }) s
      let s := modPtn (countAnswer .ok) (addToSlice r.handle i (bodyElems r (x.bytes.drop 64)) false bad s)
      (.ok, invokeKind (.round r.handle) (some x.id) 3 (sessionStroke s (.round r.handle)) s)

/-- The lengths of a write that can be a slice of the round (R182). -/
def sliceSizes (r : Round) : List Nat :=
  [64 + elemWidth r.mode * sliceElems r 0, 64 + elemWidth r.mode * sliceElems r (sliceCount r - 1)]

/-! ## ROUND_OPEN (R179) -/

/-- Step 2 of R179. -/
def roundOpenBad (s : State) (p : Bytes) : Bool :=
  let mode := field p 8 1
  let limbs := field p 0xA 1
  let flags := field p 0xB 1
  let vec := field p 0x10 8
  let slice := field p 0x18 4
  let unit := if mode = 1 then 16 else 8
  let top := if mode = 1 then 262128 else 131064
  let le := field p 0x24 4
  let primes := (List.range limbs).map (fun i => field p (0x40 + 8 * i) 8)
  decide (p.length < 64) || p.length != 64 + 8 * limbs || field p 0 8 == 0 || decide (mode < 1) || decide (3 < mode) ||
    (field p 9 1 != 1 && field p 9 1 != 2) || (if mode = 3 then limbs == 0 || decide (64 < limbs) else limbs != 0) ||
    decide (1 < flags) || decide (vec < 1) || decide (2 ^ 32 < vec) || decide (slice < unit) || decide (top < slice) || slice % unit != 0 ||
    decide (field p 0x1C 4 < 1) || decide (2 ^ 24 < field p 0x1C 4) || decide (field p 0x20 4 < 2) || decide (field p 0x1C 4 < field p 0x20 4) ||
    (if mode = 3 then !(isPow2 le && decide (4096 ≤ le) && decide (le ≤ 131072)) else le != 0) || !zeroAt p 0x28 24 ||
    primes.any (fun q => q % 2 == 0 || decide (q < 3) || decide (2 ^ 61 ≤ q)) ||
    ((flags == 1) != (field p 0xC 4 != 0)) || decide (2 ^ 20 < (vec + slice - 1) / slice) ||
    (flags == 1 && decide (5461 < bankCount (vec * elemWidth mode))) || s.ptn.rounds.any (fun r => r.id == field p 0 8)

/-- The round that a ROUND_OPEN payload opens. -/
def newRound (s : State) (h : Nat) (p : Bytes) : Round :=
  { handle := h, id := field p 0 8, mode := field p 8 1, prg := field p 9 1, accSram := field p 0xB 1 == 1, vec := field p 0x10 8
    slice := field p 0x18 4, clients := field p 0x1C 4, cohort := field p 0x20 4, limbElems := field p 0x24 4
    primes := (List.range (field p 0xA 1)).map (fun i => field p (0x40 + 8 * i) 8), state := 1, acc := [], admitted := [], poisoned := []
    waiter := none, aborting := false, base := s.prs.stroke }

/-- Step 4 of R179: the carve-out, and HBM for the accumulators, the bitmap and the counts. -/
def roundResources (r : Round) (sheets : BitVec 32) (s : State) : Option State :=
  let bytes := r.vec * elemWidth r.mode
  let own := roundUp 64 ((r.clients * sliceCount r + 7) / 8) + 4 * sliceCount r + (if r.accSram then 0 else bytes)
  (if r.accSram then grant (.round r.handle) sheets false bytes s else some s).bind (fun s =>
    match placeHbm own s with
    | (some a, s) => some (hold ⟨a, own, .round r.handle⟩ s)
    | (none, _) => none)

/-- ROUND_OPEN (0x0701, R179). -/
def execRoundOpen (mb : MbId) (s : State) : Out :=
  .next <| onNewJob mb 0x0701 s fun j =>
    if guardSet s then answer j .strokeGuard s
    else if roundOpenBad s j.payload then answer j .badArg s
    else if quiesced s 2 then answer j .notIdle s
    else if 16 ≤ s.ptn.rounds.length then answer j .busy s
    else
      let h := freshHandle (workHandles s ++ s.rdm.windows.map (·.round) ++ s.ptn.staged.map (·.round)) s
      let r := newRound h.2 h.1 j.payload
      match roundResources r (BitVec.ofNat 32 (arg j 0xC 4)) h.2 with
      | none => answer j .busy s
      | some s =>
        finish j .ok (leBytes 4 r.handle ++ leBytes 4 (sliceCount r) ++ leBytes 8 (r.vec * elemWidth r.mode))
          (modPtn (fun p => { p with rounds := p.rounds ++ [r] }) s)

/-! ## Closing and abort (R186, R190, R191) -/

/-- The round that a command names, its payload of length `n` with bytes 4 to 7 reserved (R178). -/
def roundArg (s : State) (j : Job) (n : Nat) : Option Round := if !lenIs j n || arg j 4 4 != 0 then none else roundAt s (arg j 0 4)

/-- The round is wiped and freed (R190). -/
def wipeRound (h : Nat) (s : State) : State :=
  release (· == .round h) (endWork (.round h) (modPtn (fun p => { p with rounds := p.rounds.filter (·.handle != h) }) s))

/-- The round is aborted at once by an event of the module (R191): a ROUND_CLOSE or ROUND_ABORT that waits for it ends. (DEDUCED: log entry 61) -/
def abortRound (h : Nat) (s : State) : State :=
  match roundAt s h with
  | none => s
  | some r =>
    let s := wipeRound h s
    match r.waiter.bind (fun w => jobAt s w.2) with
    | some j => conclude j (if r.aborting then .ok else .badArg) [] s
    | none => s

/-- Every round is aborted. -/
def abortRounds (s : State) : State := s.ptn.rounds.foldl (fun st r => abortRound r.handle st) s

/-- ROUND_CLOSE (0x0702, R186): admission stops; ROUND_CLOSED follows when no slice is between step 1 of R183 and its answer. (DEDUCED: log entry 61) -/
def execRoundClose (mb : MbId) (s : State) : Out :=
  .next <| onNewJob mb 0x0702 s fun j =>
    match roundArg s j 8 with
    | none => answer j .badArg s
    | some r =>
      if r.state != 1 then answer j .notIdle s
      else waitJob j r.handle (modRound r.handle (fun r => { r with state := 2, waiter := some (j.mb, j.order) }) s)

/-- ROUND_ABORT (0x0705, R191). -/
def execRoundAbort (mb : MbId) (s : State) : Out :=
  .next <| onNewJob mb 0x0705 s fun j =>
    match roundArg s j 8 with
    | none => answer j .badArg s
    | some r =>
      if r.state = 3 then answer j .ok (wipeRound r.handle s)
      else
        waitJob j r.handle (modRound r.handle (fun r => { r with state := 2, aborting := true, waiter := some (j.mb, j.order) }) s)

/-- ROUND_CLOSED (R186, R191): no slice is in flight past step 1 of R183; SLICE_ADMISSION makes every step of a slice at once.
(DEDUCED: log entry 61) -/
def execRoundClosed (round : Nat) (s : State) : Out :=
  .next <|
    match roundAt s round with
    | none => s
    | some r =>
      if r.state != 2 then s
      else if r.aborting then abortRound round s
      else
        let s := modRound round (fun r => { r with state := 3, waiter := none }) s
        match r.waiter.bind (fun w => jobAt s w.2) with
        | some j => conclude j .ok (leBytes 8 r.admitted.length) s
        | none => s

/-- ROUND_STATUS (0x0706). -/
def execRoundStatus (mb : MbId) (s : State) : Out :=
  .next <| onNewJob mb 0x0706 s fun j =>
    match roundArg s j 8 with
    | none => answer j .badArg s
    | some r =>
      finish j .ok (leBytes 1 r.state ++ zeros 3 ++ leBytes 4 (sliceCount r) ++ leBytes 8 r.admitted.length ++ leBytes 4 (slicesAbove r) ++ zeros 4) s

/-! ## Corrections (R187, R188) -/

/-- A correction entry fails a check of the first pass. -/
def entryBad (r : Round) (e : Bytes) : Bool :=
  field e 0x24 4 == 0 || decide (sliceCount r < field e 0x20 4 + field e 0x24 4) || decide (1 < field e 0x28 1) || !zeroAt e 0x29 7

/-- Keystream bytes of slice `i` under a seed (R188). -/
def maskStream (r : Round) (seed : Bytes) (i n : Nat) : Bytes :=
  if r.prg = 1 then
    ((List.range ((n + 15) / 16)).flatMap (fun k => aes256 seed (leBytes 4 k ++ leBytes 4 i ++ leBytes 8 r.id))).take n
  else shake128 (seed ++ leBytes 8 r.id ++ leBytes 4 i) n

/-- The masks of slice `i`. -/
def sliceMask (r : Round) (seed : Bytes) (i : Nat) : List Nat :=
  let u := streamWidth r.mode
  let n := sliceElems r i
  let st := maskStream r seed i (u * n)
  (List.range n).map (fun k => field st (k * u) u % elemModulus r (i * r.slice + k))

/-- One correction entry is applied. -/
def applyEntry (h : Nat) (bad : List MemFail) (e : Bytes) (s : State) : State :=
  match roundAt s h with
  | none => s
  | some r =>
    let first := field e 0x20 4
    let s := (List.range (field e 0x24 4)).foldl (fun st k =>
      addToSlice h (first + k) (sliceMask r (e.take 32) (first + k)) (field e 0x28 1 == 1) bad st) s
    modPtn (fun p => { p with correctCnt := sat p.correctCnt }) s

/-- The second pass over the entries of a list: how many were applied, and whether one failed a check. -/
def applyEntries (h : Nat) (bad : List MemFail) : List Bytes → Nat → State → Nat × Bool × State
  | [], n, s => (n, true, s)
  | e :: es, n, s =>
    match roundAt s h with
    | none => (n, false, s)
    | some r => if entryBad r e then (n, false, s) else applyEntries h bad es (n + 1) (applyEntry h bad e s)

/-- The entries of a list. -/
def entriesOf (b : Bytes) : List Bytes := chunksOf 48 (b.length + 1) b

/-- The second pass of ROUND_CORRECT ends: the entries applied stand, and the completion counts them (R187). -/
def correctEnd (j : Job) (st : Status) (n : Nat) (s : State) : State := finish j st (leBytes 4 n ++ zeros 4) s

/-- The second pass with the part of the list that has been read: whole entries are applied as they come, and one that would fail a check
ends the command (R187). -/
def correctEarly (j : Job) : Early := fun b s =>
  let n := (jobAt s j.order).elim j.applied (·.applied)
  let a := applyEntries (arg j 0 4) j.bad ((chunksOf 48 (b.length + 1) (b.take (b.length / 48 * 48))).drop n) n s
  if a.2.1 then (false, modJob j.order (fun x => { x with applied := a.1 }) a.2.2) else (true, correctEnd j .badArg a.1 a.2.2)

/-- The second pass of ROUND_CORRECT has been read, or its read has failed (R187). -/
def correctSecond (j : Job) (r : Except Status Bytes) (s : State) : State :=
  let n := (jobAt s j.order).elim j.applied (·.applied)
  match r with
  | .error st => correctEnd j st n s
  | .ok b =>
    let e := correctEarly j b s
    if e.1 then e.2 else correctEnd j .ok (b.length / 48) e.2

/-- The first pass with the part of the list that has been read (R187, R436). -/
def checkEarly (j : Job) : Early := fun b s =>
  match roundAt s (arg j 0 4) with
  | none => (false, s)
  | some rd => if (chunksOf 48 (b.length + 1) (b.take (b.length / 48 * 48))).any (entryBad rd) then (true, answer j .badArg s) else (false, s)

/-- The second pass over a list of `n` entries in device memory: what comes before the first word that fails its check is applied (R187). -/
def secondPass (j : Job) (a n : Nat) (s : State) : State :=
  match devRead j.bad a (48 * n) s with
  | (.ok b, t) => correctSecond j (.ok b) t
  | (.error st, t) =>
    let e := correctEarly j (cellRead t.mem.cells a (cleanLen j.bad t a (48 * n))) t
    if e.1 then e.2 else correctSecond j (.error st) e.2

/-- The first pass of ROUND_CORRECT has been read, or its read has failed. -/
def correctFirst (j : Job) (r : Except Status Bytes) (s : State) : State :=
  match r, roundAt s (arg j 0 4) with
  | .error st, _ => answer j st s
  | .ok _, none => answer j .badArg s
  | .ok b, some rd =>
    if (entriesOf b).any (entryBad rd) then answer j .badArg s
    else match decodeAddr (arg j 8 8) with
    | .host a => waitJob j rd.handle (hostReadReq 0 a b.length (.correctSecond j.mb j.order) s)
    | .dev a => secondPass j a (b.length / 48) s
    | .bad => answer j .badArg s

/-- ROUND_CORRECT (0x0703, R187); what `m.bad` names fails its check when a pass over a list in device memory or an addition reads it (R185). -/
def execRoundCorrect (m : MbReads) (s : State) : Out :=
  .next <| onReads m 0x0703 s fun j =>
    match roundArg s j 24 with
    | none => answer j .badArg s
    | some r =>
      if arg j 20 4 != 0 || decide (arg j 16 4 < 1) || decide (2 ^ 24 < arg j 16 4) || badAddr (arg j 8 8) then answer j .badArg s
      else if r.state != 3 then answer j .notIdle s
      else fetchSource j true (arg j 8 8) (48 * arg j 16 4) 0 (checkEarly j) (correctFirst j) s

/-! ## What is written out (R189, R190, R192) -/

/-- A destination range of a release or a read-out: none, or why it is refused (R190, R298). -/
def destBad (s : State) (v n : Nat) : Option Status :=
  match decodeAddr v with
  | .bad => some .badArg
  | .host _ => none
  | .dev a => if inHbm s a n && !heldRange s a n then none else some .accessViolation

/-- Write bytes to a host or device address for the platen; a device write can fail under R361 only. (DEDUCED: log entry 20) -/
def putOut (v off : Nat) (b : Bytes) (s : State) : Status × State :=
  match decodeAddr v with
  | .dev a => let r := memWrite (a + off) b s; (if r.1 = .ok then .ok else .dataPoisoned, r.2)
  | _ => (.ok, postData 2 (v + off) b s)

/-- The words of a slice's sum. -/
def sumBytes (r : Round) (i : Nat) : Bytes :=
  (List.range (sliceElems r i)).flatMap (fun k => leBytes (elemWidth r.mode) (mapGet r.acc (i * r.slice + k)))

/-- A list of set bits as `n` bytes, bit 0 of byte 0 first (R184). -/
def bitBytes (n : Nat) (l : List Nat) : Bytes :=
  (List.range n).map (fun i => BitVec.ofNat 8 (sumNat (((l.filter (fun b => b / 8 == i))).map (fun b => 2 ^ (b % 8)))))

/-- A destination range of the counts or of the bitmap: none, or why it is refused (R12, R13). -/
def destDenied (s : State) (v n : Nat) : Option Status :=
  match decodeAddr v with
  | .bad => some .badArg
  | .host _ => none
  | .dev a => if devOk s a n then none else some .accessViolation

/-- The slices of a release in ascending order: released ones written, the others counted; `ok` is false when a write failed. -/
structure Released where
  out   : List Nat
  low   : Nat
  bad   : Nat
  ok    : Bool

/-- R189's table for the slices `l`. The words of a slice that would be released are read out of its accumulator, those that `fails` names with an
error: a poison tag first met here withholds the slice as one met in an addition does. A release whose write fails counts the slices up to the one that
failed. (DESIGN CHOICE: log entry 86) -/
def releaseSlices (r : Round) (v : Nat) (fails : List MemFail) : List Nat → Released → State → Released × State
  | [], x, s => (x, s)
  | i :: is, x, s =>
    if r.poisoned.contains i then releaseSlices r v fails is { x with bad := x.bad + 1 } s
    else if cohortCount r i < r.cohort then releaseSlices r v fails is { x with low := x.low + 1 } s
    else
      let p := readPieces fails (accPieces s r i) s
      if p.1 then releaseSlices r v fails is { x with bad := x.bad + 1 } (poisonSlice r.handle i p.2)
      else
        let w := putOut v (elemWidth r.mode * i * r.slice) (sumBytes r i) p.2
        if w.1 = .ok then releaseSlices r v fails is { x with out := x.out ++ [i] } w.2 else ({ x with ok := false }, w.2)

/-- ROUND_RELEASE (0x0704; R189, R190). (DESIGN CHOICE: log entry 86) -/
def execRoundRelease (m : MbReads) (s : State) : Out :=
  .next <| onReads m 0x0704 s fun j =>
    match roundArg s j 24 with
    | none => answer j .badArg s
    | some r =>
      let n := sliceCount r
      let mapLen := (n + 63) / 64 * 8
      if badAddr (arg j 8 8) || badAddr (arg j 16 8) then answer j .badArg s
      else if r.state != 3 then answer j .notIdle s
      else match destBad s (arg j 8 8) (elemWidth r.mode * r.vec), destBad s (arg j 16 8) mapLen with
      | some st, _ => answer j st s
      | _, some st => answer j st s
      | none, none =>
        let x := releaseSlices r (arg j 8 8) j.bad (List.range n) { out := [], low := 0, bad := 0, ok := true } s
        let m := if x.1.ok then putOut (arg j 16 8) 0 (bitBytes mapLen x.1.out) x.2 else (.dataPoisoned, x.2)
        let st := if m.1 != .ok then .dataPoisoned else if x.1.low != 0 then .cohortTooSmall else if x.1.bad != 0 then .dataPoisoned else .ok
        let s := modPtn (fun p => { p with withheldCnt := satAdd 32 p.withheldCnt (x.1.low + x.1.bad) }) (wipeRound r.handle m.2)
        finish j st (leBytes 4 x.1.out.length ++ leBytes 4 x.1.low ++ leBytes 4 x.1.bad ++ zeros 4) s

/-- ROUND_COUNTS (0x0707). -/
def execRoundCounts (mb : MbId) (s : State) : Out :=
  .next <| onNewJob mb 0x0707 s fun j =>
    match roundArg s j 16 with
    | none => answer j .badArg s
    | some r =>
      let b := (List.range (sliceCount r)).flatMap (fun i => leBytes 4 (cohortCount r i))
      match destDenied s (arg j 8 8) b.length with
      | some st => answer j st s
      | none => let w := putOut (arg j 8 8) 0 b s; answer j w.1 w.2

/-- ROUND_BITMAP (0x0708, R184): the bitmap as it lies in memory, whole 64-byte lines. (DEDUCED: log entry 61) -/
def execRoundBitmap (mb : MbId) (s : State) : Out :=
  .next <| onNewJob mb 0x0708 s fun j =>
    match roundArg s j 16 with
    | none => answer j .badArg s
    | some r =>
      let n := roundUp 64 ((r.clients * sliceCount r + 7) / 8)
      if badAddr (arg j 8 8) then answer j .badArg s
      else if r.state != 3 then answer j .notIdle s
      else match destDenied s (arg j 8 8) n with
      | some st => answer j st s
      | none =>
        let w := putOut (arg j 8 8) 0 (bitBytes n (r.admitted.map (fun a => a.2 * r.clients + a.1))) s
        answer j w.1 w.2

end Sys2Proof.Machine
end

