-- ==== Sys2Proof/Machine/Keys.lean ====
section
/-! DEFINITION. Identity, the key store, attestation and weight images (17_keys_and_attestation.md R327 to R346), and the
generator's output for the module's own consumers (19_entropy_and_check_values.md R374, R376). -/

namespace Sys2Proof.Machine

/-! ## The generator (R374 to R376) -/

/-- The generator is instantiated: slot 4 holds its key (R374, R375). -/
def drbgLive (s : State) : Bool := s.kst.slots.any (·.slot == 4)

/-- The generator serves requests: instantiated, and fewer than 65,536 requests since its last seeding (R374). -/
def drbgServes (s : State) : Bool := drbgLive s && decide (s.ent.requests < 65536)

/-- The generator serves `n` requests without a reseed between them (R374). -/
def drbgReady (n : Nat) (s : State) : Bool := drbgLive s && decide (s.ent.requests + n ≤ 65536)

/-- A mailbox command that waits for the generator. -/
def jobWaits (s : State) (ops : List Nat) : Bool :=
  firmwareRuns s && s.mbx.jobs.any (fun j => j.phase == 2 && ops.contains j.opcode && (j.opcode != 0x0B01 || s.tst.running.isNone))

/-- A ring link's handshake that waits for the generator: as initiator, or with the message that it is to answer. -/
def linkWaits (s : State) (answers : Bool) : Bool := (list5 s.ports).any (fun p => p.hs.phase == 3 && p.hs.held.isSome == answers)

/-- The attestation key is to be generated: rank 2, with the signature of its certificate (R330, R349, R354). -/
def attestWaits (s : State) : Bool :=
  identityReady s && !attestReady s && !s.kst.seedBlown && s.life.removal.isNone

/-- A request of a rank above `rank` waits for the generator (R377): keys are rank 2, nonces and signatures 3, the self-test's seed 4. -/
def outranked (s : State) (rank : Nat) : Bool :=
  (decide (2 < rank) && (jobWaits s [0x0301, 0x0309] || linkWaits s false || attestWaits s)) ||
    (decide (3 < rank) && (jobWaits s [0x0305, 0x0306, 0x0501] || linkWaits s true || s.dec.any (·.signWait))) ||
    (decide (4 < rank) && jobWaits s [0x0B01])

/-- `n` requests of a rank are served now (R374, R377). -/
def drbgGrants (n rank : Nat) (s : State) : Bool := drbgReady n s && !outranked s rank

/-- A full slot by its number. -/
def slotAt (s : State) (n : Nat) : Option KeySlot := s.kst.slots.find? (·.slot == n)

/-- The generator's working state: its key in slot 4, and V (R374). -/
def drbgState (s : State) : Bytes × Bytes := ((slotAt s 4).elim [] (·.secret), s.ent.drbgV)

/-- Keep a new working state. -/
def setDrbg (w : Bytes × Bytes) (s : State) : State :=
  modEnt (fun e => { e with drbgV := w.2 }) (modKst (fun k => { k with slots := updWhere (·.slot == 4) (fun x => { x with secret := w.1 }) k.slots }) s)

/-- One generate request of `n` bytes; at 49,152 requests the generator asks for a reseed (R374). -/
def drbgTake (n : Nat) (s : State) : Bytes × State :=
  let r := drbgGenerate n (drbgState s)
  (r.1, setDrbg r.2 (modEnt (fun e => { e with
    requests := e.requests + 1, reseeding := e.reseeding || decide (49152 ≤ e.requests + 1) }) s))

/-! ## Slots (R332 to R334) -/

/-- Fill a slot, slots rising. -/
def fillSlot (k : KeySlot) (s : State) : State :=
  modKst (fun x => { x with slots := x.slots.filter (fun y => decide (y.slot < k.slot)) ++ k :: x.slots.filter (fun y => decide (k.slot < y.slot)) }) s

/-- Empty the slots for which `p` holds. -/
def clearSlots (p : Nat → Bool) (s : State) : State :=
  modKst (fun x => { x with slots := x.slots.filter (fun y => !p y.slot) }) s

/-- The lowest free tenant slot. -/
def freeTenant (s : State) : Option Nat := ((List.range 192).map (· + 64)).find? (fun n => (slotAt s n).isNone)

/-- The digest of a slot's public key; 64 zero bytes for a type 3 key (R335). -/
def keyDigest (k : KeySlot) : Bytes := if k.type = 3 then zeros 64 else sha512 k.pub

/-- A slot for an engine (R334): none when it is empty or its mask lacks the engine. -/
def slotFor (s : State) (n engine : Nat) : Option KeySlot := (slotAt s n).filter (fun k => bit k.mask engine)

/-- A refusal under R334. -/
def denySlot (j : Job) (s : State) : State :=
  answer j .notPermitted (modKst (fun k => { k with engineDeny := sat k.engineDeny }) s)

/-! ## Identity and attestation keys (R329 to R331) -/

/-- The identity seed of the factory, unless RETIRE has blown it (R329, R349). -/
def identitySeed (s : State) : Option Bytes := if s.kst.seedBlown then none else some (bvBytes 32 Config.identitySeed)

/-- At boot the seed is expanded into slot 0 (R329). -/
def expandIdentity (s : State) : State :=
  match identitySeed s with
  | some seed => fillSlot { slot := 0, type := 2, origin := 1, mask := 0x20, nonExport := true, secret := seed,
                            pub := bvBytes 2592 (Config.mldsaPub seed), bound := [] } s
  | none => s

/-- The identity digest, 64 zero bytes while no identity key is expanded. -/
def identityDigest (s : State) : Bytes := (slotAt s 0).elim (zeros 64) (fun k => sha512 k.pub)

/-- The attestation public key's digest, 64 zero bytes while no key exists. -/
def attestDigest (s : State) : Bytes := (slotAt s 1).elim (zeros 64) (fun k => sha512 k.pub)

/-- An ML-DSA-87 signature with the key of a slot; the hedging bits are one generate request (R328, R377). -/
def signWith (k : KeySlot) (msg : Bytes) (s : State) : Bytes × State :=
  let r := drbgTake 32 s
  (bvBytes 4627 (Config.mldsaSign k.secret msg r.1), r.2)

/-! ## Commands of Table 17-4 -/

/-- A DER element: tag, length, contents. -/
def der (tag : Nat) (b : Bytes) : Bytes :=
  leBytes 1 tag ++ (if b.length < 128 then leBytes 1 b.length else [0x82] ++ beBytes 2 b.length) ++ b

/-- The algorithm identifier id-ml-dsa-87, 2.16.840.1.101.3.4.3.19 (R331). -/
def mldsaAlg : Bytes := der 0x30 (der 0x06 [0x60, 0x86, 0x48, 0x01, 0x65, 0x03, 0x04, 0x03, 0x13])

/-- A DER bit string of whole bytes. -/
def bitString (b : Bytes) : Bytes := der 0x03 (0 :: b)

/-- The validity end of every certificate, 99991231235959Z (R331). -/
def validityEnd : Bytes := der 0x18 ("99991231235959Z".toList.map (fun c => BitVec.ofNat 8 c.toNat))

/-- What certificate `n` signs: X.509 version 3, the subject of the one before as its issuer, and the public key. (PRESUMED: log entry 36) -/
def certBody (n : Nat) (issuer subject key seed : Bytes) : Bytes :=
  der 0x30 ([0xA0, 0x03, 0x02, 0x01, 0x02] ++ Config.certPart n .serial seed ++ mldsaAlg ++ issuer ++
    der 0x30 (Config.certPart n .notBefore seed ++ validityEnd) ++ subject ++ der 0x30 (mldsaAlg ++ bitString key) ++ Config.certPart n .extensions seed)

/-- A certificate: its body, the algorithm, the signature. -/
def certOf (body sig : Bytes) : Bytes := der 0x30 (body ++ mldsaAlg ++ bitString sig)

/-- The subject of a certificate of the chain. -/
def certSubject (n : Nat) (seed : Bytes) : Bytes := Config.certPart n .subject seed

/-- A certificate that provisioning issued: 1 the Cehorn root, 2 the device CA, 3 the module identity certificate. -/
def provisionedCert (n : Nat) (key seed : Bytes) : Bytes :=
  certOf (certBody n (certSubject (max 1 (n - 1)) seed) (certSubject n seed) key seed) (Config.certPart n .signature seed)

/-- What the identity key signs to certify an attestation key: the subject carries the identity digest and the reset counter (R330). -/
def attestBody (idPub attestPub : Bytes) (resets : Nat) : Bytes :=
  let seed := sha512 idPub ++ leBytes 4 resets
  certBody 4 (certSubject 3 idPub) (certSubject 4 seed) attestPub seed

/-- The chain in the SPDM 1.3 format: length, reserved, the SHA3-512 hash of the root, the four certificates (R331). (PRESUMED: log entry 36) -/
def certChain (idPub attestCert : Bytes) : Bytes :=
  let root := provisionedCert 1 (Config.certPart 1 .key idPub) idPub
  let certs := root ++ provisionedCert 2 (Config.certPart 2 .key idPub) idPub ++ provisionedCert 3 idPub idPub ++ attestCert
  leBytes 2 (68 + certs.length) ++ zeros 2 ++ sha512 root ++ certs

/-- The attestation key is generated inside, once slot 0 holds the identity key and the generator serves, and the chain is
issued that certifies it (R330, R331): not in RETIRED (R349), nor before a removal's last step (R354). -/
def makeAttest (s : State) : State :=
  match slotAt s 0, slotAt s 1 with
  | some id, none =>
    if !drbgReady 2 s || s.kst.seedBlown || s.life.removal.isSome then s
    else
      let r := drbgTake 32 s
      let pub := bvBytes 2592 (Config.mldsaPub r.1)
      let s := fillSlot { slot := 1, type := 2, origin := 1, mask := 0x20, nonExport := true, secret := r.1, pub := pub, bound := [] } r.2
      let body := attestBody id.pub pub s.backup.resetCount
      let sig := signWith id body s
      modKst (fun k => { k with chain := certChain id.pub (certOf body sig.1) }) sig.2
  | _, _ => s

/-- Slot 0 was zeroised by an alarm and no boot has expanded it again (R330). -/
def identityGone (s : State) : Bool := s.life.overlay && !identityReady s

/-- IDENTITY_GET (0x0101). -/
def execIdentityGet (mb : MbId) (s : State) : Out :=
  .next <| onNewJob mb 0x0101 s fun j =>
    if !lenIs j 8 || !allZero j.payload then answer j .badArg s
    else match slotAt s 0 with
    | some k =>
      finish j .ok (leBytes 2 s.partId.toNat ++ leBytes 1 (reportedState s) ++ [0] ++ leBytes 4 s.backup.resetCount ++
        sha512 k.pub ++ k.pub) s
    | none => if identityGone s then answer j .tamperLocked s else s

/-- KEY_GENERATE on its job: it waits for the generator (R336, R377). -/
def keyGenerate (j : Job) (s : State) : State :=
  if !lenIs j 8 || arg j 0 1 != 1 || !zeroAt j.payload 1 7 then answer j .badArg s
  else match freeTenant s with
  | none => answer j .busy s
  | some n =>
    if decide (8 ≤ (s.kst.slots.filter (fun k => bit k.mask 6)).length) then answer j .busy s
    else if !drbgReady 1 s then waitJob j 0 s
    else
      let r := drbgTake 64 s
      let pub := bvBytes 1568 (Config.mlkemPub r.1)
      let k : KeySlot := { slot := n, type := 1, origin := 1, mask := 0x40, nonExport := true, secret := r.1, pub := pub, bound := [] }
      finish j .ok (leBytes 2 n ++ zeros 6 ++ sha512 pub ++ pub) (fillSlot k r.2)

/-- KEY_GENERATE (0x0301, R336): it never ends with ENTROPY_NOT_READY. -/
def execKeyGenerate (mb : MbId) (s : State) : Out := .next (onJob mb 0x0301 s (fun j => keyGenerate j s))

/-- HBM_KEY_ROTATE on its job: it waits for the generator (R362, R377). -/
def keyRotate (j : Job) (s : State) : State :=
  if !lenIs j 8 || !allZero j.payload then answer j .badArg s
  else if s.mpr.sweep || s.mpr.wiping || !s.mpr.filled then answer j .busy s
  else if !drbgReady 1 s then waitJob j 0 s
  else
    let r := drbgTake 32 s
    let k : KeySlot := { slot := if s.mpr.activeB then 2 else 3, type := 3, origin := 1, mask := 1, nonExport := true, secret := r.1, pub := [], bound := [] }
    answer j .ok (modMpr (fun m => { m with activeB := !m.activeB, sweep := true, sweepPct := 0 }) (fillSlot k r.2))

/-- A wrap header breaks step 1 of R338. (DEDUCED: log entry 36) -/
def wrapBad (h : Bytes) : Bool :=
  field h 0 4 != 0x574B584F || field h 4 2 != 1 || (field h 6 2 != 4 && field h 6 2 != 16) ||
    decide (field h 8 2 < 64) || decide (255 < field h 8 2) || !zeroAt h 10 6 || (field h 6 2 == 4 && !zeroAt h 0x50 64)

/-- The key of a wrap under a receive key; none when the tag fails (R337). -/
def unwrap (k : KeySlot) (p : Bytes) : Option Bytes :=
  let ct := slice p 144 1568
  let ss := bvBytes 32 (Config.mlkemDecaps k.secret ct)
  let kw := shake (ss ++ sha512 ct ++ p.take 144) 32
  gcmOpen kw (zeros 12) (p.take 144) (slice p 1712 32) (slice p 1744 16)

/-- KEY_IMPORT_WRAPPED (0x0302; R337, R338). -/
def execKeyImportWrapped (mb : MbId) (s : State) : Out :=
  .next <| onNewJob mb 0x0302 s fun j =>
    if !lenIs j 1760 || wrapBad j.payload then answer j .badArg s
    else match slotFor s (arg j 8 2) 6 with
    | none => denySlot j s
    | some k =>
      if slice j.payload 0x10 64 != attestDigest s || !attestReady s then
        answer j .staleKey (modKst (fun x => { x with staleWrap := sat x.staleWrap }) s)
      else match unwrap k j.payload with
      | none =>
        answer j .keyMismatch (modKst (fun x => { x with sticky := setBit x.sticky 1, unwrapFail := sat x.unwrapFail }) s)
      | some key =>
        match freeTenant s with
        | none => answer j .busy s
        | some n =>
          let k : KeySlot := { slot := n, type := 3, origin := 2, mask := arg j 6 2, nonExport := false, secret := key, pub := [],
                               bound := slice j.payload 0x50 64 }
          finish j .ok (leBytes 2 n ++ zeros 6) (fillSlot k s)

/-- A load reads the slot, or a MACsec SA uses it (R339). -/
def slotInUse (s : State) (n : Nat) : Bool :=
  s.mbx.jobs.any (fun j => j.phase == 2 &&
    ((j.opcode == 0x0502 && field j.payload 16 2 == n) || (j.opcode == 0x0503 && field j.payload 4 2 == n))) ||
  (list5 s.ports).any (fun p => (p.txSa ++ p.rxSa).any (·.slot == n))

/-- The checks that every command over one tenant slot makes (R332, R335): reserved fields and length, range, tenant. -/
def slotArg (j : Job) (n : Nat) : Option Status :=
  firstFail [
    (!lenIs j n || !zeroAt j.payload 2 6 || decide (255 < arg j 0 2), .badArg),
    (decide (arg j 0 2 < 64), .notPermitted)]

/-- KEY_DESTROY (0x0303, R339). -/
def execKeyDestroy (mb : MbId) (s : State) : Out :=
  .next <| onNewJob mb 0x0303 s fun j =>
    match slotArg j 8 with
    | some st => answer j st s
    | none =>
      if (slotAt s (arg j 0 2)).isNone then answer j .badArg s
      else if slotInUse s (arg j 0 2) then answer j .notIdle s
      else answer j .ok (clearSlots (fun n => n == arg j 0 2) s)

/-- KEY_SLOT_STATUS (0x0304). -/
def execKeySlotStatus (mb : MbId) (s : State) : Out :=
  .next <| onNewJob mb 0x0304 s fun j =>
    match slotArg j 8 with
    | some st => answer j st s
    | none =>
      match slotAt s (arg j 0 2) with
      | none => finish j .ok (zeros 72) s
      | some k =>
        finish j .ok ([1] ++ leBytes 1 k.type ++ leBytes 1 k.origin ++ leBytes 1 (b2n k.nonExport) ++ leBytes 2 k.mask ++
          zeros 2 ++ keyDigest k) s

/-- KEY_ORIGIN_STATEMENT on its job (R340): the record of Table 17-6, signed by the identity key. -/
def keyOrigin (j : Job) (s : State) : State :=
  match slotArg j 40 with
  | some st => answer j st s
  | none =>
    match slotAt s (arg j 0 2) with
    | none => answer j .badArg s
    | some k =>
      if k.type = 3 then answer j .badArg s
      else match slotAt s 0 with
      | none => s
      | some id =>
        if !drbgGrants 1 3 s then waitJob j 0 s
        else
          let body := leBytes 4 0x4F4B584F ++ leBytes 2 1 ++ leBytes 2 k.slot ++ leBytes 1 k.type ++ leBytes 1 k.origin ++
            leBytes 1 (b2n k.nonExport) ++ leBytes 1 (reportedState s) ++ leBytes 2 k.mask ++ zeros 2 ++
            leBytes 4 s.backup.resetCount ++ zeros 12 ++ slice j.payload 8 32 ++ keyDigest k ++ identityDigest s
          let r := signWith id body s
          finish j .ok (body ++ r.1 ++ zeros 13) r.2

/-- KEY_ORIGIN_STATEMENT (0x0305, R340). -/
def execKeyOriginStatement (mb : MbId) (s : State) : Out := .next (onJob mb 0x0305 s (fun j => keyOrigin j s))

/-- Lexicographic order of byte strings. -/
def bytesLe : Bytes → Bytes → Bool
  | [], _ => true
  | _ :: _, [] => false
  | a :: x, b :: y => if a = b then bytesLe x y else decide (a.toNat < b.toNat)

/-- Insert into a list in ascending byte order. -/
def insertBytes (b : Bytes) : List Bytes → List Bytes
  | [] => [b]
  | x :: xs => if bytesLe b x then b :: x :: xs else x :: insertBytes b xs

/-- The table of 64 digests in ascending byte order, unused entries 0. -/
def digestTable (l : List Bytes) : Bytes := fit 4096 (l.foldl (fun a b => insertBytes b a) []).flatten

/-- The FLAGS byte of the report. -/
def reportFlags (s : State) : Nat :=
  b2n (debugLive s) + 2 * b2n s.mbx.fallback + 4 * b2n (!s.backup.log.isEmpty)

/-- Bytes 0x0000 to 0x14FF of the attestation report (Table 17-7). -/
def reportBody (s : State) (nonce : Bytes) : Bytes :=
  let recv := (s.kst.slots.filter (fun k => bit k.mask 6)).map keyDigest
  [leBytes 4 0x5241584F, leBytes 2 1, leBytes 2 1, leBytes 1 (reportedState s), leBytes 1 (reportFlags s),
   leBytes 2 s.partId.toNat, leBytes 1 s.ctrlFw.counter, leBytes 1 s.secFw.counter, leBytes 2 s.pla.store.length,
   leBytes 4 s.backup.resetCount, zeros 12, fit 32 nonce, identityDigest s, attestDigest s, fit 64 s.ctrlFw.runDig,
   fit 64 s.secFw.runDig, (s.weights.elim (zeros 64) (·.digest)),
   (if s.life.ownerKey.isEmpty then zeros 64 else sha512 s.life.ownerKey),
   (list4 s.life.plateKeys).flatMap (fun k => if k.isEmpty then zeros 64 else sha512 k), fit 512 recv.flatten,
   digestTable (s.pla.store.map (·.digest)), leBytes 4 s.ctrlFw.runVer, leBytes 4 s.secFw.runVer, zeros 56].flatten

/-- ATTEST_REPORT on its job (R341): it waits for the attestation key (R330). -/
def attestReport (j : Job) (s : State) : State :=
  if !lenIs j 32 then answer j .badArg s
  else match slotAt s 1 with
  | none => if identityGone s then answer j .tamperLocked s else s
  | some k =>
    if !drbgGrants 1 3 s then waitJob j 0 s
    else
      let body := reportBody s j.payload
      let r := signWith k body s
      finish j .ok (body ++ r.1 ++ zeros 13) r.2

/-- ATTEST_REPORT (0x0306, R341). -/
def execAttestReport (mb : MbId) (s : State) : Out := .next (onJob mb 0x0306 s (fun j => attestReport j s))

/-- CERT_CHAIN_GET (0x0307, R331, R335). -/
def execCertChainGet (mb : MbId) (s : State) : Out :=
  .next <| onNewJob mb 0x0307 s fun j =>
    if !lenIs j 8 || decide (arg j 4 4 < 1) || decide (16312 < arg j 4 4) then answer j .badArg s
    else if !attestReady s then (if identityGone s then answer j .tamperLocked s else s)
    else if decide (s.kst.chain.length ≤ arg j 0 4) then answer j .badArg s
    else finish j .ok (leBytes 4 s.kst.chain.length ++ zeros 4 ++ slice s.kst.chain (arg j 0 4) (arg j 4 4)) s

/-- PLATE_KEY_ENROLL (0x0308, R343). -/
def execPlateKeyEnroll (mb : MbId) (sigOk : Bool) (s : State) : Out :=
  .next <| onNewJob mb 0x0308 s fun j =>
    let i := arg j 0 1
    let set := arg j 1 1 = 1
    let old := get4 s.life.plateKeys i
    match firstFail [
      (!lenIs j 7227 || decide (3 < i) || decide (1 < arg j 1 1) || arg j 2 2 != 0 || (!set && !zeroAt j.payload 8 2592), .badArg),
      (s.life.ownerKey.isEmpty, .notPermitted),
      (!sigOk, .signatureInvalid),
      (arg j 4 4 != s.life.enrolCount, .staleKey),
      (!old.isEmpty && s.pla.store.any (fun p => p.signer == sha512 old), .notIdle)] with
    | some st => answer j st s
    | none =>
      let key := if set then slice j.payload 8 2592 else []
      answer j .ok (modLife (fun l => { l with plateKeys := mod4 l.plateKeys i (fun _ => key), enrolCount := (l.enrolCount + 1) % 2 ^ 32 }) s)

/-! ## Weight images (R344, R345) -/

/-- Chunk `i` of an image's body decrypted: `n` plaintext bytes at body offset `off`. -/
def openChunk (key hdr body : Bytes) (i off n : Nat) (last : Bool) : Option Bytes :=
  gcmOpen key (leBytes 8 i ++ leBytes 4 (b2n last)) hdr (slice body off n) (slice body (off + n) 16)

/-- The chunks of an image of `total` plaintext bytes from chunk `i` on, decrypted in order (R344); none at the first tag that fails. -/
def openChunks (key hdr body : Bytes) (total : Nat) : Nat → Nat → Option Bytes
  | 0, _ => some []
  | fuel + 1, i =>
    let left := total - 4194304 * i
    match openChunk key hdr body i (4194320 * i) (min 4194304 left) (decide (left ≤ 4194304)) with
    | none => none
    | some pt => if left ≤ 4194304 then some pt else (openChunks key hdr body total fuel (i + 1)).map (pt ++ ·)

/-- What an image is before its chunks are read (R344), of `total` bytes in all: `PLAIN_LEN`, or why it fails. (DEDUCED: log entry 37) -/
def imageHeader (img : Bytes) (total : Nat) : Except (Status × Nat) Nat :=
  let n := field img 8 8
  if 16 ≤ total ∧ n < 256 then .error (.shapeUnsupported, 0xF0)
  else if total < 64 then .error (.weightAuthFail, 0)
  else if field img 0 4 != 0x4957584F || field img 4 2 != 1 || field img 6 2 != 0 || !zeroAt img 0x10 16 ||
      total != 64 + n + 16 * ((n + 4194303) / 4194304) then .error (.weightAuthFail, 0)
  else .ok n

/-- The image key of a content key (R344). -/
def imageKey (content img : Bytes) : Bytes := shake (content ++ slice img 0x20 32) 32

/-- The first chunk of an image, which holds the shape header. -/
def imageFirst (content img : Bytes) (n : Nat) : Option Bytes :=
  openChunk (imageKey content img) (img.take 64) (img.drop 64) 0 0 (min 4194304 n) (decide (n ≤ 4194304))

/-- A whole chunk in the part of an image that has been read fails its tag. -/
def imageTagBad (content img : Bytes) (n : Nat) : Bool :=
  let whole := if img.length < 64 + n + 16 * ((n + 4194303) / 4194304) then (img.length - 64) / 4194320 else (n + 4194303) / 4194304
  (openChunks (imageKey content img) (img.take 64) (img.drop 64) n whole 0).isNone

/-- The whole plaintext of an image. -/
def imagePlain (content img : Bytes) (n : Nat) : Option Bytes :=
  openChunks (imageKey content img) (img.take 64) (img.drop 64) n ((n + 4194303) / 4194304) 0

/-- A binding of the key to another digest (R345). -/
def boundElse (k : KeySlot) (digest : Bytes) : Bool := !allZero k.bound && k.bound != digest

end Sys2Proof.Machine
end

