-- ==== Sys2Proof/Machine/Links.lean ====
section
/-! DEFINITION. Links: routes and ring frames out of a port, go-back-N, handshakes, keys and rekeys, a link going down, and the
transmit side of MACsec (07_sequence_ring.md R137, R138, R154; 08_fault_recovery.md R167; 12_ports_and_links.md R232 to R244). -/

namespace Sys2Proof.Machine

/-! ## Cabling and routes -/

/-- Ports that a ring of `n` members uses (Table 7-1). -/
def ringPorts (n : Nat) : List Nat := if n ≤ 3 then [0, 1] else [0, 1, 2, 3]

/-- The member that a port faces (R137). -/
def facing (r : Ring) (port : Nat) : Nat :=
  let step := if port = 0 then 1 else if port = 1 then r.count - 1 else if port = 2 then 2 else r.count - 2
  (r.index + step) % r.count

/-- A module faces its +1 and +2 neighbours as the initiator of the handshake (R239). -/
def initiates (port : Nat) : Bool := port == 0 || port == 2

/-- The member that port `p` of member `i` faces. -/
def facingOf (n i p : Nat) : Nat :=
  (i + (if p = 0 then 1 else if p = 1 then n - 1 else if p = 2 then 2 else n - 2)) % n

/-- The cable on port `p` of member `i` of `n`, as one number for both its ends: by the member whose port 0 or 2 it leaves (R137, R162).
(DEDUCED: log entry 53) -/
def cableAt (n i p : Nat) : Nat := if initiates p then 2 * i + p / 2 else 2 * facingOf n i p + p / 2

/-- The ring has re-formed: a member has failed or a link is lost, and R167 routes it. A ring whose failed members have all been replaced, with no lost
link, is whole again and R154 routes it. (DESIGN CHOICE: log entry 84) -/
def reformed (r : Ring) : Bool := popcount r.alive != r.count || !r.lostLinks.isEmpty

/-- The port that member `i` of the ring sends on by R154 toward `dest`, and the hops to go. -/
def formationHop (n i dest : Nat) : Nat × Nat :=
  let plus := (dest + n - i) % n
  let minus := n - plus
  let two := decide (4 ≤ n)
  let hops := fun (d : Nat) => if two then (d + 1) / 2 else d
  if plus ≤ minus then (if two && decide (2 ≤ plus) then 2 else 0, hops plus)
  else (if two && decide (2 ≤ minus) then 3 else 1, hops minus)

/-- Hops from every member to `dest` over alive members and working links: one round of relaxation. -/
def relax (r : Ring) (dist : List (Option Nat)) : List (Option Nat) :=
  (List.range r.count).map (fun i =>
    let near := (ringPorts r.count).filterMap (fun p =>
      let j := facingOf r.count i p
      if r.alive.getLsbD j && r.alive.getLsbD i && !r.lostLinks.contains (cableAt r.count i p) then (dist.getD j none).map (· + 1) else none)
    match dist.getD i none, near with
    | some d, _ => some d
    | none, [] => none
    | none, x :: xs => some (xs.foldl min x))

/-- Hops from every member to `dest` (R167). -/
def hopsTo (r : Ring) (dest : Nat) : List (Option Nat) :=
  Nat.repeat (relax r) r.count ((List.range r.count).map (fun i => if i = dest then some 0 else none))

/-- The port and hop count of a frame from this member to `dest` under a view (R154, R167): among equal paths first the + direction, then
the lower index of the first hop. -/
def routeTo (r : Ring) (dest : Nat) : Option (Nat × Nat) :=
  if !reformed r then some (formationHop r.count r.index dest)
  else
    let dist := hopsTo r dest
    let opts := (ringPorts r.count).filterMap (fun p =>
      let j := facing r p
      if r.alive.getLsbD j && !r.lostLinks.contains (cableAt r.count r.index p) then
        (dist.getD j none).map (fun d => ((d + 1) * 128 + (if initiates p then 0 else 64) + j, p, d + 1))
      else none)
    match opts with
    | [] => none
    | x :: xs => let b := xs.foldl (fun a y => if y.1 < a.1 then y else a) x; some (b.2.1, b.2.2)

/-- The routes of a view, computed when it is installed (R165, R167). -/
def setRoutes (r : Ring) : Ring := { r with routes := (List.range r.count).map (routeTo r) }

/-- The port and hop count toward `dest` in the installed view (R167). -/
def route (r : Ring) (dest : Nat) : Option (Nat × Nat) := r.routes.getD dest none

/-- The members of a mask, rising. -/
def membersOf (m : BitVec 32) : List Nat := bitList 32 m

/-! ## Keys of a ring link (R239, R241) -/

/-- The key-store slot of a port's key: direction 0 transmit, 1 receive; current or next (Table 17-2). (DEDUCED: log entry 36) -/
def linkSlot (port dir : Nat) (next : Bool) : Nat := 8 + 4 * port + 2 * dir + b2n next

/-- A link key in its slot. -/
def linkKey (slot : Nat) (key : Bytes) : KeySlot :=
  { slot := slot, type := 3, origin := 1, mask := 2, nonExport := true, secret := key, pub := [], bound := [] }

/-- Destroy every key of a port. -/
def dropLinkKeys (port : Nat) (s : State) : State := clearSlots (fun n => decide (8 + 4 * port ≤ n ∧ n < 12 + 4 * port)) s

/-- The ring-parameter digest of R140 step 5. (DEDUCED: log entry 53) -/
def ringDigest (r : Ring) : Bytes := sha512 r.params

/-- What a handshake message carries under its signature (R239): the initiator's also the ring-parameter digest. (DEDUCED: log entry 53) -/
def hsBody (initiator : Bool) (h : Handshake) : Bytes := h.kem ++ h.nonce ++ h.chain ++ (if initiator then h.ringDigest else [])

/-- What a handshake message contributes to the transcript (R239). (DEDUCED: log entry 53) -/
def hsBytes (initiator : Bool) (h : Handshake) : Bytes := hsBody initiator h ++ h.sig

/-- Sign a handshake message with the identity key, over the transcript before it and its own contents (R239). -/
def hsSign (initiator : Bool) (before : Bytes) (h : Handshake) (s : State) : Handshake × State :=
  match slotAt s 0 with
  | some k => let r := signWith k (before ++ hsBody initiator h) s; ({ h with sig := r.1 }, r.2)
  | none => (h, s)

/-- The initiator's first message, or a wait for the generator (R239 step 1): the key pair, the nonce and the signature are three requests. -/
def startHandshake (port : Nat) (s : State) : State :=
  match s.ring with
  | none => s
  | some r =>
    if !drbgReady 3 s then modPort port (fun p => { p with hs := { p.hs with phase := 3 } }) s
    else
      let k := drbgTake 64 s
      let n := drbgTake 32 k.2
      let h : Handshake := { sigOk := true, decapOk := true, identity := identityDigest s, ringDigest := ringDigest r, chain := s.kst.chain, sig := []
                             kem := bvBytes 1568 (Config.mlkemPub k.1), nonce := n.1 }
      let m := hsSign true [] h n.2
      modPort port (fun p => { p with hs := { phase := 1, dk := k.1, sentInit := hsBytes true m.1 } }) (emit (.handshake port true m.1) m.2)

/-- The keys and LINK_IDs of a handshake (R239 step 4): initiator's key, responder's key, and their LINK_IDs. -/
def hsKeys (ss transcript : Bytes) : Bytes × Bytes × Nat × Nat :=
  let o := shake (ss ++ sha512 transcript) 72
  (slice o 0 32, slice o 32 32, field o 64 4, field o 68 4)

/-- A handshake's result must be repeated: a LINK_ID is 0, or the two are equal (R239 step 4). -/
def idsBad (k : Bytes × Bytes × Nat × Nat) : Bool := k.2.2.1 == 0 || k.2.2.2 == 0 || k.2.2.1 == k.2.2.2

/-- Install the first keys of a link: both directions keyed, counters 0. -/
def installKeys (port : Nat) (tx rx : Bytes) (txId rxId : Nat) (s : State) : State :=
  let s := fillSlot (linkKey (linkSlot port 0 false) tx) (fillSlot (linkKey (linkSlot port 1 false) rx) s)
  modPort port (fun p => { p with keyed := true, txId := txId, rxId := rxId, txCtr := 0, rxNext := 0, replay := [], resends := [],
                                  nakOut := false, keyNext := false, hs := {} }) s

/-- Keep new keys until each direction switches (R241). -/
def holdKeys (port : Nat) (tx rx : Bytes) (txId rxId : Nat) (s : State) : State :=
  let s := fillSlot (linkKey (linkSlot port 0 true) tx) (fillSlot (linkKey (linkSlot port 1 true) rx) s)
  modPort port (fun p => { p with hs := { phase := 2, txKey := tx, rxKey := rx, txId := txId, rxId := rxId } }) s

/-- A rekey begins: the initiator runs a new handshake; the other end asks it to (R241). How it asks is the model's: with a first message that carries
nothing, which the initiating end never gets otherwise. (DESIGN CHOICE: log entry 52) -/
def beginRekey (port : Nat) (s : State) : State :=
  if initiates port then startHandshake port s
  else emit (.rekeyAsk port) (modPort port (fun p => { p with hs := { p.hs with phase := 4 } }) s)

/-! ## A link goes down (R243, R141) -/

/-- The ring loses a neighbour link while no session is open on it: BROKEN, with an event (R141). -/
def ringBroken (port : Nat) (s : State) : State :=
  match s.ring with
  | none => s
  | some r =>
    if r.state != 1 && r.ports.contains port && s.dec.all (fun d => d.ring == 0) && r.state != 4 then
      postEvent 0x0601 2 port (r.id % 2 ^ 32) (modRing (fun r => { r with state := 4 }) s)
    else s

/-- LINK_DOWN (R243): a link that was up goes down for a reason of Table 12-5. -/
def linkGoesDown (port reason : Nat) (s : State) : State :=
  let p := get5 s.ports port
  if !p.up then s
  else
    let s := modPort port (fun p => { p with up := false, keyed := false, lock := 0, reason := reason, sticky := setBit p.sticky 1,
                                             xoffIn := false }) s
    let s := postEvent 0x0901 2 (pack [(port, 8), (reason, 8)]) 0 s
    if p.mode = 2 then
      let s := modPort port (fun p => { p with replay := [], resends := [], ringQ := [], txCtr := 0, rxNext := 0, txId := 0, rxId := 0, hs := {}, keyNext := false,
                                               formed := 0 }) s
      ringBroken port (dropLinkKeys port s)
    else s

/-- A ring port returns to network mode, in electrical idle until `PORT_SET` (R140, R142, R242). (DEDUCED: log entry 52) -/
def releasePort (reason : Nat) (port : Nat) (s : State) : State :=
  let s := linkGoesDown port reason s
  modPort port (fun p => { p with mode := 0, rate := 0, an := false, up := false, keyed := false, lock := 0, optOff := true, everUp := false,
                                  replay := [], resends := [], ringQ := [], hs := {}, formed := 0, xoffIn := false, xoffOut := false })
    (modBuf (fun b => { b with shares := mod5 b.shares port (fun x => { x with fragments := [], cells := 0, asserted := false }) }) (dropLinkKeys port s))

/-- The codewords that a port's FEC has seen while it was up are counted (Table 12-7). (DEDUCED: log entry 59) -/
def countFec (port : Nat) (cw : Codewords) (s : State) : State :=
  modPort port (fun p =>
    if !p.up then p
    else { p with fecCorr := satAdd 32 p.fecCorr cw.corrected, fecUncorr := satAdd 32 p.fecUncorr cw.failed
                  sticky := if cw.failed = 0 then p.sticky else setBit p.sticky 2 }) s

/-! ## Sending on a ring link (R236 to R241) -/

/-- Bytes of a frame on the link (R241's worked example). -/
def frameBytes (f : RingFrame) : Nat := 48 + f.payload.length + 16 + 8

/-- The ACK field that a port sends: the highest counter received in order and accepted; before the first, the spec gives no value
(notes/assumptions 3). -/
def ackField (s : State) (p : Port) : Nat := if p.rxNext = 0 then Config.freeNat s.draw % 2 ^ 48 else (p.rxNext - 1) % 2 ^ 48

/-- The delimiter that a port sends now (Table 12-3): before the frame of counter `ctr`, or alone. The first frame under a new key is announced,
as often as it is sent (R237, R241). -/
def delimiterOf (s : State) (port : Nat) (frame : Bool) (ctr : Nat := 0) : Delimiter :=
  let p := get5 s.ports port
  { ack := ackField s p, keyNext := frame && p.keyNext && ctr == 0, nak := p.nakOut, xoff := p.xoffOut, frame := frame }

/-- The 64 bits of a delimiter (Table 12-3). -/
def delimiterWord (d : Delimiter) : BitVec 64 :=
  BitVec.ofNat 64 (d.ack * 2 ^ 16 + 8 * b2n d.keyNext + 4 * b2n d.nak + 2 * b2n d.xoff + b2n d.frame)

/-- The 48 bytes of a frame's header (Table 7-6). -/
def frameHeader (f : RingFrame) : Bytes :=
  leBytes 1 f.type ++ leBytes 1 f.dest ++ leBytes 1 f.src ++ leBytes 1 f.hopsLeft ++ leBytes 4 f.linkId ++ leBytes 8 f.frameCtr ++
    leBytes 12 (nameBits f.name) ++ leBytes 4 f.datumLen ++ leBytes 4 f.offset ++ leBytes 2 f.payload.length ++ zeros 10

/-- A frame as the link carries it (R152, R240): its header, the payload encrypted under the nonce of header bytes 0x04 to 0x0F, and the tag. -/
def sealFrame (key : Bytes) (f : RingFrame) : Bytes :=
  let h := frameHeader f
  let c := gcmSeal key (slice h 4 12) h f.payload
  h ++ c.1 ++ c.2

/-- The bytes of each of a port's four lanes: unit u of 64 bytes goes to lane u mod 4 (R236). -/
def stripe (b : Bytes) : List Bytes :=
  let us := (chunksOf 64 b.length b).zipIdx
  (List.range 4).map (fun k => (us.filter (fun u => u.2 % 4 == k)).flatMap (·.1))

/-- A delimiter goes out (R236). -/
def emitDelimiter (port : Nat) (d : Delimiter) (s : State) : State := emit (.delimiter port d (delimiterWord d)) s

/-- A frame goes out whole, after its delimiter, striped over the port's lanes (R236, R240). -/
def emitFrame (port : Nat) (f : RingFrame) (s : State) : State :=
  let key := ((slotAt s (linkSlot port 0 false)).map (·.secret)).getD []
  emit (.ringFrame port f (stripe (sealFrame key f))) (emitDelimiter port (delimiterOf s port true f.frameCtr) s)

/-- The peer's pause holds a frame back: TYPE 1 and 3 (R238). -/
def pausedFrame (p : Port) (type : Nat) : Bool := p.xoffIn && (type == 1 || type == 3)

/-- A port may send a new frame of this type and payload length: up and keyed, not draining for a rekey, not paused for it, room in the
2 MiB replay buffer, below the frame counter limit (R237, R238, R241). -/
def canSend (s : State) (port type len : Nat) : Bool :=
  let p := get5 s.ports port
  p.mode == 2 && p.up && p.keyed && p.hs.phase != 2 && !pausedFrame p type &&
    decide (sumNat (p.replay.map frameBytes) + (72 + len) ≤ 2097152) && decide (p.txCtr < 2 ^ 41)

/-- Send a new frame on a port: it takes the next FRAME_CTR and stays in the replay buffer until it is acknowledged. (DESIGN CHOICE: log entry 76) -/
def sendOn (port : Nat) (f : RingFrame) (s : State) : State :=
  let p := get5 s.ports port
  let f := { f with linkId := p.txId, frameCtr := p.txCtr }
  let s := emitFrame port f s
  modPort port (fun p => { p with txCtr := p.txCtr + 1, replay := p.replay ++ [f], resends := p.resends ++ [0] }) { s with draw := s.draw + 1 }

/-- R241 after a new frame: a direction whose FRAME_CTR has reached 2^40 asks for a rekey, and one that has reached 2^41 takes its
link down with reason 7. -/
def ctrLimits (port : Nat) (s : State) : State :=
  let p := get5 s.ports port
  if p.txCtr = 2 ^ 41 then linkGoesDown port 7 s
  else if p.txCtr = 2 ^ 40 && p.hs.phase = 0 then beginRekey port s
  else s

/-- The frame that a port sends next: the oldest that the peer has not paused (R238); a stretch copy only when no other frame waits (R169). -/
def nextFrame (p : Port) : Option RingFrame :=
  match p.ringQ.find? (fun f => f.type != 3 && !pausedFrame p f.type) with
  | some f => some f
  | none => if p.ringQ.all (·.type == 3) then p.ringQ.find? (fun f => !pausedFrame p f.type) else none

/-- Send what waits on a port, as far as it may go. `fuel` is the number of waiting frames. -/
def pump (port : Nat) : Nat → State → State
  | 0, s => s
  | fuel + 1, s =>
    let p := get5 s.ports port
    match nextFrame p with
    | none => s
    | some f =>
      if canSend s port f.type f.payload.length then
        pump port fuel (ctrLimits port (sendOn port f (modPort port (fun p => { p with ringQ := p.ringQ.erase f }) s)))
      else s

/-- Send what waits on a port. -/
def pumpAll (port : Nat) (s : State) : State := pump port (get5 s.ports port).ringQ.length s

/-- Hand a frame to the port of its route: it waits there when the port may not send it now. -/
def sendFrame (dest : Nat) (f : RingFrame) (s : State) : State :=
  match s.ring.bind (fun r => route r dest) with
  | none => s
  | some (port, hops) =>
    let f := if f.hopsLeft = 0 then { f with hopsLeft := hops } else f
    pumpAll port (modPort port (fun p => { p with ringQ := p.ringQ ++ [f] }) s)

/-- A new frame of this member. -/
def newFrame (type dest src : Nat) (name : DatumName) (len off : Nat) (payload : Bytes) : RingFrame :=
  { type := type, dest := dest, src := src, hopsLeft := 0, linkId := 0, frameCtr := 0, name := name, datumLen := len, offset := off,
    payload := payload, tagOk := true, bad := [] }

/-- Send named bytes to a member in frames of a type, in fragments of at most 8,192 bytes (Table 7-6). (DEDUCED: log entry 54) -/
def sendPieces (type dest : Nat) (name : DatumName) (bytes : Bytes) (s : State) : State :=
  match s.ring with
  | none => s
  | some r =>
    ((chunksOf 8192 (bytes.length + 1) bytes).zipIdx).foldl
      (fun st x => sendFrame dest (newFrame type dest r.index name bytes.length (8192 * x.2) x.1) st) s

/-- Send a datum to a member. -/
def sendDatum (dest : Nat) (name : DatumName) (bytes : Bytes) (s : State) : State := sendPieces 1 dest name bytes s

/-- The name of no datum, in control and keepalive frames. -/
def noName : DatumName := ⟨0, 0, 0, 0, 0⟩

/-- The other members that are alive. -/
def others (r : Ring) : List Nat := (membersOf r.alive).filter (· != r.index)

/-- The payload of a control frame: what it says, and its fields. The spec lays out none. (DESIGN CHOICE: log entry 54) -/
def controlBytes : RingCtl → Bytes
  | .suspicion m c => leBytes 1 1 ++ leBytes 1 m ++ leBytes 1 (c.getD 0xFF)
  | .selfReport m => leBytes 1 2 ++ leBytes 1 m
  | .view v => leBytes 1 3 ++ leBytes 1 v.src ++ leBytes 1 v.epoch ++ leBytes 4 v.alive.toNat ++ leBytes 4 v.lastStep ++
      v.digests.flatMap (fun d => leBytes 1 d.1 ++ bvBytes 8 d.2)
  | .keepalive stroke epoch state => leBytes 8 stroke ++ leBytes 1 epoch ++ leBytes 1 state
  | .digest m v => leBytes 1 4 ++ leBytes 1 m ++ bvBytes 8 v
  | .stretchCopy a n => leBytes 1 5 ++ leBytes 4 a ++ leBytes 4 n
  | .openDigest v => leBytes 1 6 ++ bvBytes 64 v
  | .parameters v => leBytes 1 7 ++ bvBytes 64 v

/-- A control frame (TYPE 2) to a member, with the output beside it that tells what it says. (DEDUCED: log entry 54) -/
def sendControl (dest : Nat) (c : RingCtl) (s : State) : State :=
  match s.ring with
  | none => s
  | some r => sendFrame dest (newFrame 2 dest r.index noName (controlBytes c).length 0 (controlBytes c)) (emit (.control dest c) s)

/-- A control frame to every other alive member (R161, R163). -/
def controlAll (c : RingCtl) (s : State) : State :=
  match s.ring with
  | none => s
  | some r => (others r).foldl (fun st i => sendControl i c st) s

/-! ## Reassembly shares (R47, R282, R284, R290) -/

/-- Cells of a reassembly share (R286, Table 14-7). -/
def shareCells (s : State) : Nat := s.buf.ringShare * 4096

/-- The signal of a reassembly share after its occupancy has changed, and the port's XOFF (R282, R290). -/
def shareSignal (port : Nat) (s : State) : State :=
  let cap := shareCells s
  let x := get5 s.buf.shares port
  let on := if cap - 2048 ≤ x.cells then true else if x.cells ≤ cap / 2 then false else x.asserted
  let s := modBuf (fun b => { b with shares := mod5 b.shares port (fun x =>
    { x with asserted := on, xoffCnt := if on && !x.asserted then sat x.xoffCnt else x.xoffCnt }) }) s
  modPort port (fun p => { p with xoffOut := on }) s

/-- Change the cells that a share holds. -/
def modCells (port : Nat) (f : Nat → Nat) (s : State) : State :=
  modBuf (fun b => { b with shares := mod5 b.shares port (fun x => { x with cells := f x.cells }) }) s

/-- An open frame of `k` cells is written to a share and rewound: its cells count toward the signal while it is open (R282, R283). -/
def rewindFrame (port k : Nat) (s : State) : State := shareSignal port (modCells port (· - k) (shareSignal port (modCells port (· + k) s)))

/-- Cells of a stored fragment. -/
def fragCells (payload : Bytes) : Nat := (payload.length + 255) / 256

/-- The stored fragments of a datum, over every port. -/
def fragments (s : State) (n : DatumName) : List (Nat × Bytes × Nat) :=
  ((list5 s.buf.shares).flatMap (·.fragments)).filterMap (fun f => if f.1 = n then some f.2 else none)

/-- The fragments that `p` picks leave every share, whose cells are free again (R47, R284). -/
def freeWhere (p : DatumName → Bool) (s : State) : State :=
  (List.range 5).foldl (fun st port =>
    let gone := (get5 st.buf.shares port).fragments.filter (fun f => p f.1)
    if gone.isEmpty then st
    else shareSignal port (modBuf (fun b => { b with shares := mod5 b.shares port (fun x =>
      { x with fragments := x.fragments.filter (fun f => !p f.1), cells := x.cells - sumNat (gone.map (fun f => fragCells f.2.2.1)) }) }) st)) s

/-- The data that `p` picks leave, with what the shares hold of them. -/
def dropData (p : Datum → Bool) (s : State) : State :=
  let gone := (s.prs.data.filter p).map (·.name)
  freeWhere gone.contains (modPrs (fun q => { q with data := q.data.filter (fun x => !p x) }) s)

/-! ## The transmit side of a network port (R233, R234) -/

/-- The transmit SA in use: the oldest installed one that can still number a frame (R234). (PRESUMED: log entry 60) -/
def txSaOf (p : Port) : Option Sa := p.txSa.find? (fun a => decide (a.pn < 2 ^ 64 - 1))

/-- A network port transmits data frames: up, in network mode, an SA in each direction, one of them able to number (R233, R234).
(PRESUMED: log entry 60) -/
def netReady (p : Port) : Bool := p.mode == 1 && p.up && !p.txSa.isEmpty && !p.rxSa.isEmpty && (txSaOf p).isSome

/-- KEYED of a network port after its SAs have changed, or its link has come up: both directions hold one (R243, Table 12-7). -/
def saKeyed (p : Port) : Port := { p with keyed := !p.txSa.isEmpty && !p.rxSa.isEmpty }

/-- The connection that a message belongs to, by its own queue pair number. -/
def outQpn : RoceOut → Nat
  | .ack q _ => q
  | .ackStatus q _ _ => q
  | .nakSequence q _ => q
  | .nakRnr q _ _ => q
  | .nak q _ _ => q
  | .readResponse q _ _ => q
  | .cnp q => q
  | .request q _ _ _ _ _ _ _ _ => q
  | .resend q _ => q

/-- The priority of a message: its connection's. -/
def outPriority (s : State) (m : RoceOut) : Nat := (s.rdm.conns.find? (·.qpn == outQpn m)).elim 0 (·.priority)

/-- The transmit packet number of an SA has moved to `pn`: at 0xC000_0000_0000_0000 the warning is raised (R234). (DEDUCED: log entry 59) -/
def pnWarn (port an : Nat) (s : State) : State :=
  postEvent 0x0902 1 (pack [(port, 8), (an, 8)]) 0 (modPort port (fun p => { p with sticky := setBit p.sticky 3 }) s)

/-- The IV of a frame under GCM-AES-XPN-256: the SSCI and the packet number, both big-endian, exclusive-or the salt (R232). (PRESUMED: log entry 60) -/
def xpnIv (a : Sa) : Bytes := List.zipWith (· ^^^ ·) ((leBytes 4 a.ssci).reverse ++ (leBytes 8 a.pn).reverse) a.salt

/-- The 16 bytes of a SecTAG with its SCI, for `n` bytes of data: EtherType, the flags SC, E and C with the association number, the length where it is
below 48, the low half of the packet number, the SCI (R232). (PRESUMED: log entry 60) -/
def secTagBytes (a : Sa) (n : Nat) : Bytes :=
  [0x88, 0xE5] ++ leBytes 1 (0x2C + a.an) ++ leBytes 1 (if n < 48 then n else 0) ++ beBytes 4 (a.pn % 2 ^ 32) ++ beBytes 8 a.sci

/-- The next frame of an SA: GCM-AES-XPN-256 under the key of its slot, with confidentiality offset 0 (R232, R234). -/
def secTag (port : Nat) (m : RoceOut) (a : Sa) (s : State) : SecTag :=
  let b := Config.roceFrame m
  let e := gcmSeal ((slotAt s a.slot).elim [] (·.secret)) (xpnIv a) (bvBytes 12 (Config.macAddresses port) ++ secTagBytes a b.length) b
  { an := a.an, pn := a.pn, sci := a.sci, iv := xpnIv a, data := e.1, icv := e.2 }

/-- Send one frame under the SA in use. (DESIGN CHOICE: log entry 76) -/
def netFrame (port : Nat) (m : RoceOut) (a : Sa) (s : State) : State :=
  let s := emit (.roce port m) (modPort port (fun p => { p with txSa := updWhere (·.an == a.an) (fun x => { x with pn := x.pn + 1 }) p.txSa }) (emit (.macsec port (secTag port m a s)) s))
  if a.pn + 1 = 0xC000000000000000 then pnWarn port a.an s else s

/-- Send what waits in a network port, frame by frame, in order; a frame of a paused priority waits (R231). -/
def netPump (port : Nat) : List RoceOut → State → State
  | [], s => s
  | m :: ms, s =>
    let p := get5 s.ports port
    match txSaOf p with
    | some a =>
      if netReady p && !p.paused.getLsbD (outPriority s m) then netPump port ms (netFrame port m a s)
      else netPump port ms (modPort port (fun p => { p with waiting := p.waiting ++ [m] }) s)
    | none => netPump port ms (modPort port (fun p => { p with waiting := p.waiting ++ [m] }) s)

/-- Send what waits in a network port. -/
def netFlush (port : Nat) (s : State) : State :=
  netPump port (get5 s.ports port).waiting (modPort port (fun p => { p with waiting := [] }) s)

/-- The frames of a connection that wait in a port are dropped (R254). -/
def netDrop (port qpn : Nat) (s : State) : State :=
  modPort port (fun p => { p with waiting := p.waiting.filter (fun m => outQpn m != qpn) }) s

/-- Hand frames to a network port (R233, R234). (DESIGN CHOICE: log entry 76) -/
def netSend (port : Nat) (ms : List RoceOut) (s : State) : State :=
  netFlush port (modPort port (fun p => { p with waiting := p.waiting ++ ms }) s)

end Sys2Proof.Machine
end

