-- ==== Sys2Proof/Machine/Merge.lean ====
section
/-! DEFINITION. The merge across members (07_sequence_ring.md R145 to R153): held nodes and frontiers, empty nodes, who merges which head,
the names and payloads of partials and merged outputs, and a step's layers over what the ring exchange delivers. -/

namespace Sys2Proof.Machine

/-- The blocks of a ring, 0 to C − 1 (R144). -/
def ringBlocks (r : Ring) : Nat := r.count * r.blocks

/-- Member `i` holds block `b` for attention, initially or by promotion (R148, R168). -/
def holdsBlock (r : Ring) (i b : Nat) : Bool := decide (b < ringBlocks r) && r.holders.getD (b / r.blocks) 32 == i

/-- The blocks below C in the span of N(l, j). -/
def spanBlocks (r : Ring) (l j : Nat) : List Nat := ((List.range (2 ^ l)).map (fun b => j * 2 ^ l + b)).filter (fun b => decide (b < ringBlocks r))

/-- Member `i` holds N(l, j) (R148). -/
def holdsNode (r : Ring) (i l j : Nat) : Bool := !(spanBlocks r l j).isEmpty && (spanBlocks r l j).all (holdsBlock r i)

/-- The frontier of member `i` (R148): the nodes it holds whose parent it does not hold, in ascending order of first block. -/
def frontier (r : Ring) (i : Nat) : List (Nat × Nat) :=
  (List.range (ringBlocks r)).flatMap (fun b => (List.range 11).filterMap (fun l =>
    let j := b / 2 ^ l
    if b % 2 ^ l = 0 && holdsNode r i l j && (l == 10 || !holdsNode r i (l + 1) (j / 2)) then some (l, j) else none))

/-- N(l, j) is empty for every query node when the highest query position is `hi` (R149). -/
def emptyNode (hi : Nat) (n : Nat × Nat) : Bool := decide (hi < 4096 * (n.2 * 2 ^ n.1))

/-- The frontier nodes that member `i` sends, each with its ordinal (R149, Table 7-7). -/
def sentNodes (r : Ring) (hi i : Nat) : List ((Nat × Nat) × Nat) := (frontier r i).zipIdx.filter (fun n => !emptyNode hi n.1)

/-- The member that merges query head `j`: by rank among the alive (R150). -/
def mergerOf (r : Ring) (j : Nat) : Nat := let a := membersOf r.alive; a.getD (j % a.length) 32

/-- The heads that member `i` merges, of `H` (R150). -/
def headsFor (r : Ring) (H i : Nat) : List Nat := (List.range H).filter (fun j => mergerOf r j == i)

/-- The ring is shared by more than one alive member: attention is merged across members. -/
def ringShared (r : Ring) : Bool := decide (2 ≤ popcount r.alive)

/-! ## Names and payloads (R153) -/

/-- Session stroke in which layer `l` of a step or chunk invoked at `S` publishes its partials, and the one of its outputs (Table 6-4). -/
def partialStroke (S l : Nat) : Nat := S + 11 + 2 * l
def outputStroke (S l : Nat) : Nat := S + 12 + 2 * l

/-- The name of member `i`'s partial of ordinal `ord` for merger `t`. -/
def partialName (r : Ring) (S l i t ord : Nat) : DatumName :=
  { stroke := partialStroke S l, member := i, unit := 546, epoch := r.epoch, slot := 2 * 2 ^ 14 + t * 2 ^ 9 + ord * 2 ^ 4 }

/-- The name of member `i`'s merged u of layer `l`. -/
def outputName (r : Ring) (S l i : Nat) : DatumName :=
  { stroke := outputStroke S l, member := i, unit := 546, epoch := r.epoch, slot := 3 * 2 ^ 14 }

/-- FP32 words as they lie in a payload. -/
def wordBytes (l : List F32) : Bytes := l.flatMap (fun x => leBytes 4 x.toNat)

/-- m, s and o of a partial; the empty partial is (−Inf, +0, +0) (R94). -/
def partialBytes (hd : Nat) : Option Partial → Bytes
  | none => wordBytes (negInf :: 0 :: List.replicate hd 0)
  | some p => wordBytes (p.m :: p.s :: p.o)

/-- The partial at an offset of a payload. -/
def partialFrom (hd : Nat) (b : Bytes) (off : Nat) : Option Partial :=
  let m := f32At b off
  if m = negInf then none else some { m := m, s := f32At b (off + 4), o := f32s b (off + 8) hd }

/-! ## The tree over what members publish (R148, R150, R151) -/

/-- N(l, j) below block `C`: as `given` gives it, a leaf, or the merge of its children; absent from C on. -/
def blockNode (C : Nat) (given : Nat → Nat → Option (Option Partial)) (leaf : Nat → Option Partial) : Nat → Nat → Option Partial
  | 0, j => if C ≤ j then none else (given 0 j).getD (leaf j)
  | l + 1, j =>
    if C ≤ j * 2 ^ (l + 1) then none
    else match given (l + 1) j with
    | some p => p
    | none => combine mergePartial (blockNode C given leaf l (2 * j)) (blockNode C given leaf l (2 * j + 1))

/-- A step or chunk of a ring: its invocation stroke, its query nodes and their highest position, and the ring data it has read. -/
structure Exchange where
  S     : Nat
  nodes : List QNode
  hi    : Nat
  data  : List (DatumName × Bytes)

/-- The bytes of a ring datum that the step has read. -/
def Exchange.get (x : Exchange) (n : DatumName) : Bytes := ((x.data.find? (·.1 == n)).map (·.2)).getD []

/-- What another member's frontier gives this merger for N(l, j), node `i` and its `k`-th head of layer `ly` (R149, R150 step 2). -/
def givenNode (r : Ring) (x : Exchange) (H hd ly i k l j : Nat) : Option (Option Partial) :=
  ((membersOf r.alive).filter (· != r.index)).findSome? (fun m =>
    (frontier r m).zipIdx.findSome? (fun n =>
      if n.1 != (l, j) then none
      else if emptyNode x.hi n.1 then some none
      else some (partialFrom hd (x.get (partialName r x.S ly m r.index n.2)) ((i * (headsFor r H r.index).length + k) * (8 + 4 * hd)))))

/-- u of the heads that this member merges, for one node of a layer (R150 step 2). -/
def mergedHeads (w : Bytes) (s : Shape) (r : Ring) (x : Exchange) (ly i : Nat) (inc : List (Nat × KvRows)) (qs : List (List F32)) : List (List F32) :=
  (headsFor r s.heads r.index).zipIdx.map (fun h =>
    headOut w s ly h.1 (rootOut s.hd (blockNode (ringBlocks r) (givenNode r x s.heads s.hd ly i h.2)
      (blockLeaf w s ly inc (qs.getD h.1 []) h.1) 10 0)))

/-- u of every head of one node of a layer: this member's own, and what the other mergers have sent (R150 step 3). -/
def sharedHeads (w : Bytes) (s : Shape) (r : Ring) (x : Exchange) (ly i : Nat) (inc : List (Nat × KvRows)) (qs : List (List F32)) : List F32 :=
  let own := mergedHeads w s r x ly i inc qs
  (List.range s.heads).flatMap (fun j =>
    let m := mergerOf r j
    let hs := headsFor r s.heads m
    let k := hs.idxOf j
    if m = r.index then own.getD k [] else f32s (x.get (outputName r x.S ly m)) (4 * s.hd * (i * hs.length + k)) s.hd)

/-- The layers of a step of the ring, up to `n` of them, over the committed positions `ctx` that this member holds (R145). -/
def sharedRun (w : Bytes) (r : Ring) (x : Exchange) (ctx : List (Nat × KvRows)) (n : Nat) : NodeRun :=
  let s := shapeOf w
  layersRun w s x.nodes (fun ly qs kvs => qs.zipIdx.map (fun q => sharedHeads w s r x ly q.2 (included s ctx x.nodes kvs q.2) q.1)) n 0
    (embedAll w s x.nodes)

/-- The payloads that this member sends for layer `ly`, in the order of `partialNames` (R150 step 1, R153). -/
def partialPayloads (w : Bytes) (r : Ring) (x : Exchange) (ctx : List (Nat × KvRows)) (ly : Nat) : List Bytes :=
  let s := shapeOf w
  let f := frontAll w s x.nodes ly (sharedRun w r x ctx ly)
  ((membersOf r.alive).filter (fun t => t != r.index && !(headsFor r s.heads t).isEmpty)).flatMap (fun t => (sentNodes r x.hi r.index).map (fun n =>
    f.1.zipIdx.flatMap (fun q => (headsFor r s.heads t).flatMap (fun j =>
      partialBytes s.hd (blockNode (ringBlocks r) (fun _ _ => none)
        (blockLeaf w s ly (included s ctx x.nodes f.2.kvs q.2) (q.1.getD j []) j) n.1.1 n.1.2)))))

/-- The payload of this member's merged u of layer `ly` (R150 step 3, R153). -/
def outputPayload (w : Bytes) (r : Ring) (x : Exchange) (ctx : List (Nat × KvRows)) (ly : Nat) : Bytes :=
  let s := shapeOf w
  let f := frontAll w s x.nodes ly (sharedRun w r x ctx ly)
  f.1.zipIdx.flatMap (fun q => (mergedHeads w s r x ly q.2 (included s ctx x.nodes f.2.kvs q.2) q.1).flatMap wordBytes)

/-- The names of the partials that this member sends for layer `ly`: to each other merger, each frontier node that is not empty. -/
def partialNames (r : Ring) (H S hi ly : Nat) : List DatumName :=
  ((membersOf r.alive).filter (fun t => t != r.index && !(headsFor r H t).isEmpty)).flatMap (fun t =>
    (sentNodes r hi r.index).map (fun n => partialName r S ly r.index t n.2))

/-- The names of the partials that this member merges for layer `ly`. -/
def awaitedPartials (r : Ring) (H S hi ly : Nat) : List DatumName :=
  if (headsFor r H r.index).isEmpty then []
  else ((membersOf r.alive).filter (· != r.index)).flatMap (fun m => (sentNodes r hi m).map (fun n => partialName r S ly m r.index n.2))

/-- The names of the merged u of layer `ly` that this member receives. -/
def awaitedOutputs (r : Ring) (H S ly : Nat) : List DatumName :=
  ((membersOf r.alive).filter (fun m => m != r.index && !(headsFor r H m).isEmpty)).map (fun m => outputName r S ly m)

end Sys2Proof.Machine
end

