-- ==== Sys2Proof/Machine/Proof.lean ====
section
/-! DEFINITION. The proof record (01_replay_contract.md R21 to R29), host fields, and who signs (R28); parking and the stop
of a decode session with its last completions (06_decode_sessions.md R125, R131, R134, R135; 08_fault_recovery.md R166). -/

namespace Sys2Proof.Machine

/-! ## Host fields and the sampling block (R23, R29, R100) -/

/-- The host-field block breaks R29; `fuel` is its length. -/
def hostFieldsBad : Nat → Bytes → Bool
  | 0, b => !b.isEmpty
  | fuel + 1, b =>
    if b.isEmpty then false
    else
      let t := field b 0 2
      let n := field b 2 2
      decide (b.length < 4) || decide (b.length < 4 + n) ||
        (t == 1 && n != 8) || ((t == 2 || t == 3) && (n == 0 || decide (256 < n))) ||
        (t != 1 && t != 2 && t != 3 && decide (t < 0x8000)) || hostFieldsBad fuel (b.drop (4 + n))

/-- The SAMPLING block breaks R23 or R100. -/
def samplingBad (b : Bytes) : Bool :=
  let badT := match num (sTemp b) with
    | .nan => true
    | .inf _ => true
    | .zero _ => false
    | .fin m _ => decide (m < 0)
  let p := sTopP b
  badT || !(flt 0 p && !flt one32 p) || sMaxNew b == 0 || !zeroAt b 0x1C 4

/-! ## Ring membership (R26, R168) -/

/-- The ring that the session runs on. -/
def sessionRing (s : State) : Option Ring :=
  match s.dec with
  | some d => if d.ring = 0 then none else s.ring
  | none => none

/-- Member `i` joined this session as a spare: a kind 2 change names it (R26, R174). -/
def joinedSpare (d : Session) (i : Nat) : Bool := d.changes.any (fun c => c.kind == 2 && c.member == i)

/-- The stretches that member `i` holds beside its initial one, in cyclic order up to its own: a spare's own is a copied one (R168, R174). -/
def promotedStretches (d : Session) (r : Ring) (i : Nat) : List Nat :=
  (((List.range r.count).map (fun k => (i + 1 + k) % r.count)).filter (fun k => k != i || joinedSpare d i)).filter (fun k => r.holders.getD k 32 == i)

/-- The promoted run of member `i`: the first block of the earliest such stretch, and the blocks of all of them (R168, R174). -/
def promotedRun (d : Session) (r : Ring) (i : Nat) : Nat × Nat :=
  match promotedStretches d r i with
  | [] => (0, 0)
  | k :: ks => (k * r.blocks, (ks.length + 1) * r.blocks)

/-- The 2,560 bytes of MEMBERS (Table 1-6, R26). The entry of an index that was no member at session open, and that no spare has taken since, is
unused: all 0. (DEDUCED: log entry 54) -/
def membersBytes (s : State) (d : Session) : Bytes :=
  match sessionRing s with
  | none => fit 2560 (identityDigest s ++ leBytes 4 0 ++ leBytes 4 d.stretch ++ zeros 8)
  | some r =>
    fit 2560 ((List.range r.count).flatMap (fun i =>
      let spare := joinedSpare d i
      let p := promotedRun d r i
      if !spare && !d.openMask.getLsbD i then zeros 80
      else fit 64 (r.ids.getD i []) ++ leBytes 4 (if spare then 0 else i * r.blocks) ++ leBytes 4 (if spare then 0 else r.blocks) ++
        leBytes 4 p.1 ++ leBytes 4 p.2))

/-! ## The record (Table 1-2) -/

/-- Token ids as 32-bit little-endian words (R24). -/
def tokenBytes (l : List Nat) : Bytes := l.flatMap (leBytes 4)

/-- The 16 bytes of a CHANGES entry (Table 1-7). -/
def changeBytes (c : Change) : Bytes :=
  leBytes 4 c.step ++ leBytes 6 c.stroke ++ leBytes 1 c.kind ++ leBytes 1 c.member ++ leBytes 1 c.taker ++ zeros 3

/-- Log a membership change (R27, Table 1-7). -/
def logChange (c : Change) (d : Session) : Session :=
  { d with changes := d.changes ++ [c], chgDigest := sha512 (d.chgDigest ++ changeBytes c) }

/-- FLAGS (Table 1-3). -/
def proofFlags (d : Session) : Nat :=
  b2n d.twin + 2 * b2n d.seedInt + 4 * b2n (!d.changes.isEmpty) + 8 * b2n (decide (16 < d.changes.length))

/-- Bytes 0x0000 to 0x1DFF of the proof of a session (Table 1-2). PLATE_COUNT counts every plate, and the table keeps the first 64.
(DEDUCED / DESIGN CHOICE: log entries 48, 78) -/
def proofBody (s : State) (d : Session) (serial : Nat) : Bytes :=
  [leBytes 4 0x4650584F, leBytes 2 1, leBytes 2 1, leBytes 4 (proofFlags d), leBytes 4 0x3020, leBytes 8 serial,
   leBytes 8 (d.resumeAt % 2 ^ 48), identityDigest s, fit 64 s.ctrlFw.runDig, fit 64 s.secFw.runDig,
   (s.weights.elim (zeros 64) (·.digest)), fit 64 d.draftDig, sha512 (tokenBytes d.inputs), sha512 d.hostField,
   sha512 (tokenBytes d.outputs), fit 32 d.seed, fit 32 d.sampling, leBytes 4 d.inputCnt, leBytes 4 d.outputs.length,
   leBytes 2 d.plates.length, leBytes 1 d.memberCnt, leBytes 1 (min 255 d.changes.length), leBytes 1 d.stop, zeros 3,
   fit 64 d.chgDigest, (d.width.map (fun w => BitVec.ofNat 8 w)), digestTable d.plates, membersBytes s d,
   fit 256 (d.changes.flatMap changeBytes), attestDigest s].flatten

/-- This module signs the session's proof: alone, or the lowest-indexed member still in the ring (R28). -/
def isSigner (s : State) : Bool :=
  match sessionRing s with
  | none => true
  | some r => (membersOf r.alive).head? == some r.index

/-- PROOF_ISSUE (R21, R22, R28, R134): consume a serial, sign, and write the record to PROOF_ADDR; of a session opened with REPLAY that is 0
(R119). (DESIGN CHOICE: log entry 51) -/
def issueProof (d : Session) (s : State) : State :=
  match slotAt s 1 with
  | none => s
  | some k =>
    let serial := s.kst.serial + 1
    let s := modKst (fun x => { x with serial := serial }) s
    let body := proofBody s d serial
    let r := signWith k body s
    let proof := body ++ r.1 ++ zeros 13
    postData 1 d.proofAddr proof
      (modDec (fun x => { x with proof := proof, serial := serial, signer := (sessionRing s).elim 0 (·.index) }) r.2)

/-! ## Completions (Table 6-6) -/

/-- A decode completion entry. -/
def decodeEntry (st : Status) (kind stop count tag first signer serial : Nat) : Bytes :=
  leBytes 2 (statusCode st) ++ leBytes 1 kind ++ leBytes 1 stop ++ leBytes 4 count ++ leBytes 8 tag ++ leBytes 4 first ++
  leBytes 1 signer ++ zeros 3 ++ leBytes 8 serial

/-- Complete an output descriptor. One whose tokens met a place that the module has taken for itself since it was posted carries
ACCESS_VIOLATION, and its COUNT leaves them out (R13). (DEDUCED: log entry 50) -/
def doneOut (o : OutDesc) (st : Status) (stop signer serial : Nat) (s : State) : State :=
  completeDesc o.desc (decodeEntry (if st = .ok ∧ 0 < o.lost then .accessViolation else st) 0x11 stop (o.written - o.lost) o.tag o.firstPos
    signer serial) s

/-- The index that the last output completion names in SIGNER: 0xFF when no proof was issued (Table 6-6, R134). -/
def signerField (s : State) (proof : Bool) : Nat :=
  if !proof then 0xFF
  else match sessionRing s with
  | none => 0
  | some r => (membersOf r.alive).head?.getD 0xFF

/-- The output completions of a stopped session (R134): the first descriptor posted carries the stop, the others complete with
zero tokens; with none posted, the stop waits for the next one. `proof` says that some module issues a proof. (DEDUCED: log entry 50) -/
def endOutput (proof : Bool) (s : State) : State :=
  match s.dec with
  | none => s
  | some d =>
    let signer := signerField s proof
    match d.outDescs with
    | [] => modDec (fun d => { d with owed := true, signer := signer }) s
    | o :: os =>
      let s := doneOut o d.cause d.stop signer d.serial s
      let s := os.foldl (fun st o => doneOut o .ok 0 0 0 st) s
      modDec (fun d => { d with outDescs := [], owed := false, signer := signer }) s

/-! ## Replay-verify's end (R31, R32) -/

/-- DIFF_MASK between a proof and the replay's own (R32). -/
def diffMask (a b : Bytes) : Nat :=
  let d := fun (off n : Nat) => b2n (slice a off n != slice b off n)
  d 0x20 64 + 2 * d 0x60 64 + 4 * d 0xA0 64 + 8 * d 0x2C0 4096 + 16 * d 0x120 64 +
  32 * b2n (slice a 0x26A 1 != slice b 0x26A 1 || slice a 0x12C0 2560 != slice b 0x12C0 2560) + 64 * d 0x18 8 +
  128 * b2n (field a 8 4 % 2 != field b 8 4 % 2) + 256 * d 0x2B0 16

/-- The completion of a REPLAY_VERIFY whose run has stopped (R31 step 5, Table 1-10). (DESIGN CHOICE: log entry 51) -/
def replayEnd (s : State) : State :=
  match s.dec with
  | none => s
  | some d =>
    match d.rp with
    | none => s
    | some r =>
      let early := decide (d.outputs.length < r.outCount)
      let match_ := !early && sha512 (tokenBytes d.outputs) == r.outDigest
      let mask := diffMask r.proof (if d.proof.isEmpty then proofBody s d 0 else d.proof)
      let s := modDec (fun d => { d with rp := none }) s
      match jobAt s r.order with
      | none => s
      | some j =>
        conclude j .ok (leBytes 1 (if match_ then 0 else 2) ++ zeros 3 ++ leBytes 4 mask ++
          leBytes 8 (if d.proof.isEmpty then 0 else d.serial)) s

/-! ## Stop, leave, park -/

/-- The actions of a work are discarded (R437). -/
def dropActions (w : Work) (s : State) : State :=
  modPrs (fun p => { p with actions := p.actions.filter (·.work != w), checks := p.checks.filter (·.work != w) }) s

/-- The loads of a work that run are abandoned: domain 541 stops participating for them (R437). -/
def dropLoads (w : Work) (s : State) : State :=
  modPla (fun p => { p with swaps := p.swaps.filter (fun x => !(x.work == w && x.loading && !x.loaded)) }) s

/-- The signature that a stopped session waits for, then its last completions (R330, R134). (DEDUCED: log entry 50) -/
def signOrWait (s : State) : State :=
  match s.dec with
  | none => s
  | some d =>
    if attestReady s && drbgGrants 1 3 s then replayEnd (endOutput true (modDec (fun d => { d with signWait := false }) (issueProof d s)))
    else modDec (fun d => { d with signWait := true }) s

/-- The state code of Table 6-3: a session is STOPPED once its proof is written, and in DECODE until then (R124). (DEDUCED: log entry 50) -/
def shownState (d : Session) : Nat := if d.signWait then 4 else d.state

/-- SESSION_STOP (R131, R134, R135): the stop reason and cause are set, the session stroke freezes, what has not committed is
discarded, and, where `sign` allows it and a token has been committed, the proof is issued (R28). -/
def stopSession (reason : Nat) (cause : Status) (sign : Bool) (s : State) : State :=
  match s.dec with
  | none => s
  | some d =>
    if d.state = 6 then s
    else
      let at_ := sessionStroke s .decode
      let s := dropLoads .decode (dropActions .decode (modDec (fun d => { d with
        state := 6, stop := reason, cause := cause, frozen := at_, pendStep := none, exch := [] }) s))
      let proof := sign && !d.outputs.isEmpty
      if proof && isSigner s then signOrWait s else replayEnd (endOutput proof s)

/-- Datum frames of this member that wait in its ports are not sent any more (R166). -/
def quietRing (s : State) : State :=
  match s.ring with
  | none => s
  | some r => { s with ports := map5 s.ports (fun p => { p with ringQ := p.ringQ.filter (fun f => !(f.type == 1 && f.src == r.index)) }) }

/-- MEMBER_LEAVE (R166): the session ends by fault, with no proof from this member. -/
def leaveSession (cause : Status) (s : State) : State := stopSession 5 cause false (quietRing s)

/-- DECODE_FAULT_STOP (R135): a single module stops with stop reason 5; a ring member makes a fatal self-report and leaves. -/
def decodeFault (cause : Status) (s : State) : State :=
  match s.dec with
  | none => s
  | some d =>
    if d.state = 6 then s
    else match sessionRing s with
    | none => stopSession 5 cause (cause != .engineFenced) s
    | some r => leaveSession cause (modRing (fun r => { r with state := 4 }) (controlAll (.selfReport r.index) s))

/-- Outputs that MAX_NEW still allows. -/
def outputsLeft (d : Session) : Nat := sMaxNew d.sampling - d.outputs.length

/-- The hatch depth D: the last depth with a nonzero width (R118). -/
def hatchDepth (w : List Nat) : Nat := (w.zipIdx.foldl (fun a x => if x.1 = 0 then a else x.2 + 1) 0)

/-- Free capacity of the posted output descriptors. -/
def outputRoom (d : Session) : Nat := sumNat (d.outDescs.map (fun o => o.capacity - o.written))

/-- Last position of the next prefill chunk (R127). -/
def chunkLast (d : Session) : Nat := min (4096 * d.chunks + 4095) (d.inputCnt - 1)

/-- A condition of R125 holds for a session in state `st`. -/
def parkWhy (s : State) (d : Session) (st : Nat) : Bool :=
  (st == 3 && decide (d.inputs.length ≤ chunkLast d)) ||
  (st == 4 && decide (outputRoom d < min (hatchDepth d.width) (outputsLeft d))) ||
  (sessionRing s).any (fun r => r.state == 3)

/-- No step or chunk is running (R125). -/
def atBoundary (s : State) : Bool := s.dec.any (fun d => d.pendStep.isNone) && !workBusy s .decode

/-- SESSION_PARK (R125, R45): the session stroke freezes at the stroke that follows the last committed step. (DEDUCED: log entry 48) -/
def park (s : State) : State := modDec (fun d => { d with state := 5, parkedIn := d.state, frozen := d.resumeAt }) s

/-- At a step or chunk boundary, a requested finish stops the session (R131) and a condition of R125 parks it. (DEDUCED: log entry 50) -/
def settle (s : State) : State :=
  match s.dec with
  | none => s
  | some d =>
    if !atBoundary s || !(d.state == 3 || d.state == 4 || d.state == 5) then s
    else if d.finishReq then stopSession 4 .ok true s
    else if d.state != 5 && parkWhy s d d.state then park s
    else s

end Sys2Proof.Machine
end

