-- ==== Sys2Proof/Machine/Storage.lean ====
section
/-! DEFINITION. Where KV lies in HBM (05_intaglio_class.md R110, R112; 07_sequence_ring.md R144 to R147): the storage of each stretch on this
member, the rows of a position, the draft's window, and what a commit writes. -/

namespace Sys2Proof.Machine

/-- The shape of the resident weight set; of no bytes when none is resident. -/
def fullShape (s : State) : Shape := shapeOf (s.weights.elim [] (·.bytes))

/-- KV blocks of each stretch of the session (R120, R144). -/
def stretchBlocks (s : State) (d : Session) : Nat := (sessionRing s).elim d.stretch (·.blocks)

/-- The HBM of this member that stores stretch `k`: held, as a counterproof, or as a rebuilt mirror (R144, R146, R169). -/
def storeOf (s : State) (k : Nat) : Option Nat :=
  (s.mem.held.find? (fun h => h.owner == .stretch k || h.owner == .counterproof k || h.owner == .mirror k)).map (·.base)

/-- This member's index, or 0 in a single module: the stretch it holds at open (R144). -/
def ownStretch (s : State) : Nat := (sessionRing s).elim 0 (·.index)

/-- This member holds block `b` for attention (R148); a single module holds every block. -/
def holdsHere (s : State) (b : Nat) : Bool := (sessionRing s).all (fun r => holdsBlock r r.index b)

/-- Where row `i` of position `p` lies in the storage of its stretch (R110). Rows go by layer, KV head, then key and value. -/
def kvRowAt (sh : Shape) (b base p i : Nat) : Nat :=
  base + p / 4096 % b * kvBlockBytes sh + kvOffset sh (i / 2 / sh.kvHeads) (i / 2 % sh.kvHeads) (i % 2) p 0

/-- The first position not yet committed (R128): past the chunks that have run, or past the outputs. -/
def committed (d : Session) : Nat :=
  if d.chunks * 4096 < d.inputCnt then d.chunks * 4096 else d.inputCnt + d.outputs.length

/-- The rows of position `p` as its stretch's storage holds them. -/
def readKv (s : State) (d : Session) (p : Nat) : KvRows :=
  let sh := fullShape s
  let b := stretchBlocks s d
  match storeOf s (p / 4096 / b) with
  | none => []
  | some base => (List.range (2 * sh.layers * sh.kvHeads)).map (fun i => cellRead s.mem.cells (kvRowAt sh b base p i) sh.hd)

/-- The committed positions that this member holds, with their rows (R145, R148). -/
def heldKv (s : State) (d : Session) : List (Nat × KvRows) :=
  ((List.range (committed d)).filter (fun p => holdsHere s (p / 4096))).map (fun p => (p, readKv s d p))

/-- The writes that store rows by position: in every storage of this member that their stretch has (R145, R146, R169). -/
def kvWrites (s : State) (d : Session) (rows : List (Nat × KvRows)) : List (Nat × Bytes) :=
  let sh := fullShape s
  let b := stretchBlocks s d
  rows.flatMap (fun r => match storeOf s (r.1 / 4096 / b) with
    | none => []
    | some base => r.2.zipIdx.map (fun x => (kvRowAt sh b base r.1 x.2, x.1)))

/-! ## The draft's window (R112) -/

/-- Where row `i` of position `p` lies in the draft's window, whose blocks are reused cyclically (R112). -/
def draftRowAt (d : Session) (p i : Nat) : Nat :=
  let sh := shapeOf d.draft
  kvRowAt sh (sh.window / 4096) d.draftBase p i

/-- The last WINDOW committed positions with the draft's rows. -/
def draftKv (s : State) (d : Session) : List (Nat × KvRows) :=
  let sh := shapeOf d.draft
  ((List.range (committed d)).filter (fun p => decide (committed d ≤ p + sh.window))).map (fun p =>
    (p, (List.range (2 * sh.layers * sh.kvHeads)).map (fun i => cellRead s.mem.cells (draftRowAt d p i) sh.hd)))

/-- The writes that store the draft's rows of tokens that commit from position `p` on: what the draft computes for them (R112, R128). -/
def draftWrites (s : State) (d : Session) (p : Nat) (ts : List Nat) : List (Nat × Bytes) :=
  if d.draft.isEmpty then []
  else (forward d.draft (draftKv s d) (chainNodes p ts)).kvs.zipIdx.flatMap (fun r =>
    r.1.zipIdx.map (fun x => (draftRowAt d (p + r.2) x.2, x.1)))

/-! ## Writing -/

/-- The writes land (R110, R132). -/
def storeRows (ws : List (Nat × Bytes)) (s : State) : State := ws.foldl (fun st w => (memWrite w.1 w.2 st).2) s

/-- A write of rows would land on a page at its last MAJOR, which memory protection refuses (R361). -/
def storeStuck (ws : List (Nat × Bytes)) (s : State) : Bool := ws.any (fun w => (linesOf w.1 w.2.length).any (lineStuck s))

/-! ## What a step or chunk reads (R135) -/

/-- Some byte of [a, a + n) lies in a poisoned line of HBM. -/
def linePoisoned (s : State) (a n : Nat) : Bool := s.mem.poison.any (fun l => overlaps a n (l * 64) 64)

/-- The banks that the decode session's draft is in, in the order in which they hold it: the draft's bytes fill the reserved banks in ascending order
of graver and bank, 384 KiB each, and in twin mode those of each half alike (R69, R71, R112). As (device address, offset in the draft, length).
(DESIGN CHOICE: log entry 83) -/
def draftPieces (s : State) (len : Nat) : List (Nat × Nat × Nat) :=
  match grantOf s .decode with
  | none => []
  | some g =>
    let half := if g.twin then g.banks.length / 2 else g.banks.length
    g.banks.zipIdx.filterMap (fun k =>
      let o := k.2 % half * bankBytes
      if o < len then some (sramBase + k.1 * bankBytes, o, min bankBytes (len - o)) else none)

/-- The words of the draft that fail parity are counted as a step reads them (R54). -/
def countDraft (s : State) : State :=
  (draftPieces s (s.dec.elim 0 (·.draft.length))).foldl (fun st p => countParity p.1 p.2.2 st) s

/-- A word that the session's next step or chunk reads is poisoned: the weights, the held KV of a committed position, the draft in its banks, or the
KV of its window (R135). -/
def decodePoisoned (s : State) : Bool :=
  match s.dec, s.weights with
  | some d, some w =>
    let sh := fullShape s
    let dh := shapeOf d.draft
    let b := stretchBlocks s d
    let full := (List.range (committed d)).any (fun p => holdsHere s (p / 4096) && (storeOf s (p / 4096 / b)).any (fun base =>
      (List.range (2 * sh.layers * sh.kvHeads)).any (fun i => linePoisoned s (kvRowAt sh b base p i) sh.hd)))
    let draft := !d.draft.isEmpty && ((draftKv s d).any (fun x => (List.range (2 * dh.layers * dh.kvHeads)).any (fun i =>
        linePoisoned s (draftRowAt d x.1 i) dh.hd)) ||
      (draftPieces s d.draft.length).any (fun p => poisonedAt s p.1 p.2.2))
    linePoisoned s w.base w.bytes.length || full || draft
  | _, _ => false

end Sys2Proof.Machine
end

