-- ==== Sys2Proof/Machine/Decode.lean ====
section
/-! DEFINITION. Decode sessions (06_decode_sessions.md R114 to R135): weights, open, draft, prefill, the hatch, acceptance,
commit, descriptors, and replay-verify (01_replay_contract.md R30 to R32). -/

namespace Sys2Proof.Machine

/-! ## Weights (R115, R116) -/

/-- The resident set is gone: wiped, and its place free (R115, R436). -/
def dropWeights (s : State) : State :=
  let s := (s.mem.held.filter (·.owner == .weights)).foldl (fun st h => setRegion h.base h.len none st) s
  release (· == .weights) { s with weights := none }

/-- The plaintext and content key checks of an image that has been read: its shape (R103, R112), then every tag and the
binding (R344, R345). `place` stands between them and may refuse for want of space. -/
inductive ImageEnd where
  | ok (plain digest : Bytes)
  | auth
  | shape (code : Nat)
  | space

/-- Judge the part of an image of `total` bytes that has been read, under a key slot for a role: its first failing check, its plaintext when all of it
is there, or none when what is there passes. `vocab` is the full model's for a draft, and `fits` says whether the plaintext's place can
hold it. (DEDUCED: log entry 37) -/
def judgeImage (k : KeySlot) (img : Bytes) (total role : Nat) (vocab : Option Nat) (fits : Nat → Bool) : Option ImageEnd :=
  if img.length < min 64 total then none
  else match imageHeader img total with
  | .error (.shapeUnsupported, c) => some (.shape c)
  | .error _ => some .auth
  | .ok n =>
    if img.length < 80 + min 4194304 n then none
    else match imageFirst k.secret img n with
    | none => some .auth
    | some first =>
      match shapeFail first role n with
      | some c => some (.shape c)
      | none =>
        if vocab.any (fun v => (shapeOf first).vocab != v) then some (.shape 0xF1)
        else if !fits n then some .space
        else if img.length < total then (if imageTagBad k.secret img n then some .auth else none)
        else match imagePlain k.secret img n with
        | none => some .auth
        | some plain => if boundElse k (sha512 plain) then some .auth else some (.ok plain (sha512 plain))

/-- WEIGHTS_LOAD with what its image has been judged to be (R115). -/
def weightsEnd (j : Job) (e : ImageEnd) (s : State) : State :=
  match e with
  | .auth => answer j .weightAuthFail (dropWeights s)
  | .shape c => refuseWith j .shapeUnsupported c s
  | .space => answer j .busy s
  | .ok plain digest =>
    let place := placeHbm plain.length (dropWeights s)
    let epoch := (s.mpr.epoch + 1) % 2 ^ 32
    let s := hold ⟨place.1.getD 0, plain.length, .weights⟩ { place.2 with weights := some ⟨digest, plain, place.1.getD 0, epoch⟩ }
    finish j .ok digest (setRegion (place.1.getD 0) plain.length (some epoch) (modMpr (fun m => { m with epoch := epoch }) s))

/-- The image of a WEIGHTS_LOAD judged as far as it has been read; `dropWeights` frees the place that a replaced set leaves (R115). -/
def weightsJudged (k : KeySlot) (img : Bytes) (total : Nat) (s : State) : Option ImageEnd :=
  judgeImage k img total 1 none (fun n => (placeHbm n (dropWeights s)).1.isSome)

/-- WEIGHTS_LOAD with the part of its image that has been read (R115, R436). -/
def weightsEarly (j : Job) : Early := fun img s =>
  match (slotFor s (arg j 16 2) 4).bind (fun k => weightsJudged k img (arg j 8 8) s) with
  | some e => (true, weightsEnd j e s)
  | none => (false, s)

/-- WEIGHTS_LOAD once its image has been read, or its read has failed (R115). -/
def weightsLoadData (j : Job) (r : Except Status Bytes) (s : State) : State :=
  match r with
  | .error st => answer j st (dropWeights s)
  | .ok img =>
    match slotFor s (arg j 16 2) 4 with
    | none => denySlot j s
    | some k => (weightsJudged k img img.length s).elim s (fun e => weightsEnd j e s)

/-- WEIGHTS_LOAD (0x0502, R115). -/
def execWeightsLoad (m : MbReads) (s : State) : Out :=
  .next <| onReads m 0x0502 s fun j =>
    if !lenIs j 24 || !zeroAt j.payload 18 6 || badAddr (arg j 0 8) then answer j .badArg s
    else if s.dec.isSome then answer j .notIdle s
    else if (slotFor s (arg j 16 2) 4).isNone then denySlot j s
    else fetchSource j true (arg j 0 8) (arg j 8 8) 64 (weightsEarly j) (weightsLoadData j) s

/-- WEIGHTS_UNLOAD (0x0504, R116). -/
def execWeightsUnload (mb : MbId) (s : State) : Out :=
  .next <| onNewJob mb 0x0504 s fun j =>
    if !lenIs j 8 || !allZero j.payload then answer j .badArg s
    else if s.dec.isSome then answer j .notIdle s
    else answer j .ok (dropWeights s)

/-! ## DECODE_OPEN (R117 to R121) -/

/-- The hatch widths break R118. -/
def widthsBad (w : List Nat) : Bool :=
  let pairs := w.zip (w.drop 1)
  w.headD 0 != 1 || pairs.any (fun p => decide (64 * p.1 < p.2)) || decide (64 < sumNat w)

/-- The ring that a handle names (R140: `RING_ID`[31:0]). -/
def ringOf (s : State) (h : Nat) : Option Ring := s.ring.filter (fun r => r.id % 2 ^ 32 == h)

/-- Step 3 of R119: a field out of range. STOP_TOKENS are judged by the V of the resident set, whichever it is, and without one not at all: the
open is refused at a later step then. (DEDUCED: log entry 47) -/
def openBad (s : State) (p : Bytes) : Bool :=
  let flags := field p 4 4
  let replay := bit flags 2
  let ring := field p 0 4
  let sb := field p 0x1A 2
  let sheets := BitVec.ofNat 32 (field p 8 4)
  let w := (slice p 0xA0 16).map (·.toNat)
  let draft := field p 0x10 8
  let blocks := if ring = 0 then sb else (ringOf s ring).elim 0 (fun r => r.count * r.blocks)
  let cap := min 4194304 (4096 * blocks)
  let vocab := s.weights.map (fun x => (shapeOf x.bytes).vocab)
  let stopBad := vocab.any (fun v => (sStops (slice p 0x80 32)).any (fun t => t != 0xFFFFFFFF && decide (v ≤ t)))
  flags / 8 != 0 || !zeroAt p 0x1C 4 || !zeroAt p 0xB8 8 || sheets == 0 || (bit flags 0 && twinLacks sheets) ||
  widthsBad w || decide (2147483648 < draft) || ((draft != 0) != decide (1 < hatchDepth w)) ||
  (ring == 0 && (sb == 0 || decide (256 < sb))) || (ring != 0 && (sb != 0 || (ringOf s ring).isNone)) ||
  (if replay then field p 0xC 4 != 0 || field p 0x18 2 != 0 || field p 0xB0 8 != 0 || !zeroAt p 0x60 64
   else decide (field p 0xC 4 < 1) || decide (cap < field p 0xC 4) || hostFieldsBad (p.drop 0xC0).length (p.drop 0xC0) ||
     samplingBad (slice p 0x80 32) || stopBad || (bit flags 1 && !zeroAt p 0x60 32) ||
     field p 0xB0 8 % 16 != 0 || bit (field p 0xB0 8) 63 || decide (4096 < field p 0x18 2))

/-- HBM for the stretch and, in a ring, its counterproof (R120, R144, R146); none when it cannot hold them. -/
def placeStretch (blocks : Nat) (ring : Bool) (s : State) : Option State :=
  let n := blocks * kvBlockBytes (fullShape s)
  let i := if ring then memberIndex s else 0
  match placeHbm n s with
  | (none, _) => none
  | (some a, s) =>
    let s := hold ⟨a, n, .stretch i⟩ s
    if !ring then some s
    else match placeHbm n s with
    | (none, _) => none
    | (some b, s) => some (hold ⟨b, n, .counterproof ((i + s.ring.elim 1 (·.count) - 1) % s.ring.elim 1 (·.count))⟩ s)

/-- Who holds each stretch when a session opens (R144, R168): its member, or the +1 neighbour of a member that is not in the ring. -/
def openHolders (r : Ring) : List (Option Nat) :=
  (List.range r.count).map (fun k =>
    if r.alive.getLsbD k then some k
    else if r.alive.getLsbD ((k + 1) % r.count) then some ((k + 1) % r.count)
    else none)

/-- The ring can serve a session: it is UP and every stretch has a holder (R141, R144). (DEDUCED: log entry 47) -/
def ringServes (r : Ring) : Bool := r.state == 2 && (openHolders r).all (·.isSome)

/-- What a session that ends or opens leaves of its predecessor in the ring: no mirrors, suspicions, lost links or digests (R162, R169).
(DEDUCED: log entry 53) -/
def freshRing (r : Ring) : Ring :=
  setRoutes { r with holders := (openHolders r).map (·.getD 32), mirrors := [], failedMir := [], suspects := [], lostLinks := [], joining := none, handing := false
                     mask := r.alive, frames := [], digests := [], progress := [] }

/-- The session that a DECODE_OPEN payload opens (Table 6-2). (DEDUCED: log entry 47) -/
def newSession (s : State) (h : Nat) (p : Bytes) (seed : Bytes) : Session :=
  let flags := field p 4 4
  let ring := field p 0 4
  { handle := h, ring := ring, twin := bit flags 0, seedInt := bit flags 1, replay := bit flags 2
    sheets := BitVec.ofNat 32 (field p 8 4), inputCnt := field p 0xC 4, draftLen := field p 0x10 8
    stretch := if ring = 0 then field p 0x1A 2 else s.ring.elim 0 (·.blocks)
    seed := seed, sampling := slice p 0x80 32, width := (slice p 0xA0 16).map (·.toNat), proofAddr := field p 0xB0 8
    hostField := p.drop 0xC0, openBytes := p.take 8 ++ zeros 4 ++ p.drop 12, state := 1, parkedIn := 1, stop := 0, cause := .ok
    base := s.prs.stroke, frozen := 0, resumeAt := 0, invoked := 0, lastAt := 0, exch := [], inputs := [], outputs := [], steps := 0, chunks := 0
    root := 0, kept := [], draft := [], draftDig := zeros 64, draftBase := 0, decodeOk := false, draftOk := false
    plates := [], pendStep := none, outDescs := [], memberCnt := if ring = 0 then 1 else s.ring.elim 1 (fun r => popcount r.alive), openMask := if ring = 0 then 1 else s.ring.elim 1 (·.alive)
    index := if ring = 0 then 0 else memberIndex s, changes := [], chgDigest := zeros 64, replayed := false
    finishReq := false, proof := [], serial := 0, signer := 0xFF, rp := none, twinRetry := false
    opensSeen := ring == 0, owed := false, signWait := false }

/-- Context capacity in positions (R120). -/
def capacity (s : State) (d : Session) : Nat :=
  let blocks := if d.ring = 0 then d.stretch else s.ring.elim 0 (fun r => r.count * r.blocks)
  min 4194304 (4096 * blocks)

/-- DECODE_OPEN on its job: the checks of R119 in their order; with SEED_INTERNAL and no output of the generator it waits, and
ENTROPY_WAIT_TIMEOUT ends the wait. (DEDUCED: log entry 47) -/
def decodeOpen (j : Job) (s : State) : State :=
  let p := j.payload
  let flags := field p 4 4
  let ring := field p 0 4
  let sheets := BitVec.ofNat 32 (field p 8 4)
  if guardSet s then answer j .strokeGuard s
  else if s.dec.isSome then answer j .notIdle s
  else if decide (p.length < 192) || p.length != 192 + field p 0x18 2 || openBad s p then answer j .badArg s
  else if quiesced s 1 then answer j .notIdle s
  else if !s.weights.any (fun x => x.digest == slice p 0x20 64) then answer j .weightsAbsent s
  else if ring != 0 && !(ringOf s ring).any ringServes then answer j .busy s
  else match (grant .decode sheets (bit flags 0) (field p 0x10 8) s).bind
      (placeStretch (if ring = 0 then field p 0x1A 2 else s.ring.elim 0 (·.blocks)) (ring != 0)) with
  | none => answer j .busy s
  | some t =>
    if bit flags 1 && !drbgGrants 1 3 s then waitJob j 0 s
    else
      let r := if bit flags 1 then drbgTake 32 t else (slice p 0x60 32, t)
      let h := freshHandle (workHandles r.2) r.2
      let d := newSession h.2 h.1 p r.1
      let t := { h.2 with dec := some d }
      let t := if ring = 0 then t else controlAll (.openDigest (BitVec.ofNat 512 (leNat (sha512 d.openBytes)))) (modRing freshRing t)
      finish j .ok (leBytes 4 h.1 ++ leBytes 4 (capacity t d)) t

/-- DECODE_OPEN (0x0501, R119). (DEDUCED: log entry 47) -/
def execDecodeOpen (mb : MbId) (s : State) : Out := .next (onJob mb 0x0501 s (fun j => decodeOpen j s))

/-! ## Draft and readiness (R122, R123) -/

/-- The open session that a handle names. -/
def sessionAt (s : State) (h : Nat) : Option Session := s.dec.filter (fun d => d.handle == h)

/-- The session enters PREFILL (R124): its first prefill stroke is session stroke 0 (R25). (DEDUCED: log entry 48) -/
def startPrefill (s : State) : State :=
  settle (modDec (fun d => { d with state := 3, base := s.prs.stroke, resumeAt := 0 }) s)

/-- OPENED becomes READY when the decode plate is active and, with D above 1, the draft is loaded and its plate is active
(R123); input tokens that wait start the prefill. -/
def readyCheck (s : State) : State :=
  match s.dec with
  | none => s
  | some d =>
    let drafted := hatchDepth d.width ≤ 1 ||
      (!d.draft.isEmpty && (activeOf s .decode 2).any (fun a => (configAt s a.plate).any (fun p => p.shape == shapeDigest d.draft)))
    if d.state = 1 && !(activeOf s .decode 1).isEmpty && drafted then
      let s := modDec (fun d => { d with state := 2 }) s
      if d.inputs.isEmpty then s else startPrefill s
    else s

/-- The draft is gone (R122, R436). -/
def dropDraft (s : State) : State :=
  release (· == .draftKv) (modDec (fun d => { d with draft := [], draftDig := zeros 64, draftBase := 0 })
    (wipeBanks ((grantOf s .decode).elim [] (·.banks)) s))

/-- A draft is written into the banks reserved for it (R122). -/
def storeDraft (plain : Bytes) (s : State) : State :=
  (draftPieces s plain.length).foldl (fun st p => (memWrite p.1 (slice plain p.2.1 p.2.2) st).2) s

/-- The bytes of HBM that a draft's window of KV takes (R112). -/
def draftWindowBytes (sh : Shape) : Nat := sh.window / 4096 * kvBlockBytes sh

/-- DRAFT_LOAD with what its image has been judged to be (R122, R112). With no room in HBM for the draft's window the load is refused as one without
room in its banks is. (DEDUCED: log entry 47) -/
def draftEnd (j : Job) (e : ImageEnd) (s : State) : State :=
  match e with
  | .auth => answer j .weightAuthFail (dropDraft s)
  | .shape c => refuseWith j .shapeUnsupported c s
  | .space => answer j .busy s
  | .ok plain digest =>
    let n := draftWindowBytes (shapeOf plain)
    match placeHbm n (dropDraft s) with
    | (none, _) => answer j .busy s
    | (some a, s) =>
      let s := modDec (fun d => { d with draft := plain, draftDig := digest, draftBase := a }) (hold ⟨a, n, .draftKv⟩ (storeDraft plain s))
      finish j .ok digest (readyCheck s)

/-- The image of a DRAFT_LOAD judged as far as it has been read. -/
def draftJudged (d : Session) (k : KeySlot) (img : Bytes) (total : Nat) (s : State) : Option ImageEnd :=
  judgeImage k img total 2 (s.weights.map (fun x => (shapeOf x.bytes).vocab)) (fun n => decide (n ≤ bankCount d.draftLen * bankBytes))

/-- DRAFT_LOAD with the part of its image that has been read (R122, R436). -/
def draftEarly (j : Job) : Early := fun img s =>
  match sessionAt s (arg j 0 4), slotFor s (arg j 4 2) 4 with
  | some d, some k =>
    if d.state != 1 then (false, s)
    else match draftJudged d k img (arg j 16 8) s with
    | some e => (true, draftEnd j e s)
    | none => (false, s)
  | _, _ => (false, s)

/-- DRAFT_LOAD once its image has been read, or its read has failed (R122, R112). -/
def draftLoadData (j : Job) (r : Except Status Bytes) (s : State) : State :=
  match sessionAt s (arg j 0 4) with
  | none => answer j .badArg s
  | some d =>
    match r with
    | .error st => answer j st (dropDraft s)
    | .ok img =>
      if d.state != 1 then answer j .notIdle s
      else match slotFor s (arg j 4 2) 4 with
      | none => denySlot j s
      | some k => (draftJudged d k img img.length s).elim s (fun e => draftEnd j e s)

/-- DRAFT_LOAD (0x0503, R122). -/
def execDraftLoad (m : MbReads) (s : State) : Out :=
  .next <| onReads m 0x0503 s fun j =>
    if !lenIs j 24 || arg j 6 2 != 0 || badAddr (arg j 8 8) then answer j .badArg s
    else match sessionAt s (arg j 0 4) with
    | none => answer j .badArg s
    | some d =>
      if d.state != 1 then answer j .notIdle s
      else if (slotFor s (arg j 4 2) 4).isNone then denySlot j s
      else fetchSource j true (arg j 8 8) (arg j 16 8) 64 (draftEarly j) (draftLoadData j) s

/-! ## Finish, close, status (R114, R124, R131) -/

/-- DECODE_FINISH (0x0510, R131). (DEDUCED: log entry 50) -/
def execDecodeFinish (mb : MbId) (s : State) : Out :=
  .next <| onNewJob mb 0x0510 s fun j =>
    if !lenIs j 8 || arg j 4 4 != 0 then answer j .badArg s
    else match sessionAt s (arg j 0 4) with
    | none => answer j .badArg s
    | some d =>
      let s := if d.state = 1 || d.state = 2 then stopSession 4 .ok false s
        else if d.state = 6 then s
        else settle (modDec (fun d => { d with finishReq := true }) s)
      answer j .ok s

/-- The session is gone: its sheets, reservations and places are released and wiped (R124), and what the shares hold for it is free. -/
def dropSession (s : State) : State :=
  let s := release (fun o => match o with
    | .stretch _ | .counterproof _ | .mirror _ | .draftKv => true
    | _ => false) s
  let s := if s.dec.any (fun d => d.ring != 0) then modRing freshRing s else s
  freeWhere (fun _ => true) (endWork .decode { s with dec := none })

/-- DECODE_CLOSE (0x0511, R124). Output descriptors still posted complete with zero tokens. A session whose proof still waits for its signature is
not yet STOPPED (Table 6-3). (DEDUCED: log entry 50) -/
def execDecodeClose (mb : MbId) (s : State) : Out :=
  .next <| onNewJob mb 0x0511 s fun j =>
    if !lenIs j 8 || arg j 4 4 != 0 then answer j .badArg s
    else match sessionAt s (arg j 0 4) with
    | none => answer j .badArg s
    | some d =>
      if !(shownState d == 1 || shownState d == 2 || shownState d == 6) then answer j .notIdle s
      else answer j .ok (dropSession (d.outDescs.foldl (fun st o => doneOut o .ok 0 0 0 st) s))

/-- DECODE_STATUS (0x0512). -/
def execDecodeStatus (mb : MbId) (s : State) : Out :=
  .next <| onNewJob mb 0x0512 s fun j =>
    if !lenIs j 8 || arg j 4 4 != 0 then answer j .badArg s
    else match sessionAt s (arg j 0 4) with
    | none => answer j .badArg s
    | some d =>
      finish j .ok (leBytes 1 (shownState d) ++ leBytes 1 d.stop ++ zeros 2 ++ leBytes 4 d.outputs.length ++ leBytes 8 d.steps ++
        leBytes 8 (sessionStroke s .decode)) s

/-! ## Descriptors (R126, R133, R134) -/

/-- A decode descriptor breaks R133. -/
def decodeDescBad (s : State) (b : Bytes) (kind : Nat) : Bool :=
  field b 0 1 != kind || (field b 1 1 != 0 && !(kind == 0x11 && field b 1 1 == 1)) || !zeroAt b 2 2 || !zeroAt b 0x14 4 ||
    !zeroAt b 0x20 32 || decide (field b 0x10 4 < 1) || decide (65536 < field b 0x10 4) || field b 8 8 % 4 != 0 ||
    badAddr (field b 8 8) || (sessionAt s (field b 4 4)).isNone

/-- A completion of an input descriptor (Table 6-6). -/
def doneInput (f : FDesc) (st : Status) (n first : Nat) (s : State) : State :=
  completeDesc f.id (decodeEntry st 0x10 0 n (field f.bytes 0x18 8) first 0 0) s

/-- Input is over: every chunk has run, or the session has stopped (R134). -/
def prefilled (d : Session) : Bool := d.state == 4 || d.state == 6 || (d.state == 5 && d.parkedIn == 4)

/-- The tokens of an input descriptor have been read, or their read has failed (R126, R111). (DEDUCED: log entry 50) -/
def decodeInputData (f : FDesc) (r : Except Status Bytes) (s : State) : State :=
  match sessionAt s (field f.bytes 4 4), r with
  | none, _ => doneInput f .badArg 0 0 s
  | some _, .error st => doneInput f st 0 0 s
  | some d, .ok bs =>
    let toks := (List.range (bs.length / 4)).map (fun i => field bs (4 * i) 4)
    let vocab := s.weights.elim 0 (fun x => (shapeOf x.bytes).vocab)
    if prefilled d then doneInput f .notIdle 0 0 s
    else if toks.any (fun t => decide (vocab ≤ t)) || decide (d.inputCnt < d.inputs.length + toks.length) then
      doneInput f .badArg 0 0 s
    else
      let s := doneInput f .ok toks.length d.inputs.length (modDec (fun d => { d with inputs := d.inputs ++ toks }) s)
      if d.state = 2 then startPrefill s else s

/-- An earlier input descriptor's tokens are still being read: input is taken in order (R126). -/
def inputReading (s : State) : Bool := s.hif.reads.any (fun r => match r.purpose with | .decodeInput _ => true | _ => false)

/-- DECODE_INPUT_DESCRIPTOR (R126, R133, R134). Input is taken in OPENED as well. (DEDUCED: log entry 50) -/
def execDecodeInputDescriptor (m : DescReads) (s : State) : Out :=
  .next <|
    let d := m.id
    match descAt s d with
    | none => s
    | some f =>
      if f.taken || f.fn != 1 || field f.bytes 0 1 != 0x10 || inputReading s then s
      else if decodeDescBad s f.bytes 0x10 then doneInput f .badArg 0 0 (takeDesc d s)
      else if s.dec.any prefilled then doneInput f .notIdle 0 0 (takeDesc d s)
      else
        let s := takeDesc d s
        let n := 4 * field f.bytes 0x10 4
        match decodeAddr (field f.bytes 8 8) with
        | .host a => hostReadReq 1 a n (.decodeInput d) s
        | .dev a =>
          let r := devRead m.bad a n s
          decodeInputData f r.1 r.2
        | .bad => doneInput f .badArg 0 0 s

/-- DECODE_OUTPUT_DESCRIPTOR (R133, R134): posted in order, or completed at once after a stop. (DEDUCED: log entry 50) -/
def execDecodeOutputDescriptor (d : Nat) (s : State) : Out :=
  .next <|
    match descAt s d with
    | none => s
    | some f =>
      let b := f.bytes
      let o : OutDesc := { desc := d, stream := bit (field b 1 1) 0, addr := field b 8 8, capacity := field b 0x10 4, written := 0,
                           firstPos := 0, tag := field b 0x18 8 }
      let fail := fun (st : Status) (s : State) => doneOut o st 0 0 0 (takeDesc d s)
      let devBad := match decodeAddr (field b 8 8) with
        | .dev a => !devOk s a (4 * field b 0x10 4)
        | _ => false
      if f.taken || f.fn != 1 || field b 0 1 != 0x11 then s
      else if decodeDescBad s b 0x11 then fail .badArg s
      else if devBad then fail .accessViolation s
      else match s.dec with
      | none => s
      | some x =>
        let s := takeDesc d s
        if x.signWait then modDec (fun x => { x with outDescs := x.outDescs ++ [o] }) s
        else if x.state = 6 then
          if x.owed then
            modDec (fun x => { x with owed := false }) (doneOut o x.cause x.stop x.signer x.serial s)
          else doneOut o .ok 0 0 0 s
        else modDec (fun x => { x with outDescs := x.outDescs ++ [o] }) s

/-- Write one token at an output address: to the host, or to device memory where R12 and R13 allow it. -/
def storeToken (a t : Nat) (s : State) : State :=
  match decodeAddr a with
  | .dev x => if devOk s x 4 then (memWrite x (leBytes 4 t) s).2 else s
  | _ => postData 1 a (leBytes 4 t) s

/-- The place of an output token that R12 or R13 refuses at this moment. -/
def tokenLost (s : State) (a : Nat) : Bool :=
  match decodeAddr a with
  | .dev x => !devOk s x 4
  | _ => false

/-- Output tokens from position `pos` on, in order, filling one descriptor before the next (R134). With `final` the descriptor
that holds the last token is left for the stop. -/
def emitTokens (final : Bool) : Nat → List Nat → State → State
  | _, [], s => s
  | pos, t :: ts, s =>
    match s.dec.bind (·.outDescs.head?) with
    | none => s
    | some o =>
      let a := o.addr + 4 * o.written
      let lost := b2n (tokenLost s a)
      let s := storeToken a t s
      let o' := { o with written := o.written + 1, firstPos := if o.written = 0 then pos else o.firstPos, lost := o.lost + lost }
      let s := if o'.written = o'.capacity && !(final && ts.isEmpty) then
          doneOut o' .ok 0 0 0 (modDec (fun d => { d with outDescs := d.outDescs.drop 1 }) s)
        else modDec (fun d => { d with outDescs := o' :: d.outDescs.drop 1 }) s
      emitTokens final (pos + 1) ts s

/-- A commit completes the STREAM descriptor that it wrote into (R134). -/
def streamDone (s : State) : State :=
  match s.dec.bind (·.outDescs.head?) with
  | none => s
  | some o =>
    if o.stream && decide (0 < o.written) then doneOut o .ok 0 0 0 (modDec (fun d => { d with outDescs := d.outDescs.drop 1 }) s) else s

/-! ## Prefill and the verification step (R127 to R130) -/

/-- The indices of a node's ancestors and itself, root first; `fuel` is at least its depth. -/
def chainOf (h : List Node) : Nat → Nat → List Nat
  | 0, _ => []
  | fuel + 1, i =>
    match h[i]? with
    | none => []
    | some n => if n.depth ≤ 1 then [i] else chainOf h fuel n.parent ++ [i]

/-- The hatch's nodes as query nodes from position `P` on (R129). -/
def hatchNodes (P : Nat) (h : List Node) : List QNode :=
  h.zipIdx.map (fun n => ⟨P + n.1.depth - 1, n.1.token, (chainOf h 17 n.2).dropLast⟩)

/-- The nodes of depth d + 1: the best `w` candidates of the nodes `level` of depth d (R128 steps 2, 3). `probs` gives the draft's
probabilities after a node. A NaN score ranks as −Inf: R128 gives it no place. (DESIGN CHOICE: log entry 80) -/
def growLevel (h : List Node) (level : List Nat) (d w : Nat) (probs : Nat → List F32) : List Node :=
  let cands := level.flatMap (fun i =>
    ((probs i).zipIdx).map (fun q => (fmul ((h[i]?).elim 0 (·.score)) q.1, i, q.2)))
  let best := (ranking (cands.map (fun c => if isNan c.1 then negInf else c.1))).take w
  best.filterMap (fun r => (cands[r.2]?).map (fun c => { depth := d + 1, parent := c.2.1, token := c.2.2, score := c.1 }))

/-- Grow the hatch from depth `d` (R128 step 4: `limit` is the last depth allowed). (DEDUCED: log entry 49) -/
def growHatch (w : Bytes) (ctx : List (Nat × KvRows)) (P : Nat) (widths : List Nat) (limit : Nat) : Nat → Nat → List Node → List Node
  | 0, _, h => h
  | fuel + 1, d, h =>
    if limit ≤ d then h
    else
      let level := (List.range h.length).filter (fun i => (h[i]?).any (fun n => n.depth == d))
      let run := forward w ctx (hatchNodes P h)
      let probs := fun i => softmax (logits w (run.xs.getD i []))
      growHatch w ctx P widths limit fuel (d + 1) (h ++ growLevel h level d (widths.getD d 0) probs)

/-- P, the first position not yet committed. -/
def nextPos (d : Session) : Nat := d.inputCnt + d.outputs.length

/-- Outputs still allowed by MAX_NEW and, in a replay, by OUTPUT_COUNT (R31). (DESIGN CHOICE: log entry 51) -/
def outputsAllowed (d : Session) : Nat :=
  match d.rp with
  | some r => min (outputsLeft d) (r.outCount - d.outputs.length)
  | none => outputsLeft d

/-- The hatch of the next step (R128), over the draft's KV of the positions that its window includes. (DEDUCED: log entry 49) -/
def hatchOf (s : State) (d : Session) : List Node :=
  let root : Node := { depth := 1, parent := 0, token := d.root, score := one32 }
  let limit := min (hatchDepth d.width) (min (capacity s d - nextPos d) (outputsAllowed d))
  if d.draft.isEmpty || decide (limit < 2) then [root]
  else growHatch d.draft (draftKv s d) (nextPos d) d.width limit 16 1 [root]

/-- The stop reason at a path of `n` outputs whose last token is `t` and that ends before position `p` (R130, R131); a replay that has
OUTPUT_COUNT tokens stops as a host finish would (R31). -/
def stopReason (s : State) (d : Session) (t n p : Nat) : Nat :=
  let done := d.outputs.length + n
  if (sStops d.sampling).any (fun x => x != 0xFFFFFFFF && x == t) then 2
  else if decide (sMaxNew d.sampling ≤ done) then 1
  else if decide (capacity s d ≤ p) then 3
  else if d.rp.any (fun r => decide (r.outCount ≤ done)) then 4
  else 0

/-- Acceptance (R130): path nodes, the next root, the stop reason, and the logits of the path nodes. `xs` are the residual streams of the hatch. -/
def acceptLoop (s : State) (d : Session) (w : Bytes) (h : List Node) (xs : List (List F32)) :
    Nat → List Nat → List (List F32) → List Nat × Nat × Nat × List (List F32)
  | 0, path, ls => (path, 0xFFFFFFFF, 0, ls)
  | fuel + 1, path, ls =>
    let n := path.getLastD 0
    let p := nextPos d + path.length
    let z := logits w (xs.getD n [])
    let ls := ls ++ [z]
    let why := stopReason s d ((h[n]?).elim 0 (·.token)) path.length p
    if why != 0 then (path, 0xFFFFFFFF, why, ls)
    else
      let t := sample d.seed d.sampling z p
      match (List.range h.length).find? (fun c => (h[c]?).any (fun x => decide (1 < x.depth) && x.parent == n && x.token == t)) with
      | some c => acceptLoop s d w h xs fuel (path ++ [c]) ls
      | none => (path, t, 0, ls)

/-- The tokens of the next chunk (R127). -/
def chunkTokens (d : Session) : List Nat := (d.inputs.drop (4096 * d.chunks)).take (chunkLast d + 1 - 4096 * d.chunks)

/-- The query nodes of a step or chunk (R127, R129). -/
def stepNodes (d : Session) (p : PendingStep) : List QNode :=
  if p.chunk then chainNodes p.first (chunkTokens d) else hatchNodes p.first p.hatch

/-- Other members take part in the session's attention and its vote (R150, R175). -/
def inRing (s : State) : Option Ring := (sessionRing s).filter ringShared

/-- What a step or chunk leaves once every node is evaluated (R127, R130): of a chunk the KV of its positions and, of the last one, the logits of
position INPUT_COUNT − 1; of a step the accepted path. (DEDUCED: log entry 49) -/
def finishStep (s : State) (d : Session) (w : Bytes) (p : PendingStep) (run : NodeRun) : PendingStep :=
  if p.chunk then
    { p with
      kv := run.kvs.zipIdx.map (fun r => (p.first + r.2, r.1))
      logits := if chunkLast d + 1 = d.inputCnt then [logits w (run.xs.getLastD [])] else []
      ready := true }
  else
    let a := acceptLoop s d w p.hatch run.xs (p.hatch.length + 1) [0] []
    { p with
      path := a.1.filterMap (fun i => (p.hatch[i]?).map (·.token)), nextRoot := a.2.1, stop := a.2.2.1
      kv := a.1.zipIdx.map (fun i => (p.first + i.2, run.kvs.getD i.1 [])), logits := a.2.2.2, ready := true }

/-- A step or chunk as it begins: evaluated at once in a single module, and over the ring exchange with other members (R150). -/
def startStep (s : State) (d : Session) (w : Bytes) (p : PendingStep) : PendingStep :=
  if (inRing s).isSome then p else { finishStep s d w p (forward w (heldKv s d) (stepNodes d p)) with voted := true }

/-- The verification step that begins (R128 to R130). (DEDUCED: log entry 49) -/
def computeStep (s : State) (d : Session) (w : Bytes) : PendingStep :=
  startStep s d w { first := nextPos d, hatch := hatchOf s d, path := [], nextRoot := 0xFFFFFFFF, stop := 0, kv := [], logits := [], chunk := false,
                    ready := false, voted := false, digest := none }

/-- The prefill chunk that begins (R127). (DEDUCED: log entry 49) -/
def computeChunk (s : State) (d : Session) (w : Bytes) : PendingStep :=
  startStep s d w { first := 4096 * d.chunks, hatch := [], path := [], nextRoot := 0, stop := 0, kv := [], logits := [], chunk := true, ready := false
                    voted := false, digest := none }

/-- The digest of a step or chunk (R157). -/
def stepDigest (d : Session) (p : PendingStep) : BitVec 64 :=
  let kv := p.kv.flatMap (fun x => x.2.flatten)
  if p.chunk then
    crc64 (BitVec.ofNat 64 (2 ^ 63 + d.chunks)) (leBytes 4 p.first ++ kv ++ p.logits.flatMap wordBytes)
  else
    crc64 (BitVec.ofNat 64 d.steps) (leBytes 4 p.first ++ kv ++
      ((p.path.zip p.logits).flatMap (fun x => leBytes 4 x.1 ++ wordBytes x.2)) ++
      leBytes 4 (if p.stop = 0 then p.nextRoot else 0xFFFFFFFF) ++ leBytes 1 p.stop)

/-- The session stroke at which the digest of the step or chunk invoked at `S` is published (R158, Table 6-4): after the last layer's exchange where the
model has more layers than the strokes of that table hold. (DEDUCED: log entry 54) -/
def digestStroke (s : State) (S : Nat) (chunk : Bool) : Nat :=
  max (if chunk then S + spanOf s .decode 1 else S + 204) (outputStroke S (fullShape s).layers)

/-- The name of member `i`'s digest (R153, R158). -/
def digestName (i epoch at_ : Nat) : DatumName := { stroke := at_, member := i, unit := 546, epoch := epoch, slot := 0x4000 }

/-- An action of the ring engine in a step: at session stroke `at_` it reads `ins` and sends `outs` (R150, R158). (DEDUCED: log entry 43) -/
def exchAction (e : Exch) (at_ : Nat) (ins outs : List DatumName) (id : Nat) : Action :=
  { id := id, work := .decode, plate := 0, unit := 546, start := at_, due := at_, inputs := ins, reads := [], steps := []
    outputs := outs.zipIdx.map (fun n => (n.1, 0, n.2)), stores := [], checked := [], sends := true, trigger := none, exch := some e
    twin := false, running := false, consumed := [], poisoned := false }

/-- The exchange of a step or chunk invoked at `S` (R150, R153, R158): for each layer the partials and the merged u, then the digest. -/
def exchActions (s : State) (d : Session) (r : Ring) (p : PendingStep) (S : Nat) : List (Nat → Action) :=
  let sh := fullShape s
  let hi := maxNat ((stepNodes d p).map (·.pos))
  let H := sh.heads
  let us := fun (l : Nat) => if l = 0 then [] else awaitedOutputs r H S (l - 1)
  (List.range sh.layers).flatMap (fun l =>
    [exchAction (.partials l) (partialStroke S l) (us l) (partialNames r H S hi l),
     exchAction (.merged l) (outputStroke S l) (awaitedPartials r H S hi l) (if (headsFor r H r.index).isEmpty then [] else [outputName r S l r.index])]) ++
  [exchAction .digest (digestStroke s S p.chunk) (us sh.layers) [digestName r.index r.epoch (digestStroke s S p.chunk)]]

/-- The ring exchange of the step that begins is instantiated. -/
def addExchange (d : Session) (p : PendingStep) (S : Nat) (s : State) : State :=
  match inRing s with
  | none => s
  | some r =>
    let acts := (exchActions s d r p S).zipIdx.map (fun f => f.1 (s.prs.nextAction + f.2))
    modPrs (fun q => { q with actions := q.actions ++ acts, nextAction := q.nextAction + acts.length }) s

/-- The session stroke in which a step or chunk invoked at `S` commits (R158, Table 6-4): its plates' last stroke; a step's comes past its digest, and
a chunk's digest goes out in its last stroke. A ring adds no stroke to it, and a single module saves none (R25). (DEDUCED: log entry 48) -/
def commitStroke (s : State) (S : Nat) (chunk : Bool) : Nat :=
  let last := S + maxNat ((if chunk then [1] else [1, 2]).map (spanOf s .decode))
  max last (digestStroke s S chunk + (if chunk then 0 else 1))

/-- Invoke the session's plates for its next step or chunk at session stroke `resumeAt`, and the ring exchange with it (R123, R45, R150).
PLATES names a plate from its first invocation on, also when the attempt is rolled back. (DEDUCED / DESIGN CHOICE: log entries 48, 78) -/
def beginStep (p : PendingStep) (kinds : List Nat) (s : State) : State :=
  match s.dec with
  | none => s
  | some d =>
    let digs := (kinds.flatMap (activeOf s .decode)).filterMap (fun a => (configAt s a.plate).map (·.digest))
    let S := d.resumeAt
    let s := modDec (fun d => { d with
      invoked := S
      lastAt := commitStroke s S p.chunk
      exch := []
      plates := digs.foldl (fun l x => if l.contains x then l else l ++ [x]) d.plates
      pendStep := some p }) s
    addExchange d p S (kinds.foldl (fun st k => invokeKind .decode none k S st) s)

/-- The session may begin a step or chunk in state `st`: at a boundary, its session stroke reached, its members' opens equal, and no
joining view to be installed first (R173). -/
def mayStep (s : State) (d : Session) (st : Nat) : Bool :=
  d.state == st && atBoundary s && decide (d.resumeAt ≤ sessionStroke s .decode) && d.opensSeen && !parkWhy s d st && !d.finishReq &&
    (sessionRing s).all (fun r => r.mask == r.alive)

/-- What a commit leaves in the session (R132): the outputs, the digest's stream and the next root together. -/
def commitStep (d : Session) (p : PendingStep) (S : Nat) : Session :=
  let d := { d with pendStep := none, exch := [], resumeAt := S, twinRetry := false, replayed := false }
  if p.chunk then { d with chunks := d.chunks + 1, kept := (p.logits.head?).getD d.kept }
  else { d with outputs := d.outputs ++ p.path, steps := d.steps + 1, root := p.nextRoot }

/-- After the last chunk (R120, R124, R128): the session stops when the context is full, or draws its first root. A finish
that waits at this boundary gives its reason 4 also then. (DEDUCED: log entry 50) -/
def afterChunk (s : State) : State :=
  match s.dec with
  | none => s
  | some d =>
    if 4096 * d.chunks < d.inputCnt then settle s
    else if decide (capacity s d ≤ d.inputCnt) && !d.finishReq then stopSession 3 .ok true s
    else settle (modDec (fun d => { d with state := 4, root := sample d.seed d.sampling d.kept d.inputCnt }) s)

/-- The digest data of the other members for the pending step or chunk that have arrived (R158). -/
def digestData (s : State) (d : Session) (p : PendingStep) (r : Ring) : List (Nat × Datum) :=
  ((membersOf r.alive).filter (· != r.index)).filterMap (fun i =>
    (s.prs.data.find? (fun x => x.work == .decode && x.name == digestName i r.epoch (digestStroke s d.invoked p.chunk))).map (fun x => (i, x)))

/-- The digests of the pending step or chunk that this member holds: its own once published, and those that have arrived (R158). -/
def heldDigests (s : State) (d : Session) (p : PendingStep) (r : Ring) : List (Nat × BitVec 64) :=
  (p.digest.toList.map (fun v => (r.index, v))) ++ (digestData s d p r).map (fun x => (x.1, BitVec.ofNat 64 (leNat x.2.bytes)))

/-- A step or chunk with this member's own digest: the member of a view of one computes it as the step commits, and no vote asks for it (R157, R175).
A finish that has been requested is the step's stop reason when it meets no other (R131). -/
def withDigest (d : Session) (p : PendingStep) : PendingStep :=
  if p.digest.isSome then p
  else { p with digest := some (stepDigest d (if !p.chunk && p.stop == 0 && d.finishReq then { p with stop := 4 } else p)) }

/-- The digests of a step or chunk that commits are kept for view frames, and their data are used up. -/
def keepDigests (s : State) (d : Session) (p0 : PendingStep) : State :=
  if (sessionRing s).isNone then s
  else
    let p := withDigest d p0
    let at_ := digestStroke s d.invoked p.chunk
    dropData (fun x => x.name.unit == 546 && x.name.slot == 0x4000 && x.name.stroke == at_)
      (modRing (fun r => { r with digests := heldDigests s d p r }) s)

/-- What a commit writes to HBM (R110, R112, R132, R146): the KV of its positions in every storage here of their stretch, and the draft's. -/
def commitWrites (s : State) (d : Session) (p : PendingStep) : List (Nat × Bytes) :=
  kvWrites s d p.kv ++ draftWrites s d p.first (if p.chunk then chunkTokens d else p.path)

/-- STEP_COMMIT of a pending step or chunk that its members have voted for (R132, R159): a commit whose KV cannot be written ends the session.
(DEDUCED: log entry 49) -/
def commitPending (s : State) : State :=
  match s.dec with
  | none => s
  | some d =>
    match d.pendStep with
    | none => s
    | some p =>
      if storeStuck (commitWrites s d p) s then decodeFault .dataPoisoned s
      else
        let s := modDec (fun d => commitStep d p (d.lastAt + 1)) (keepDigests (storeRows (commitWrites s d p) s) d p)
        if p.chunk then afterChunk s
        else
          let stop := if p.stop != 0 then p.stop else if d.finishReq then 4 else 0
          let s := emitTokens (stop != 0) p.first p.path s
          if stop != 0 then stopSession stop .ok true s
          else settle (streamDone s)

/-- A pending step or chunk can commit (R132, Table 6-4): the vote has passed, its plates' actions are complete, twin halves have been compared, and the
commit stroke has come. (DEDUCED: log entry 49) -/
def mayCommit (s : State) : Bool :=
  s.dec.any (fun d => decide (d.state = 3 ∨ d.state = 4) && d.pendStep.any (fun p => p.ready && p.voted) && decide (d.lastAt ≤ sessionStroke s .decode)) &&
    !workBusy s .decode && s.prs.checks.all (fun c => c.work != .decode)

/-- The last layer's exchange of a step of the ring is done: its nodes are evaluated, and its digest stands (R130, R157). A finish that has been
requested is the step's stop reason when it meets no other (R131). (DEDUCED: log entry 49) -/
def evaluateStep (s : State) : State :=
  match s.dec, s.weights, inRing s with
  | some d, some w, some r =>
    match d.pendStep with
    | none => s
    | some p =>
      let nodes := stepNodes d p
      let x : Exchange := { S := d.invoked, nodes := nodes, hi := maxNat (nodes.map (·.pos)), data := d.exch }
      let q := finishStep s d w.bytes p (sharedRun w.bytes r x (heldKv s d) (shapeOf w.bytes).layers)
      let q := if !q.chunk && q.stop == 0 && d.finishReq then { q with stop := 4 } else q
      modDec (fun d => { d with pendStep := some { q with digest := some (stepDigest d q) } }) s
  | _, _, _ => s

/-- The next chunk runs; with nothing left of its plates' actions it commits at once (R127). (DEDUCED: log entry 49) -/
def prefillNext (s : State) : State :=
  match s.dec, s.weights with
  | some d, some w =>
    if mayCommit s then commitPending s
    else if mayStep s d 3 then
      if decodePoisoned s then decodeFault .dataPoisoned (countDraft s)
      else
        let s := beginStep (computeChunk s d w.bytes) [1] s
        if mayCommit s then commitPending s else s
    else if d.state = 3 then settle s
    else s
  | _, _ => s

/-- VERIFICATION_STEP (R128 to R130): the hatch is grown and evaluated, and acceptance finds the path. -/
def execVerificationStep (s : State) : Out :=
  .next <|
    match s.dec, s.weights with
    | some d, some w =>
      if mayStep s d 4 then
        if decodePoisoned s then decodeFault .dataPoisoned (countDraft s)
        else beginStep (computeStep s d w.bytes) (if hatchDepth d.width ≤ 1 then [1] else [1, 2]) s
      else if d.state = 4 then settle s
      else s
    | _, _ => s

/-- The session leaves PARKED for the state it came from, at the session stroke that follows its last committed step
(R45, R125). (DEDUCED: log entry 48) -/
def resume (d : Session) (s : State) : State :=
  modDec (fun x => { x with state := d.parkedIn, base := s.prs.stroke - d.frozen }) s

/-- SESSION_RESUME (R45, R125): the session leaves PARKED when no condition holds. -/
def execSessionResume (s : State) : Out :=
  .next <|
    match s.dec with
    | none => s
    | some d =>
      if d.state != 5 then s
      else if d.finishReq then settle s
      else if parkWhy s d d.parkedIn then s
      else resume d s

/-- TWIN_MISMATCH of a decode session (R73): the step's data are discarded and the step is replayed once from the stroke that
follows the last committed step; a second disagreement stops the session. -/
def twinReplay (s : State) : State :=
  match s.dec with
  | none => s
  | some d =>
    if d.twinRetry then stopSession 5 .digestDisagree true s
    else
      let s := dropData (fun x => x.work == .decode && decide (d.resumeAt ≤ x.name.stroke)) (dropActions .decode s)
      modDec (fun d => { d with pendStep := none, exch := [], twinRetry := true, base := s.prs.stroke - d.resumeAt }) s

/-! ## Replay-verify (R30 to R32) -/

/-- A verdict before the run (R31 steps 2 to 4). (DESIGN CHOICE: log entry 51) -/
def verdict (j : Job) (v : Nat) (s : State) : State := finish j .ok (leBytes 1 v ++ zeros 15) s

/-- The proof in a REPLAY_VERIFY payload. -/
def rvProof (j : Job) : Bytes := slice j.payload 0xA40 12320

/-- A session on which no replay may run: it has produced output or stopped, lacks the draft that its hatch needs, or runs one already (R30).
(DESIGN CHOICE: log entry 51) -/
def replayRefused (d : Session) : Bool :=
  !d.outputs.isEmpty || d.state == 6 || d.rp.isSome || (decide (1 < hatchDepth d.width) && d.draft.isEmpty)

/-- The session takes up the proof's determinants and begins anew, whatever it had begun (R31 step 5); with its plates not yet active it begins when
it is READY (R123). -/
def replayStart (r : Replay) (ts : List Nat) (hf : Bytes) (s : State) : State :=
  let s := dropData (fun x => x.work == .decode) (dropActions .decode s)
  let s := modDec (fun d => { d with
    seed := slice r.proof 0x220 32, sampling := slice r.proof 0x240 32, hostField := hf, inputCnt := ts.length, inputs := ts
    chunks := 0, kept := [], pendStep := none, exch := [], twinRetry := false, rp := some r }) s
  if s.dec.any (fun d => d.state != 1) then startPrefill s else s

/-- Step 4 and the start of step 5 of R31, once both buffers have been read. Inputs that the context cannot hold, or none, stop the run before it
commits a token; a proof of no output has run when nothing has. (DESIGN CHOICE: log entry 51) -/
def replayRun (j : Job) (toks hf : Bytes) (s : State) : State :=
  let pf := rvProof j
  let ts := (List.range (toks.length / 4)).map (fun i => field toks (4 * i) 4)
  match sessionAt s (arg j 0 4) with
  | none => answer j .badArg s
  | some d =>
    let vocab := s.weights.elim 0 (fun x => (shapeOf x.bytes).vocab)
    if replayRefused d then answer j .notIdle s
    else if sha512 toks != slice pf 0x160 64 || sha512 hf != slice pf 0x1A0 64 then verdict j 1 s
    else if ts.any (fun t => decide (vocab ≤ t)) then answer j .badArg s
    else
      let r : Replay := { mb := j.mb, order := j.order, outCount := field pf 0x264 4, outDigest := slice pf 0x1E0 64, proof := pf }
      if r.outCount = 0 || ts.isEmpty || decide (capacity s d < ts.length) then
        stopSession (if r.outCount = 0 then 4 else 3) .ok true (modDec (fun d => { d with rp := some r }) (waitJob j 2 s))
      else waitJob j 2 (replayStart r ts hf s)

/-- The host-field block has been read, or its read has failed. -/
def replayFields (j : Job) (r : Except Status Bytes) (s : State) : State :=
  match r with
  | .error st => answer j st s
  | .ok hf => replayRun j (j.data.headD []) hf s

/-- The input token buffer has been read, or its read has failed: the host-field block comes next. -/
def replayTokens (j : Job) (r : Except Status Bytes) (s : State) : State :=
  match r with
  | .error st => answer j st s
  | .ok toks =>
    let j := { j with data := [toks] }
    let s := modJob j.order (fun x => { x with data := [toks] }) s
    let v := arg j 0x10 8
    let n := arg j 0x18 4
    match decodeAddr v with
    | .host a => waitJob j 1 (hostReadReq 0 a n (.replayFields j.mb j.order) s)
    | .dev a =>
      let r := devRead j.bad a n s
      replayFields j r.1 r.2
    | .bad => answer j .badArg s

/-- REPLAY_VERIFY (0x0530; R30, R31). R30 orders its two refusals nowhere: the payload is judged first. (DESIGN CHOICE: log entry 51) -/
def execReplayVerify (m : MbReads) (sigOk : Bool) (s : State) : Out :=
  .next <| onReads m 0x0530 s fun j =>
    let pf := rvProof j
    match sessionAt s (arg j 0 4) with
    | none => answer j .badArg s
    | some d =>
      if !lenIs j 14944 || arg j 4 4 != 0 || arg j 0x1C 4 != 0 || badAddr (arg j 8 8) || badAddr (arg j 0x10 8) ||
          field pf 0 4 != 0x4650584F || field pf 4 2 != 1 || field pf 0xC 4 != 0x3020 then answer j .badArg s
      else if replayRefused d then answer j .notIdle s
      else if sha512 (slice j.payload 0x20 2592) != slice pf 0x1DC0 64 || !sigOk then answer j .signatureInvalid s
      else if field pf 6 2 != 1 then verdict j 3 s
      else if !s.weights.any (fun x => x.digest == slice pf 0xE0 64) then verdict j 4 s
      else fetchSource j sigOk (arg j 8 8) (4 * field pf 0x260 4) 0 noEarly (replayTokens j) s

end Sys2Proof.Machine
end

