-- ==== Sys2Proof/Machine/Copy.lean ====
section
/-! DEFINITION. Stretch-copy frames (TYPE 3) of rebuilt mirrors and joining spares (08_fault_recovery.md R169, R173): their names and
bytes, sending them, and what a member does with a copied datum. -/

namespace Sys2Proof.Machine

/-- What a copied datum holds, as its SLOT: the KV rows of a position, the draft's rows of a position, or the session's progress.
(DESIGN CHOICE: log entry 56) -/
def copyKv : Nat := 0
def copyDraft : Nat := 1
def copySession : Nat := 2

/-- The name of a copied datum; STROKE holds the position. (DESIGN CHOICE: log entry 56) -/
def copyName (r : Ring) (p slot : Nat) : DatumName := { stroke := p, member := r.index, unit := 546, epoch := r.epoch, slot := slot }

/-- A name is that of a copied datum. -/
def isCopy (n : DatumName) : Bool := n.unit == 546 && decide (n.slot < 0x4000)

/-- The committed positions that lie in stretch `k`. -/
def stretchPositions (s : State) (d : Session) (k : Nat) : List Nat :=
  (List.range (committed d)).filter (fun p => p / 4096 / stretchBlocks s d == k)

/-- A stored row of a committed position of stretch `k` is poisoned. -/
def stretchPoisoned (s : State) (d : Session) (k : Nat) : Bool :=
  let sh := fullShape s
  (stretchPositions s d k).any (fun p => (storeOf s k).any (fun base =>
    (List.range (2 * sh.layers * sh.kvHeads)).any (fun i => linePoisoned s (kvRowAt sh (stretchBlocks s d) base p i) sh.hd)))

/-- The committed positions of the stretches `ks` go to member `dest` (R169, R173); a poisoned row is a poisoned KV read (R135).
(DESIGN CHOICE: log entry 56) -/
def copyStretches (dest : Nat) (ks : List Nat) (s : State) : State :=
  match s.dec, s.ring with
  | some d, some r =>
    if ks.any (stretchPoisoned s d) then decodeFault .dataPoisoned s
    else
      let s := emit (.control dest (.stretchCopy (ks.headD 0 * r.blocks) (ks.length * r.blocks))) s
      ks.foldl (fun st k => (stretchPositions s d k).foldl (fun st p => sendPieces 3 dest (copyName r p copyKv) (readKv s d p).flatten st) st) s
  | _, _ => s

/-- What a joining member needs of the session: its state and counts, its tokens, the changes of its membership, its members at open and who holds which stretch.
(DESIGN CHOICE: log entry 56) -/
def sessionBytes (d : Session) (r : Ring) : Bytes :=
  leBytes 1 (if d.state = 5 then d.parkedIn else d.state) ++ leBytes 4 d.steps ++ leBytes 4 d.chunks ++ leBytes 8 d.resumeAt ++ leBytes 4 d.root ++
    leBytes 4 d.inputs.length ++ leBytes 4 d.outputs.length ++ leBytes 4 d.changes.length ++ tokenBytes d.inputs ++ tokenBytes d.outputs ++
    d.changes.flatMap changeBytes ++ leBytes 4 d.openMask.toNat ++ (List.range r.count).flatMap (fun i => leBytes 1 (r.holders.getD i 32) ++ fit 64 (r.ids.getD i []))

/-- The draft's window and the session's progress go to a joining spare, before the stretch itself (R173 step 5). (DESIGN CHOICE: log entry 56) -/
def copySessionTo (dest : Nat) (s : State) : State :=
  match s.dec, s.ring with
  | some d, some r =>
    let s := (draftKv s d).foldl (fun st x => sendPieces 3 dest (copyName r x.1 copyDraft) x.2.flatten st) s
    sendPieces 3 dest (copyName r 0 copySession) (sessionBytes d r) s
  | _, _ => s

/-- Token ids as they lie in bytes (R24). -/
def tokensAt (b : Bytes) (off n : Nat) : List Nat := (List.range n).map (fun i => field b (off + 4 * i) 4)

/-- The session of a spare is READY, and has taken up nothing of the ring's yet (R173 step 3). -/
def spareReady (d : Session) : Bool := d.state == 2 || (!d.opensSeen && (d.state == 3 || (d.state == 5 && d.parkedIn == 3)))

/-- A joining spare takes up the session where its holder sent it: it begins at the session stroke that follows the last committed step
(R173 step 4), under its own identity (R174). (DESIGN CHOICE: log entry 56) -/
def joinSession (b : Bytes) (s : State) : State :=
  let ins := field b 21 4
  let outs := field b 25 4
  let chg := field b 29 4
  let c := 33 + 4 * (ins + outs)
  let m := c + 16 * chg + 4
  let change := fun (i : Nat) =>
    let e := c + 16 * i
    ({ step := field b e 4, stroke := field b (e + 4) 6, kind := field b (e + 10) 1, member := field b (e + 11) 1, taker := field b (e + 12) 1 } : Change)
  let s := modRing (fun r => { r with
    holders := (List.range r.count).map (fun i => field b (m + 65 * i) 1)
    ids := ((List.range r.count).map (fun i => slice b (m + 65 * i + 1) 64)).set r.index (identityDigest s) }) s
  if !s.dec.any spareReady || field b 0 1 < 3 then s
  else
    modDec (fun d => ((List.range chg).map change).foldl (fun d c => logChange c d) { d with
      state := field b 0 1, steps := field b 1 4, chunks := field b 5 4, resumeAt := field b 9 8, root := field b 17 4
      inputs := tokensAt b 33 ins, outputs := tokensAt b (33 + 4 * ins) outs, opensSeen := true
      base := s.prs.stroke - field b 9 8, changes := [], chgDigest := zeros 64
      openMask := BitVec.ofNat 32 (field b (m - 4) 4), memberCnt := popcount (BitVec.ofNat 32 (field b (m - 4) 4)) }) s

/-- A copied datum is whole: its rows are stored in the storage of their stretch, or in the draft's window; poison stays with them
(R169, R173). (DESIGN CHOICE: log entry 56) -/
def takeCopy (n : DatumName) (x : Bytes × Bool) (s : State) : State :=
  match s.dec with
  | none => s
  | some d =>
    if n.slot = copySession then (if x.2 then decodeFault .dataPoisoned s else joinSession x.1 s)
    else
      let rows := fun (sh : Shape) => chunksOf sh.hd x.1.length x.1
      let ws := if n.slot = copyKv then kvWrites s d [(n.stroke, rows (fullShape s))]
        else (rows (shapeOf d.draft)).zipIdx.map (fun r => (draftRowAt d n.stroke r.2, r.1))
      if storeStuck ws s then decodeFault .dataPoisoned s
      else if x.2 then ws.foldl (fun st w => markPoison w.1 w.2.length ((List.range (w.2.length / 8 + 1)).map (8 * ·)) st) (storeRows ws s)
      else storeRows ws s

end Sys2Proof.Machine
end

