-- ==== Sys2Proof/Machine/Ring.lean ====
section
/-! DEFINITION. The sequence ring: forming, status, dissolving and spares, the handshake and rekeys of its links, ring frames and
delimiters as they arrive, retransmission and keepalives (07_sequence_ring.md R139 to R155; 08_fault_recovery.md R160, R172, R173;
12_ports_and_links.md R236 to R243; 14_rings_and_buffer_pool.md R283, R284, R290). -/

namespace Sys2Proof.Machine

/-! ## RING_FORM and RING_SPARE_JOIN (R139, R140, R173) -/

/-- Entry `i` of MEMBER_IDS. -/
def memberId (p : Bytes) (i : Nat) : Bytes := slice p (0x10 + 64 * i) 64

/-- Step 1 of R140. -/
def formBad (s : State) (p : Bytes) : Bool :=
  let n := field p 8 1
  let b := field p 0xC 2
  let ids := (List.range n).map (memberId p)
  p.length != 2064 || !zeroAt p 0xB 1 || !zeroAt p 0xE 2 || field p 0 4 == 0 || decide (n < 2) || decide (32 < n) ||
    decide (n ≤ field p 9 1) || (field p 0xA 1 != 1 && field p 0xA 1 != 2) || b == 0 || decide (256 < b) || decide (1024 < n * b) ||
    ids.any allZero || !noDup ids || !zeroAt p (0x10 + 64 * n) (64 * (32 - n)) || memberId p (field p 9 1) != identityDigest s

/-- Ports 0 to 4 as a mask. -/
def portMask (l : List Nat) : Nat := sumNat (l.map (fun p => 2 ^ p))

/-- Step 2 of R140: the module is busy for a ring. -/
def formBusy (s : State) (n : Nat) : Bool :=
  s.ring.isSome || s.dec.isSome ||
    (ringPorts n).any (fun p => s.rdm.conns.any (fun c => c.port.val == p) || !(get5 s.ports p).txSa.isEmpty || !(get5 s.ports p).rxSa.isEmpty)

/-- The ring that a RING_FORM payload names, forming. -/
def newRing (p : Bytes) (j : Job) (spare : Bool) : Ring :=
  let n := field p 8 1
  setRoutes {
    id := field p 0 8, count := n, index := field p 9 1, rate := field p 0xA 1, blocks := field p 0xC 2
    ids := (List.range n).map (memberId p), params := p.take 9 ++ [0] ++ p.drop 10, ports := ringPorts n, state := 1, epoch := 0
    alive := maskOf (List.range n), former := some (j.mb, j.order), spare := spare, holders := List.range n, mirrors := []
    suspects := [], lostLinks := [], routes := [], admitted := [], joining := none, handing := false, answered := false, mask := maskOf (List.range n)
    frames := [], digests := [], failedMir := [], progress := [] }

/-- A port begins its bring-up in ring mode (R242). -/
def ringBringUp (rate port : Nat) (s : State) : State :=
  modPort port (fun p => { p with mode := 2, rate := rate, an := false, up := false, keyed := false, lock := 0, reason := 0, optOff := false,
                                  everUp := false, formed := 0, hs := {}, replay := [], ringQ := [], waiting := [], txCtr := 0, rxNext := 0,
                                  xoffIn := false, xoffOut := false, nakOut := false, resends := [] }) s

/-- Forming begins: the ports switch to ring mode, and the command waits for its links (R140 step 3). (DEDUCED: log entry 52) -/
def beginForm (j : Job) (spare : Bool) (s : State) : State :=
  if formBad s j.payload then answer j .badArg s
  else if formBusy s (field j.payload 8 1) then answer j .notIdle s
  else
    let r := newRing j.payload j spare
    waitJob j 0 (r.ports.foldl (fun st p => ringBringUp r.rate p st) { s with ring := some r })

/-- RING_FORM (0x0601, R140). -/
def execRingForm (mb : MbId) (s : State) : Out := .next <| onNewJob mb 0x0601 s fun j => beginForm j false s

/-- RING_SPARE_JOIN (0x0610, R172, R173). -/
def execRingSpareJoin (mb : MbId) (s : State) : Out := .next <| onNewJob mb 0x0610 s fun j => beginForm j true s

/-- Forming fails: the ports return to network mode and no ring exists (R140). (DEDUCED: log entry 52) -/
def formFails (st : Status) (s : State) : State :=
  match s.ring with
  | none => s
  | some r =>
    let s := r.ports.foldl (fun st p => releasePort 9 p st) { s with ring := none }
    match r.former.bind (fun f => jobAt s f.2) with
    | some j => conclude j st [] s
    | none => s

/-- Steps 4 and 5 of R140, and success, once every required link has ended its handshake. (DEDUCED: log entry 52) -/
def formCheck (s : State) : State :=
  match s.ring with
  | none => s
  | some r =>
    let ends := r.ports.map (fun p => (get5 s.ports p).formed)
    if r.state != 1 || ends.contains 0 then s
    else if ends.contains 2 then formFails .neighbourMismatch s
    else if ends.contains 3 then formFails .digestDisagree s
    else
      let s := modRing (fun r => { r with state := 2, former := none }) s
      match r.former.bind (fun f => jobAt s f.2) with
      | some j => conclude j .ok (leBytes 4 (r.id % 2 ^ 32) ++ leBytes 1 (portMask r.ports) ++ zeros 3) s
      | none => s

/-- RING_FORM_TIMEOUT (R140 step 3): a required link is not up 10 s after the command landed. (DEDUCED: log entry 52) -/
def execRingFormTimeout (mb : MbId) (s : State) : Out :=
  .next <|
    match s.ring with
    | none => s
    | some r => if r.state = 1 && r.former.any (fun f => f.1 == mb.val) then formFails .linkDown s else s

/-- The ring that a command names. -/
def ringArg (s : State) (j : Job) : Option Ring := ringOf s (arg j 0 4)

/-- RING_STATUS (0x0602, Table 7-4). -/
def execRingStatus (mb : MbId) (s : State) : Out :=
  .next <| onNewJob mb 0x0602 s fun j =>
    if !lenIs j 8 || arg j 4 4 != 0 then answer j .badArg s
    else match ringArg s j with
    | none => answer j .badArg s
    | some r =>
      finish j .ok (leBytes 1 r.state ++ leBytes 1 r.count ++ leBytes 1 r.index ++ leBytes 1 r.epoch ++ bvBytes 4 r.alive ++
        leBytes 2 r.blocks ++ leBytes 1 r.rate ++
        leBytes 1 (portMask ((List.range 5).filter (fun p => (get5 s.ports p).mode == 2))) ++ zeros 4) s

/-- A decode session is open on the ring. -/
def ringInUse (s : State) : Bool := s.dec.any (fun d => d.ring != 0)

/-- RING_DISSOLVE (0x0603, R142). -/
def execRingDissolve (mb : MbId) (s : State) : Out :=
  .next <| onNewJob mb 0x0603 s fun j =>
    if !lenIs j 8 || arg j 4 4 != 0 then answer j .badArg s
    else match ringArg s j with
    | none => answer j .badArg s
    | some r =>
      if ringInUse s then answer j .notIdle s
      else answer j .ok (r.ports.foldl (fun st p => releasePort 9 p st) { s with ring := none })

/-- The identity that a ring expects of a member: the admitted one, or that of its formation (R140 step 4, R173). -/
def expectedId (r : Ring) (i : Nat) : Bytes :=
  match r.admitted.find? (·.1 == i) with
  | some a => a.2
  | none => r.ids.getD i []

/-- RING_ADMIT (0x0611, R172, R173): the ring-parameter digest takes the spare's entry in place of the failed member's, and the
ports that face it come up again. (DEDUCED: log entry 53) -/
def execRingAdmit (mb : MbId) (s : State) : Out :=
  .next <| onNewJob mb 0x0611 s fun j =>
    if !lenIs j 72 || !zeroAt j.payload 5 3 then answer j .badArg s
    else match ringArg s j with
    | none => answer j .badArg s
    | some r =>
      let i := arg j 4 1
      let id := slice j.payload 8 64
      if decide (r.count ≤ i) || r.alive.getLsbD i then answer j .notPermitted s
      else if r.state = 3 then answer j .busy s
      else if (membersOf r.alive).any (fun k => expectedId r k == id) then answer j .badArg s
      else
        let params := r.params.take (0x10 + 64 * i) ++ id ++ r.params.drop (0x10 + 64 * i + 64)
        let s := modRing (fun r => { r with admitted := (i, id) :: r.admitted.filter (·.1 != i), params := params }) s
        let near := r.ports.filter (fun p => facing r p == i && !(get5 s.ports p).up)
        answer j .ok (near.foldl (fun st p => ringBringUp r.rate p st) s)

/-- A ring port may train: its ring is forming, or it faces an admitted spare (R140, R173). -/
def ringMayTrain (s : State) (port : Nat) : Bool :=
  s.ring.any (fun r => r.ports.contains port && (r.state == 1 || r.admitted.any (fun a => a.1 == facing r port)))

/-! ## The handshake (R239, R241) -/

/-- The handshake of a port fails: a link that was keyed keeps its key, and the rekey is tried again (R241); a new link goes down
(Table 12-5). (DEDUCED: log entry 52) -/
def handshakeFails (port reason : Nat) (s : State) : State :=
  if (get5 s.ports port).keyed then
    modPort port (fun p => { p with sticky := setBit p.sticky 4, hs := { phase := 4 } }) s
  else
    let s := linkGoesDown port reason s
    if reason = 6 then formCheck (modPort port (fun p => { p with formed := 2 }) s) else s

/-- The keys of a finished handshake are installed, or kept until each direction switches. -/
def handshakeDone (port : Nat) (r : Ring) (h : Handshake) (tx rx : Bytes) (txId rxId : Nat) (s : State) : State :=
  if (get5 s.ports port).keyed then holdKeys port tx rx txId rxId s
  else
    let s := installKeys port tx rx txId rxId s
    formCheck (pumpAll port (modPort port (fun p => { p with formed := if h.ringDigest = ringDigest r then 1 else 3 }) s))

/-- The responder's part of a handshake (R239 step 2): it checks, encapsulates and answers; at the initiating end a first message asks for a rekey (R241). Both the encapsulation and the nonce are generate
requests: while the generator does not serve, the message is kept. (DEDUCED: log entry 53) -/
def answerHandshake (port : Nat) (h : Handshake) (s : State) : State :=
  match s.ring with
  | none => s
  | some r =>
    let p := get5 s.ports port
    if p.mode != 2 || !p.up then s
    else if initiates port then (if p.keyed && p.hs.phase = 0 then startHandshake port s else s)
    else if !h.sigOk || !h.decapOk then handshakeFails port 5 s
    else if h.identity != expectedId r (facing r port) then handshakeFails port 6 s
    else if !drbgGrants 3 3 s then modPort port (fun p => { p with hs := { p.hs with phase := 3, held := some h } }) s
    else
      let e := drbgTake 32 s
      let ct := bvBytes 1568 (Config.mlkemEncapCt h.kem e.1)
      let ss := bvBytes 32 (Config.mlkemEncapSs h.kem e.1)
      let n := drbgTake 32 e.2
      let a : Handshake := { sigOk := true, decapOk := true, identity := identityDigest s, ringDigest := ringDigest r, chain := s.kst.chain, sig := []
                             kem := ct, nonce := n.1 }
      let m := hsSign false (hsBytes true h) a n.2
      let k := hsKeys ss (hsBytes true h ++ hsBytes false m.1)
      let s := modPort port (fun p => { p with hs := { p.hs with phase := if p.hs.phase = 3 then 0 else p.hs.phase, held := none } })
        (emit (.handshake port false m.1) m.2)
      if idsBad k then s else handshakeDone port r h k.2.1 k.1 k.2.2.2 k.2.2.1 s

/-- RING_HANDSHAKE_INIT_RECEIVE (R239 step 2). -/
def execRingHandshakeInitReceive (port : PortId) (h : Handshake) (s : State) : Out := .next (answerHandshake port.val h s)

/-- RING_HANDSHAKE_RESPONSE_RECEIVE (R239 steps 3 and 4). -/
def execRingHandshakeResponseReceive (port : PortId) (h : Handshake) (s : State) : Out :=
  .next <|
    match s.ring with
    | none => s
    | some r =>
      let p := get5 s.ports port.val
      if p.mode != 2 || !p.up || p.hs.phase != 1 then s
      else if !h.sigOk || !h.decapOk then handshakeFails port.val 5 s
      else if h.identity != expectedId r (facing r port.val) then handshakeFails port.val 6 s
      else
        let k := hsKeys (bvBytes 32 (Config.mlkemDecaps p.hs.dk h.kem)) (p.hs.sentInit ++ hsBytes false h)
        if idsBad k then startHandshake port.val s else handshakeDone port.val r h k.1 k.2.1 k.2.2.1 k.2.2.2 s

/-- A handshake that waited for the generator goes on: the initiator's first message, or the answer to one that was kept (R239). -/
def goOnHandshake (port : Nat) (s : State) : State :=
  match (get5 s.ports port).hs.held with
  | some h => answerHandshake port h s
  | none => startHandshake port s

/-- The next key of one direction takes the current slot; the old key is destroyed and the switch counted (R241). (DEDUCED: log entry 54) -/
def switchKey (port dir : Nat) (s : State) : State :=
  let s := match slotAt s (linkSlot port dir true) with
    | some k => fillSlot { k with slot := linkSlot port dir false } (clearSlots (fun n => n == linkSlot port dir true) s)
    | none => s
  modPort port (fun p => { p with rekeyCnt := sat p.rekeyCnt }) s

/-- REKEY_SWITCH (R241): with every frame under the old key acknowledged, the sender goes over to the new one. -/
def execRekeySwitch (port : PortId) (s : State) : Out :=
  .next <|
    let p := get5 s.ports port.val
    if p.mode != 2 || !p.up || !p.keyed || p.hs.phase != 2 || !p.replay.isEmpty then s
    else
      let s := modPort port.val (fun p => { p with txId := p.hs.txId, txCtr := 0, keyNext := true, resends := [],
                                                   hs := if p.hs.rxKey.isEmpty then {} else { p.hs with phase := 5, txKey := [] } })
        (switchKey port.val 0 s)
      pumpAll port.val s

/-- REKEY_RETRY (R241): the initiator tries a rekey again that has failed, or that nothing has answered for 100 ms: the responder that refuses a message
sends nothing back. (DESIGN CHOICE: log entry 52) -/
def execRekeyRetry (port : PortId) (s : State) : Out :=
  .next <|
    let p := get5 s.ports port.val
    if p.mode == 2 && p.up && p.keyed && (p.hs.phase == 4 || p.hs.phase == 1) && initiates port.val then
      startHandshake port.val (modPort port.val (fun p => { p with sticky := if p.hs.phase = 1 then setBit p.sticky 4 else p.sticky }) s)
    else s

/-! ## Delimiters and retransmission (R236 to R238) -/

/-- The outstanding frames are sent again from ACK + 1, in order, up to the first that the peer's pause holds back; when the oldest has been
resent 8 times the link goes down (R238, Table 12-4). -/
def resendAll (port : Nat) (s : State) : State :=
  let p := get5 s.ports port
  let again := p.replay.takeWhile (fun f => !pausedFrame p f.type)
  if again.isEmpty then s
  else
    let s := again.foldl (fun st f => emitFrame port f st) { s with draw := s.draw + 1 }
    let s := modPort port (fun p => { p with
      resends := (p.resends.take again.length).map (· + 1) ++ p.resends.drop again.length, retx := satAdd 32 p.retx again.length }) s
    if 8 ≤ (get5 s.ports port).resends.headD 0 then linkGoesDown port 4 s else s

/-- A ring port that carries frames: up and keyed, its cable not lost (R162). -/
def ringLive (s : State) (port : Nat) : Bool :=
  let p := get5 s.ports port
  p.mode == 2 && p.up && p.keyed && s.ring.any (fun r => !r.lostLinks.contains (cableAt r.count r.index port))

/-- RING_DELIMITER_RECEIVE (R236, R237, R238): ACK frees the frames it covers, NAK asks for a resend, XOFF pauses. An ACK of a counter that has not
been sent under the key frees nothing. (DEDUCED: log entry 54) -/
def execRingDelimiterReceive (port : PortId) (x : Heard Delimiter) (s : State) : Out :=
  .next <|
    let d := x.item
    let s := countFec port.val x.cw s
    if !ringLive s port.val then s
    else
      let p := get5 s.ports port.val
      let left := if d.ack < p.txCtr then p.replay.filter (fun f => decide (d.ack < f.frameCtr)) else p.replay
      let s := modPort port.val (fun p => { p with
        replay := left
        resends := p.resends.drop (p.replay.length - left.length)
        peerNext := d.frame && d.keyNext
        xoffIn := d.xoff
        pauseRx := if d.xoff != p.xoffIn then sat p.pauseRx else p.pauseRx }) s
      let s := if d.nak then resendAll port.val s else s
      pumpAll port.val s

/-- RING_RETX_TIMEOUT (R237). -/
def execRingRetxTimeout (port : PortId) (s : State) : Out := .next (if ringLive s port.val then resendAll port.val s else s)

/-- RING_IDLE_DELIMITER (R236): no frame waits that may go. -/
def execRingIdleDelimiter (port : PortId) (s : State) : Out :=
  .next <|
    let p := get5 s.ports port.val
    if p.mode == 2 && p.up && p.ringQ.all (fun f => !canSend s port.val f.type f.payload.length) then
      emitDelimiter port.val (delimiterOf s port.val false) { s with draw := s.draw + 1 }
    else s

/-! ## Frames (R155, R283, R284, R290) -/

/-- The bytes of a datum from its fragments, and whether one carries poison. -/
def assemble (fr : List (Nat × Bytes × Nat)) (len : Nat) : Bytes × Bool :=
  (((List.range len).map (fun i =>
      match fr.find? (fun f => decide (f.1 ≤ i ∧ i < f.1 + f.2.1.length)) with
      | some f => f.2.1.getD (i - f.1) 0
      | none => 0)), fr.any (·.2.2 != 0))

/-- The actions of the session that still have to read a name. -/
def waitingFor (s : State) (w : Work) (n : DatumName) : Nat :=
  (s.prs.actions.filter (fun a => a.work == w && !a.running && a.inputs.contains n)).length

/-- Step 5 of R155: a fragment is stored, and a whole datum becomes present. It occupies the share until its consumers have read it (R44, R47); a
copied datum is taken up at once. Words of bad parity are counted as they are read (R285). -/
def storeFragment (port : Nat) (f : RingFrame) (s : State) : State :=
  let s := modBuf (fun b => { b with shares := mod5 b.shares port (fun x =>
    { x with fragments := x.fragments ++ [(f.name, f.offset, f.payload, f.bad.length)], cells := x.cells + fragCells f.payload }) }) s
  let s := shareSignal port s
  let fr := fragments s f.name
  if sumNat (fr.map (fun x => x.2.1.length)) < f.datumLen then s
  else
    let d := assemble fr f.datumLen
    let s := poolFail (sumNat (fr.map (·.2.2))) s
    if f.type = 3 then takeCopy f.name d (freeWhere (· == f.name) s)
    else modPrs (fun p => { p with data := p.data ++ [{ name := f.name, bytes := d.1, poison := d.2, readers := 0, work := .decode }] }) s

/-- Step 2 of R155: a frame for another member goes on. -/
def forwardFrame (port : Nat) (f : RingFrame) (r : Ring) (s : State) : State :=
  if f.hopsLeft = 0 then modPort port (fun p => { p with hopDrop := sat p.hopDrop }) s
  else match route r f.dest with
  | none => s
  | some (out, _) =>
    pumpAll out (modPort out (fun p => { p with ringQ := p.ringQ ++ [{ f with hopsLeft := f.hopsLeft - 1 }] }) s)

/-- The fragment or its datum is there already (R155 step 4). -/
def isDuplicate (s : State) (f : RingFrame) : Bool :=
  s.prs.data.any (fun d => d.name == f.name) || (fragments s f.name).any (fun x => x.1 == f.offset)

/-- A frame that is not accepted asks for its resend (Table 12-4). -/
def nak (port : Nat) (s : State) : State := modPort port (fun p => { p with nakOut := true }) s

/-- The frame is the first under a new key that its delimiter announced (R241). -/
def firstOfKey (p : Port) (f : RingFrame) : Bool :=
  p.peerNext && !p.hs.rxKey.isEmpty && (p.hs.phase == 2 || p.hs.phase == 5) && f.linkId == p.hs.rxId && f.frameCtr == 0

/-- The receive direction goes over to the new key (R241). -/
def switchReceive (port : Nat) (s : State) : State :=
  modPort port (fun p => { p with rxId := p.hs.rxId, rxNext := 0, peerNext := false,
                                  hs := if p.hs.phase = 5 then {} else { p.hs with rxKey := [] } }) (switchKey port 1 s)

/-- A frame that this member stores: a fragment of a datum or of a copied datum, for an open session (R155). -/
def storedType (f : RingFrame) : Bool := f.type == 1 || f.type == 3

/-- Its EPOCH is not the current one (R46). -/
def wrongEpoch (r : Ring) (f : RingFrame) : Bool := f.name.epoch != r.epoch

/-- Steps 2 to 5 of R155 on an accepted frame. The contents of control and keepalive frames have rows of their own. (DEDUCED: log entry 54) -/
def acceptFrame (port : Nat) (f : RingFrame) (r : Ring) (s : State) : State :=
  if f.dest != r.index then forwardFrame port f r s
  else if !storedType f || s.dec.isNone then s
  else if wrongEpoch r f then modPort port (fun p => { p with epochDrop := sat p.epochDrop }) s
  else if isDuplicate s f then modPort port (fun p => { p with dup := sat p.dup }) s
  else storeFragment port f s

/-- A frame that arrives is written to the share: a fragment for this member that it would store. -/
def opensFrame (s : State) (f : RingFrame) (r : Ring) : Bool :=
  storedType f && f.dest == r.index && s.dec.isSome && !wrongEpoch r f && !isDuplicate s f

/-- The share has no room for a fragment that is being written (R284). -/
def shareFull (s : State) (port : Nat) (f : RingFrame) (r : Ring) : Bool :=
  opensFrame s f r && decide (shareCells s < (get5 s.buf.shares port).cells + fragCells f.payload)

/-- A frame has overrun a share: it is rewound, counted and asked for again (R284). -/
def overrunShare (port : Nat) (s : State) : State :=
  nak port (modBuf (fun b => { b with
    sticky := setBit b.sticky 1
    shares := mod5 b.shares port (fun x => { x with overrun := sat x.overrun }) }) s)

/-- The initiator rekeys when the frame counter of the direction that it receives has reached 2^40 (R241). -/
def receiveLimit (port : Nat) (s : State) : State :=
  let p := get5 s.ports port
  if p.rxNext = 2 ^ 40 && p.hs.phase = 0 && initiates port then startHandshake port s else s

/-- A frame keeps to the ranges of Table 7-6: what does not is no ring frame, and nothing takes it up. (DEDUCED: log entry 54) -/
def frameFits (f : RingFrame) : Bool :=
  decide (1 ≤ f.type ∧ f.type ≤ 4 ∧ f.hopsLeft ≤ 16 ∧ f.offset % 64 = 0 ∧ 1 ≤ f.payload.length ∧ f.payload.length ≤ 8192) &&
    (f.offset + f.payload.length == f.datumLen || (f.payload.length % 64 == 0 && decide (f.offset + f.payload.length < f.datumLen)))

/-- RING_FRAME_RECEIVE (R155, R237, R241, R282, R284): its words enter the share before its tag is known, so one that finds no room overruns whatever its
tag, and one that fails its tag is rewound. -/
def execRingFrameReceive (port : PortId) (f : RingFrame) (s : State) : Out :=
  .next <|
    match s.ring with
    | none => s
    | some r =>
      if !ringLive s port.val || !frameFits f then s
      else if shareFull s port.val f r && !f.tagOk then overrunShare port.val s
      else
        let s := if f.tagOk && firstOfKey (get5 s.ports port.val) f then switchReceive port.val s else s
        let p := get5 s.ports port.val
        if !f.tagOk || f.linkId != p.rxId then
          nak port.val (modPort port.val (fun p => { p with tagFail := sat p.tagFail })
            (if opensFrame s f r then rewindFrame port.val (fragCells f.payload) s else s))
        else if p.rxNext < f.frameCtr then nak port.val s
        else if f.frameCtr < p.rxNext then modPort port.val (fun p => { p with dup := sat p.dup }) s
        else if shareFull s port.val f r then overrunShare port.val s
        else acceptFrame port.val f r (receiveLimit port.val (modPort port.val (fun p => { p with rxNext := p.rxNext + 1, nakOut := false }) s))

/-! ## Keepalives (R160) -/

/-- The payload of a keepalive (R160): the sender's session stroke, epoch and state. The state is that of Table 6-3, 0 with no session open.
(DEDUCED: log entry 54) -/
def keepaliveBytes (s : State) (r : Ring) : Bytes :=
  leBytes 8 (sessionStroke s .decode) ++ leBytes 1 r.epoch ++ leBytes 1 (s.dec.elim 0 shownState)

/-- KEEPALIVE_SEND (R160): a frame of TYPE 4 to the neighbour. -/
def execKeepaliveSend (port : PortId) (s : State) : Out :=
  .next <|
    match s.ring with
    | none => s
    | some r =>
      if !ringLive s port.val || !canSend s port.val 4 10 then s
      else
        let i := facing r port.val
        let f := { newFrame 4 i r.index noName 10 0 (keepaliveBytes s r) with hopsLeft := 1 }
        ctrLimits port.val (sendOn port.val f (emit (.control i (.keepalive (sessionStroke s .decode) r.epoch (s.dec.elim 0 shownState))) s))

/-- KEEPALIVE_RECEIVE (R160): the sender's session stroke is noted. -/
def execKeepaliveReceive (port : PortId) (src stroke _epoch _state : Nat) (s : State) : Out :=
  .next <|
    if ringLive s port.val then modRing (fun r => { r with progress := mapSet r.progress src stroke }) s else s

end Sys2Proof.Machine
end

