-- ==== Sys2Proof/Machine/Ports.lean ====
section
/-! DEFINITION. Ports: their commands, bring-up and loss, frames of network mode, receive channels and pauses
(12_ports_and_links.md R229 to R246; 14_rings_and_buffer_pool.md R281 to R288). -/

namespace Sys2Proof.Machine

/-! ## Commands (R245, R246) -/

/-- A port of a command. -/
def portArg (s : State) (j : Job) : Port := get5 s.ports (arg j 0 1)

/-- A remote-memory connection is open on a port. -/
def portConn (s : State) (port : Nat) : Bool := s.rdm.conns.any (fun c => c.port.val == port)

/-- The setting of `PORT_SET` takes effect: a port that is up goes down with reason 9 first, and the bring-up starts again, or the
port stays in electrical idle (R245). -/
def applySetting (port rate : Nat) (an : Bool) (s : State) : State :=
  let was := (get5 s.ports port).mode
  let s := linkGoesDown port 9 s
  if rate = 0 then
    modPort port (fun p => { p with mode := 0, rate := 0, an := an, optOff := true, everUp := false, lock := 0,
                                    reason := if was = 0 then p.reason else 9 }) s
  else modPort port (fun p => { p with mode := 1, rate := rate, an := an, optOff := false, everUp := false, lock := 0 }) s

/-- PORT_SET (0x0901). (DEDUCED: log entry 59) -/
def execPortSet (mb : MbId) (s : State) : Out :=
  .next <| onNewJob mb 0x0901 s fun j =>
    let n := arg j 0 1
    let rate := arg j 1 1
    let an := arg j 2 1 == 1
    let p := portArg s j
    if !lenIs j 8 || decide (4 < n) || decide (4 < rate) || decide (1 < arg j 2 1) || !zeroAt j.payload 3 5 then answer j .badArg s
    else if p.mode = 2 || portConn s n then answer j .notIdle s
    else if p.rate = rate && (decide (rate ≤ 1) || p.an == an) then answer j .ok s
    else answer j .ok (applySetting n rate an s)

/-- PORT_STATUS (0x0902). -/
def execPortStatus (mb : MbId) (s : State) : Out :=
  .next <| onNewJob mb 0x0902 s fun j =>
    if !lenIs j 8 || decide (4 < arg j 0 1) || !zeroAt j.payload 1 7 then answer j .badArg s
    else finish j .ok (leBytes 4 (lnkStatus (portArg s j)) ++ zeros 4 ++ leBytes 8 (portArg s j).txCtr) s

/-- MACSEC_SA_SET (0x0903; R232, R234, R246). A direction has one secure channel, whose SCI is the one set last. (DEDUCED / DESIGN CHOICE: log entries
59, 60) -/
def execMacsecSaSet (mb : MbId) (s : State) : Out :=
  .next <| onNewJob mb 0x0903 s fun j =>
    let n := arg j 0 1
    let tx := arg j 1 1 = 0
    let p := portArg s j
    let sas := if tx then p.txSa else p.rxSa
    if !lenIs j 48 || decide (4 < n) || decide (1 < arg j 1 1) || decide (3 < arg j 2 1) || arg j 3 1 != 0 || arg j 6 2 != 0 ||
        decide (2 ^ 30 < arg j 12 4) || arg j 28 4 != 0 then answer j .badArg s
    else if p.mode = 2 then answer j .notIdle s
    else if 2 ≤ sas.length then answer j .busy s
    else if sas.any (·.an == arg j 2 1) then answer j .duplicate s
    else if (slotFor s (arg j 4 2) 2).isNone then denySlot j s
    else
      let a : Sa := { an := arg j 2 1, slot := arg j 4 2, ssci := arg j 8 4, window := arg j 12 4, salt := slice j.payload 16 12
                      sci := arg j 40 8, pn := arg j 32 8 }
      let new := sas.map (fun x => { x with sci := a.sci }) ++ [a]
      let s := modPort n (fun p => saKeyed (if tx then { p with txSa := new } else { p with rxSa := new })) s
      let s := if tx && decide (0xC000000000000000 ≤ a.pn) then pnWarn n a.an s else s
      answer j .ok (netFlush n s)

/-- MACSEC_SA_CLEAR (0x0904, R246). -/
def execMacsecSaClear (mb : MbId) (s : State) : Out :=
  .next <| onNewJob mb 0x0904 s fun j =>
    let n := arg j 0 1
    let p := portArg s j
    let tx := arg j 1 1 = 0
    if !lenIs j 8 || decide (4 < n) || decide (1 < arg j 1 1) || decide (3 < arg j 2 1) || !zeroAt j.payload 3 5 then answer j .badArg s
    else if !((if tx then p.txSa else p.rxSa).any (·.an == arg j 2 1)) then answer j .badArg s
    else
      let drop := fun (l : List Sa) => l.filter (·.an != arg j 2 1)
      answer j .ok (modPort n (fun p => saKeyed (if tx then { p with txSa := drop p.txSa } else { p with rxSa := drop p.rxSa })) s)

/-- LINK_REKEY (0x0905; R241, R246). -/
def execLinkRekey (mb : MbId) (s : State) : Out :=
  .next <| onNewJob mb 0x0905 s fun j =>
    let p := portArg s j
    if !lenIs j 8 || decide (4 < arg j 0 1) || !zeroAt j.payload 1 7 then answer j .badArg s
    else if p.mode != 2 || !p.keyed then answer j .notPermitted s
    else if p.hs.phase != 0 then answer j .busy s
    else answer j .ok (beginRekey (arg j 0 1) s)

/-! ## Bring-up and loss (R242, R243) -/

/-- The port is being brought up. -/
def bringingUp (s : State) (port : Nat) : Bool :=
  let p := get5 s.ports port
  !p.up && (p.mode == 1 || (p.mode == 2 && !p.everUp && ringMayTrain s port))

/-- PORT_TRAIN_ATTEMPT (R242 step 3): a failed attempt shows in DOWN_REASON until the link comes up. -/
def execPortTrainAttempt (port : PortId) (ok : Bool) (s : State) : Out :=
  .next <| if bringingUp s port.val && !ok then modPort port.val (fun p => { p with reason := 2 }) s else s

/-- PORT_LINK_UP (R242 steps 4 and 5): all lanes lock. A ring port's initiator begins the handshake. -/
def execPortLinkUp (port : PortId) (s : State) : Out :=
  .next <|
    if !bringingUp s port.val then s
    else
      let s := modPort port.val (fun p => { p with up := true, lock := 15, reason := 0, everUp := true }) s
      if (get5 s.ports port.val).mode = 1 then netFlush port.val (modPort port.val saKeyed s)
      else if initiates port.val then startHandshake port.val s
      else s

/-- LINK_DOWN (R243), with the codewords seen up to it: reason 3 says that more than 64 of them could not be corrected within 1 ms.
(DEDUCED: log entry 59) -/
def execLinkDown (port : PortId) (reason : Heard Nat) (s : State) : Out :=
  .next (if (get5 s.ports port.val).up then linkGoesDown port.val reason.item (countFec port.val reason.cw s) else s)

/-! ## Receive channels (R286 to R288) -/

/-- The channel of a port's priority. -/
def channelOf (port priority : Nat) : Nat := port * 8 + priority

/-- The pause signal of a channel at an occupancy, with the pause frame that tells the sender and the port's XOFF_OUT (R247, R282, R288). -/
def signalAt (c occ : Nat) (s : State) : State :=
  match s.buf.channels[c]? with
  | none => s
  | some x =>
    let on := if x.high * 64 ≤ occ then true else if occ ≤ x.low * 64 then false else x.asserted
    if on == x.asserted then s
    else
      let s := emit (.pfcPause (c / 8) (c % 8) on) (modBuf (fun b => { b with channels := updAt (fun x => { x with asserted := on }) c b.channels }) s)
      modPort (c / 8) (fun p => { p with xoffOut := pauseMask s (c / 8 * 8) 8 != 0 }) s

/-- The pause signal of a channel after its occupancy has changed (R282). -/
def channelSignal (c : Nat) (s : State) : State := signalAt c ((s.buf.channels[c]?).elim 0 chanOcc) s

/-- Cells of an open packet of `n` that a channel has room for now (R284, R287). -/
def channelRoom (s : State) (c : Nat) (x : Channel) (n : Nat) : Nat :=
  let g := chanGuar s c x
  let occ := chanOcc x
  min n ((g - occ) + min (g + x.borrow * 64 - max occ g) (reserveFree s))

/-- A packet of `n` cells does not fit a channel now (R284, R287). -/
def channelFull (s : State) (c : Nat) (x : Channel) (n : Nat) : Bool := decide (channelRoom s c x n < n)

/-- An open packet is written into its channel as far as there is room, which its occupancy shows (R282), and is rewound: for want of room, counted
as an overrun (R284), or because a check has failed (R283). -/
def rewindPacket (port priority length : Nat) (s : State) : State :=
  let c := channelOf port priority
  let n := (length + 255) / 256
  match s.buf.channels[c]? with
  | none => s
  | some x =>
    let full := channelFull s c x n
    let tooLong := decide (chanGuar s c x + x.borrow * 64 < n)
    channelSignal c (signalAt c (chanOcc x + channelRoom s c x n) (if !full then s else modBuf (fun b => { b with
      sticky := setBit b.sticky 1
      channels := updAt (fun x => { x with overrun := sat x.overrun, oversize := if tooLong then sat x.oversize else x.oversize }) c b.channels }) s))

/-- A packet is stored in its channel with its CE mark, or rewound (R283, R284, R288). -/
def storePacket (port priority length : Nat) (ce : Bool) (s : State) : State :=
  let c := channelOf port priority
  let n := (length + 255) / 256
  match s.buf.channels[c]? with
  | none => s
  | some x =>
    if channelFull s c x n then rewindPacket port priority length s
    else channelSignal c (modBuf (fun b => { b with channels := updAt (fun x => { x with fifo := x.fifo ++ [(n, ce)] }) c b.channels }) s)

/-- The packet at the head of a channel carries CE. -/
def headMark (port priority : Nat) (s : State) : Bool :=
  ((s.buf.channels[channelOf port priority]?).bind (·.fifo.head?)).any (·.2)

/-- The packet in a place of a channel leaves it. -/
def dropPacketAt (port priority i : Nat) (s : State) : State :=
  let c := channelOf port priority
  channelSignal c (modBuf (fun b => { b with channels := updAt (fun x => { x with fifo := x.fifo.eraseIdx i }) c b.channels }) s)

/-- The packet at the head of a channel is taken. -/
def drainPacket (port priority : Nat) (s : State) : State :=
  let c := channelOf port priority
  channelSignal c (modBuf (fun b => { b with channels := updAt (fun x => { x with fifo := x.fifo.drop 1 }) c b.channels }) s)

/-- A network port delivers data frames: up, and an SA installed in each direction (R233). -/
def netOpen (p : Port) : Bool := p.mode == 1 && p.up && !p.txSa.isEmpty && !p.rxSa.isEmpty

/-- The receive SA of a protected frame: its association number and SCI, its packet number within the replay window (R232, R233).
(PRESUMED: log entry 60) -/
def rxSaFor (p : Port) (an sci pn : Nat) : Option Sa := p.rxSa.find? (fun a => a.an == an && a.sci == sci && decide (a.pn ≤ pn + a.window))

/-- A data frame that has passed its checks: the SA counts on, and the packet is marked CE while its channel's signal is asserted, and stored
(R233, R288). -/
def takeFrame (port : Nat) (f : NetFrame) (an pn : Nat) (s : State) : State :=
  let marked := f.ect && (s.buf.channels[channelOf port f.priority]?).any (·.asserted)
  let s := modPort port (fun p => { p with ecnMark := if marked then sat p.ecnMark else p.ecnMark
                                           rxSa := updWhere (·.an == an) (fun a => { a with pn := max a.pn (pn + 1) }) p.rxSa }) s
  storePacket port f.priority f.length (f.ce || marked) s

/-- NETWORK_FRAME_RECEIVE (R231, R233, R283, R288). A frame that fails its FCS or ICV has been stored until then. (PRESUMED: log entry 60) -/
def execNetworkFrameReceive (port : PortId) (x : Heard NetFrame) (s : State) : Out :=
  .next <|
    let f := x.item
    let s := countFec port.val x.cw s
    let p := get5 s.ports port.val
    let drop := modPort port.val (fun p => { p with macDrop := sat p.macDrop })
    if p.mode != 1 || !p.up || decide (9216 < f.length) || decide (f.length < 64) then s
    else match f.kind with
    | .eapol => if !f.fcsOk || fenced s 4 then s else emit (.eapol port.val f.bytes) s
    | .linkPause => if f.fcsOk then modPort port.val (fun p => { p with pauseRx := sat p.pauseRx }) s else s
    | .unprotected => if f.fcsOk then drop s else s
    | .macsec an sci pn icvOk =>
      let sound := f.fcsOk && (rxSaFor p an sci pn).isSome && icvOk
      if sound then (if netOpen p then takeFrame port.val f an pn s else s)
      else
        let s := if netOpen p then rewindPacket port.val f.priority f.length s else s
        if f.fcsOk then drop s else s

/-- PFC_PAUSE_RECEIVE (R231): the peer pauses a priority. -/
def execPfcPauseReceive (port : PortId) (priority : Fin 8) (s : State) : Out :=
  .next <|
    let p := get5 s.ports port.val
    if p.mode = 1 && p.up then
      modPort port.val (fun p => { p with pauseRx := sat p.pauseRx, paused := setBit p.paused priority.val }) s
    else s

/-- PFC_PAUSE_EXPIRE (R231): the pause ends. -/
def execPfcPauseExpire (port : PortId) (priority : Fin 8) (s : State) : Out :=
  .next (netFlush port.val (modPort port.val (fun p => { p with paused := clearBit p.paused priority.val }) s))

end Sys2Proof.Machine
end

