-- ==== Sys2Proof/Machine/Rdm.lean ====
section
/-! DEFINITION. Remote memory: domains, regions, windows, connections and their commands, trigger counters, and the requester
(13_remote_memory.md R248 to R255, R260 to R267, R269, R271). -/

namespace Sys2Proof.Machine

/-! ## Objects -/

/-- A connection by its handle. -/
def connAt (s : State) (h : Nat) : Option Conn := s.rdm.conns.find? (·.handle == h)

/-- The connection that a local QPN names. (DEDUCED: log entry 62) -/
def connOf (s : State) (qpn : Nat) : Option Conn := s.rdm.conns.find? (·.qpn == qpn)

/-- Change a connection. -/
def modConn (h : Nat) (f : Conn → Conn) (s : State) : State :=
  modRdm (fun r => { r with conns := updWhere (·.handle == h) f r.conns }) s

/-- A region by its handle. -/
def regionAt (s : State) (h : Nat) : Option Region := s.rdm.regions.find? (·.handle == h)

/-- The key of a window (Table 13-2). -/
def windowKey (w : Window) : Nat := w.index * 256 + w.gen

/-- The open window whose index a key names, whatever its generation (R258). -/
def windowByIndex (s : State) (key : Nat) : Option Window := s.rdm.windows.find? (·.index == key / 256)

/-- The open window that a key names. -/
def windowByKey (s : State) (key : Nat) : Option Window := s.rdm.windows.find? (fun w => windowKey w == key)

/-- A message whose last packet has come and has been placed. -/
def wholePlaced (m : Incoming) : Bool := m.held.isEmpty && m.staged.isNone && m.op != .read

/-- Messages of a connection that are in flight on the window of a key: accepted, their last packet not placed (R256 step 4, R267). -/
def flightOf (c : Conn) (key : Nat) : Nat :=
  ((c.incoming.toList ++ c.order.filter (fun m => !wholePlaced m)).filter (fun m =>
    m.key == key && m.status.isNone && (m.op == .write || m.op == .writeImm || m.op == .read))).length

/-- Messages in flight on the window of a key. -/
def inFlight (s : State) (key : Nat) : Nat := sumNat (s.rdm.conns.map (fun c => flightOf c key))

/-- Sequence numbers are 24 bits. -/
def psnAdd (a n : Nat) : Nat := (a + n) % 2 ^ 24

/-- How far `b` lies above `a`. -/
def psnDist (a b : Nat) : Nat := (b + 2 ^ 24 - a) % 2 ^ 24

/-- `a` is not above `b`. -/
def psnLe (a b : Nat) : Bool := decide (psnDist a b < 2 ^ 23)

/-- `p` lies in `lo` to `hi`. -/
def psnIn (lo hi p : Nat) : Bool := psnLe lo p && psnLe p hi

/-- Bytes of the path MTU (Table 13-3). -/
def mtuBytes (c : Conn) : Nat := 128 * 2 ^ c.mtu

/-- Packets of a message of `n` bytes. -/
def packetsOf (c : Conn) (n : Nat) : Nat := max 1 ((n + (mtuBytes c - 1)) / mtuBytes c)

/-- Send over the port of a connection. -/
def roceSend (c : Conn) (ms : List RoceOut) (s : State) : State := netSend c.port.val ms s

/-! ## Trigger counters (R262) -/

/-- Raise a trigger counter; at 2^48 − 1 it stays there. -/
def raiseTrigger (t n : Nat) (s : State) : State :=
  modRdm (fun r => { r with triggers := mapSet r.triggers t (satAdd 48 (mapGet r.triggers t) n) }) s

/-! ## Completion entries (Table 13-6) -/

/-- The entry of a descriptor: status code, opcode, bytes moved, and the immediate value of a receive. -/
def rdmEntry (d : Bytes) (code op bytes imm : Nat) : Bytes :=
  leBytes 2 code ++ leBytes 1 op ++ [0] ++ leBytes 4 bytes ++ slice d 0x28 8 ++ slice d 4 4 ++ leBytes 4 imm ++ zeros 8

/-- A descriptor completes with a status and nothing moved. -/
def rdmFail (f : FDesc) (st : Status) (s : State) : State :=
  completeDesc f.id (rdmEntry f.bytes (statusCode st) (field f.bytes 1 1) 0 0) s

/-- Bytes that a descriptor has moved so far: a READ's data received, or what the message that consumed a receive has placed (R261). -/
def movedBytes (s : State) (f : FDesc) : Nat :=
  match (s.rdm.conns.flatMap (·.outgoing)).find? (fun o => o.desc == f.id) with
  | some o => if o.op = 5 then o.got else 0
  | none =>
    match (s.rdm.conns.flatMap (fun c => c.incoming.toList ++ c.order)).find? (·.recv == some f.id) with
    | some m =>
      let n := m.done - sumNat (m.held.map (·.2.1.length))
      if m.staged.isSome then 0 else if m.op == .send || m.op == .sendImm then min n (field f.bytes 0x10 4) else n
    | none => 0

/-- A descriptor ends with a status in the midst of its work: BYTES is what it has moved (R261). (DEDUCED: log entry 65) -/
def cutDesc (f : FDesc) (st : Status) (moved : Nat) (s : State) : State :=
  completeDesc f.id (rdmEntry f.bytes (statusCode st) (field f.bytes 1 1) moved 0) s

/-- A descriptor is flushed (R254). -/
def flushDesc (f : FDesc) (moved : Nat) (s : State) : State :=
  cutDesc f .wrFlushed moved (modRdm (fun r => { r with flush := sat r.flush }) s)

/-- R269 has fired: a message or a request ends with DATA_POISONED. -/
def countPoison (s : State) : State := modRdm (fun r => { r with poison := sat r.poison, sticky := setBit r.sticky 3 }) s

/-! ## Errors of a connection (R254, R267) -/

/-- Every incomplete descriptor of a connection is flushed. (DEDUCED: log entry 65) -/
def flushConn (h : Nat) (s : State) : State :=
  let mine := s.buf.descs.filter (fun f => f.fn == 4 && f.entry.isNone && field f.bytes 4 4 == h)
  let s := dropReads (fun r => match r.purpose with
    | .rdmSource d => mine.any (·.id == d)
    | _ => false) s
  mine.foldl (fun st f => flushDesc f (movedBytes s f) st) s

/-- The packets that wait in a channel, in its order (R289). -/
def heldPackets (s : State) (port priority : Nat) : List Queued :=
  s.rdm.waiting.filter (fun x => x.inChannel && x.port == port && (connOf s x.qpn).any (·.priority == priority))

/-- The packets of a connection that wait in a receive channel leave their places in it, and its frames that wait in a port are dropped (R254).
(DEDUCED: log entry 62) -/
def dropWaiting (h : Nat) (s : State) : State :=
  match connAt s h with
  | none => s
  | some c =>
    let places := fun (port : Nat) => (((heldPackets s port c.priority).zipIdx).filter (fun x => x.1.qpn == c.qpn)).map (·.2)
    (List.range 5).foldl (fun st port => (places port).foldr (fun i st => dropPacketAt port c.priority i st) st)
      (netDrop c.port.val c.qpn (modRdm (fun r => { r with waiting := r.waiting.filter (·.qpn != c.qpn) }) s))

/-- The messages that a connection is receiving are abandoned (R267). (DEDUCED: log entry 65) -/
def abandonMessages (h : Nat) (s : State) : State :=
  modConn h (fun c => { c with incoming := none, order := [], recvs := [], missQueue := [], dupOld := none, outgoing := [], rnrWait := false })
    (modPtn (fun p => { p with staged := p.staged.filter (fun x => x.conn != h) }) (dropWaiting h s))

/-- CONNECTION_ERROR (R254): the connection enters ERROR. -/
def connError (h : Nat) (st : Status) (s : State) : State :=
  match connAt s h with
  | none => s
  | some c =>
    if c.error then s
    else
      let s := modConn h (fun c => { c with error := true }) (abandonMessages h (flushConn h s))
      postEvent 0x0910 2 (statusCode st) h s

/-! ## Commands (R250 to R254, R262, R267, R271) -/

/-- Commands that open an object of a quiesced function (R301). -/
def rdmGate (s : State) : Bool := quiesced s 4

/-- The 8-byte payload of a handle and a reserved word. -/
def oneArg (j : Job) : Bool := lenIs j 8 && arg j 4 4 == 0

/-- RDM_PD_ALLOC (0x0910): the lowest free domain. -/
def execRdmPdAlloc (mb : MbId) (s : State) : Out :=
  .next <| onNewJob mb 0x0910 s fun j =>
    if !lenIs j 8 || !allZero j.payload then answer j .badArg s
    else if rdmGate s then answer j .notIdle s
    else match leastBelow 256 (fun n => !s.rdm.pds.contains n) with
    | none => answer j .busy s
    | some n => finish j .ok (leBytes 4 n ++ zeros 4) (modRdm (fun r => { r with pds := insertNat n r.pds }) s)

/-- An object belongs to a domain. -/
def pdHolds (s : State) (pd : Nat) : Bool :=
  s.rdm.regions.any (·.pd == pd) || s.rdm.windows.any (·.pd == pd) || s.rdm.conns.any (·.pd == pd)

/-- RDM_PD_FREE (0x0911). -/
def execRdmPdFree (mb : MbId) (s : State) : Out :=
  .next <| onNewJob mb 0x0911 s fun j =>
    if !oneArg j || !s.rdm.pds.contains (arg j 0 4) then answer j .badArg s
    else if pdHolds s (arg j 0 4) then answer j .notIdle s
    else answer j .ok (modRdm (fun r => { r with pds := eraseNat (arg j 0 4) r.pds }) s)

/-- RDM_REGION_REG (0x0912, R250). (DEDUCED: log entry 68) -/
def execRdmRegionReg (mb : MbId) (s : State) : Out :=
  .next <| onNewJob mb 0x0912 s fun j =>
    let host := arg j 4 4 == 1
    let a := arg j 8 8
    let n := arg j 16 8
    if !lenIs j 24 || !s.rdm.pds.contains (arg j 0 4) || decide (1 < arg j 4 4) then answer j .badArg s
    else if rdmGate s then answer j .notIdle s
    else if !host && (!inHbm s a n || heldRange s a n) then answer j .accessViolation s
    else if 65536 ≤ s.rdm.regions.length then answer j .busy s
    else
      let h := freshHandle (s.rdm.regions.map (·.handle)) s
      let g : Region := { handle := h.1, pd := arg j 0 4, host := host, addr := a, len := n }
      finish j .ok (leBytes 4 h.1 ++ zeros 4) (modRdm (fun r => { r with regions := r.regions ++ [g] }) h.2)

/-- A window, or a posted request or receive descriptor, names a region. (DEDUCED: log entry 67) -/
def regionNamed (s : State) (h : Nat) : Bool :=
  s.rdm.windows.any (fun w => !w.summing && w.region == h) ||
  s.buf.descs.any (fun f => f.fn == 4 && f.entry.isNone && field f.bytes 0x14 4 == h)

/-- RDM_REGION_DEREG (0x0913). -/
def execRdmRegionDereg (mb : MbId) (s : State) : Out :=
  .next <| onNewJob mb 0x0913 s fun j =>
    if !oneArg j || (regionAt s (arg j 0 4)).isNone then answer j .badArg s
    else if regionNamed s (arg j 0 4) then answer j .notIdle s
    else answer j .ok (modRdm (fun r => { r with regions := r.regions.filter (·.handle != arg j 0 4) }) s)

/-- The window that an RDM_WINDOW_OPEN payload describes, without its index and generation, or none when R252 refuses it. -/
def windowOf (s : State) (p : Bytes) : Option Window :=
  let kind := field p 4 1
  let rights := field p 5 1
  let pd := field p 6 2
  let off := field p 8 8
  let len := field p 16 8
  let trig := field p 28 4
  let w : Window := { index := 0, gen := 0, summing := kind == 2, pd := pd, write := bit rights 0, read := bit rights 1, region := field p 0 4,
                      offset := off, len := len, round := field p 24 4, sizes := (roundAt s (field p 24 4)).elim [] sliceSizes,
                      trigger := if trig = 0xFFFFFFFF then none else some trig, revoking := false }
  if decide (3 < rights) || (decide (65535 < trig) && trig != 0xFFFFFFFF) then none
  else if kind = 1 then
    (regionAt s w.region).bind (fun r =>
      if r.host || rights == 0 || pd != 0 || w.round != 0 || decide (len < 1) || decide (2 ^ 40 < len) || decide (r.len < off + len) then none
      else some { w with pd := r.pd })
  else if kind = 2 then
    if w.region == 0 && off == 0 && rights == 1 && len == 1048576 && s.rdm.pds.contains pd && (roundAt s w.round).any (·.state == 1) then some w
    else none
  else none

/-- RDM_WINDOW_OPEN (0x0914; R251, R252): the index at the head of the free list, its generation raised. -/
def execRdmWindowOpen (mb : MbId) (s : State) : Out :=
  .next <| onNewJob mb 0x0914 s fun j =>
    match if lenIs j 32 then windowOf s j.payload else none with
    | none => answer j .badArg s
    | some w =>
      if rdmGate s then answer j .notIdle s
      else
        let fresh := decide (s.rdm.freshIndex < 262144)
        match if fresh then some s.rdm.freshIndex else s.rdm.freed.head? with
        | none => answer j .busy s
        | some i =>
          let w := { w with index := i, gen := (mapGet s.rdm.gens i + 1) % 256 }
          finish j .ok (leBytes 4 (windowKey w) ++ zeros 4)
            (modRdm (fun r => { r with windows := r.windows ++ [w], gens := mapSet r.gens i w.gen
                                       freshIndex := if fresh then i + 1 else r.freshIndex
                                       freed := if fresh then r.freed else r.freed.drop 1 }) s)

/-- RDM_WINDOW_REVOKE (0x0915, R267): phase one. -/
def execRdmWindowRevoke (mb : MbId) (s : State) : Out :=
  .next <| onNewJob mb 0x0915 s fun j =>
    if !oneArg j || !(windowByKey s (arg j 0 4)).any (fun w => !w.revoking) then answer j .badArg s
    else
      let key := arg j 0 4
      finish j .ok (leBytes 4 (inFlight s key) ++ zeros 4)
        (modRdm (fun r => { r with windows := updWhere (fun w => windowKey w == key) (fun w => { w with revoking := true }) r.windows }) s)

/-- REVOKE_DONE (R267): phase two ends when nothing is in flight; the index enters the free list at its tail. -/
def execRevokeDone (key : Nat) (s : State) : Out :=
  .next <|
    match windowByKey s key with
    | none => s
    | some w =>
      if !w.revoking || inFlight s key != 0 then s
      else
        postEvent 0x0911 0 key 0
          (modRdm (fun r => { r with windows := r.windows.filter (fun x => x.index != w.index), freed := r.freed ++ [w.index] }) s)

/-- The lane rates of `PORT_SET` in Mb/s times four (R245, R266). -/
def portMbps (p : Port) : Nat :=
  4 * (if p.rate = 1 then 400000 else if p.rate = 2 then 200000 else if p.rate = 3 then 100000 else if p.rate = 4 then 50000 else 0)

/-- A ring is owned by PF4. -/
def pf4Ring (s : State) (n : Nat) : Bool := (wringAt s n).any (·.fn == 4)

/-- Check 1 of R253. -/
def connBad (s : State) (p : Bytes) : Bool :=
  let fl := field p 5 1
  let v4 := fun (off : Nat) => !bit fl 0 && !zeroAt p off 12
  p.length != 88 || !s.rdm.pds.contains (field p 0 4) || decide (4 < field p 4 1) || decide (7 < fl) || (bit fl 2 && !bit fl 1) ||
    decide (7 < field p 6 1) || decide (63 < field p 7 1) || decide (field p 8 1 < 3) || decide (5 < field p 8 1) || decide (field p 9 1 < 8) ||
    decide (18 < field p 9 1) || decide (7 < field p 0xA 1) || decide (7 < field p 0xB 1) || decide (31 < field p 0xC 1) ||
    !zeroAt p 0xD 3 || decide (2 ^ 24 ≤ field p 0x10 4) || decide (2 ^ 24 ≤ field p 0x14 4) || decide (2 ^ 24 ≤ field p 0x18 4) ||
    decide (field p 0x1C 2 < 49152) || !zeroAt p 0x1E 2 || !zeroAt p 0x26 2 || v4 0x28 || !zeroAt p 0x3C 4 || !zeroAt p 0x46 2 || v4 0x48 ||
    !pf4Ring s (field p 0x38 2) || !pf4Ring s (field p 0x3A 2)

/-- Chunks of 64 MiB that the contexts of `n` connections need beyond the 65,536 on die (R255). -/
def chunksFor (n : Nat) : Nat := (n - 65536 + 262143) / 262144

/-- The spill area grows by one chunk when `n` connections need it; none when HBM has no place (R255). -/
def growSpill (n : Nat) (s : State) : Option State :=
  if chunksFor n ≤ s.rdm.chunks then some s
  else match placeHbm 0x4000000 s with
    | (some a, s) => some (modRdm (fun r => { r with chunks := r.chunks + 1 }) (hold ⟨a, 0x4000000, .spill s.rdm.chunks⟩ s))
    | (none, _) => none

/-- Room for one more context on die: the least recently used one is written back when there is none (R255). (DEDUCED: log entry 68) -/
def evictContext (s : State) : State :=
  let on := s.rdm.conns.filter (·.cached)
  if on.length < 65536 then s
  else match on with
    | [] => s
    | x :: xs => let lru := xs.foldl (fun a c => if c.used < a.used then c else a) x
                 modConn lru.handle (fun c => { c with cached := false }) s

/-- The context of a connection is used. (DEDUCED: log entry 68) -/
def touch (h : Nat) (s : State) : State :=
  modRdm (fun r => { r with nextUse := r.nextUse + 1 }) (modConn h (fun c => { c with used := s.rdm.nextUse }) s)

/-- A local QPN, 2 to 0xFF_FFFF: the module's own choice when it is free, else the least free one (notes/assumptions 3). (DEDUCED: log entry 68) -/
def freshQpn (s : State) : Nat × State :=
  let used := s.rdm.conns.map (·.qpn)
  let p := Config.freeNat s.draw % 2 ^ 24
  let q := if decide (2 ≤ p) && !used.contains p then p
    else ((List.range (used.length + 1)).map (· + 2)).find? (fun x => !used.contains x) |>.getD 2
  (q, { s with draw := s.draw + 1 })

/-- The connection that an RDM_CONN_OPEN payload opens (Table 13-3, R266). (DEDUCED: log entry 68) -/
def newConn (s : State) (h q : Nat) (p : Bytes) : Conn :=
  let rate : Rat := portMbps (get5 s.ports (field p 4 1))
  { handle := h, qpn := q, pd := field p 0 4, port := Fin.ofNat 5 (field p 4 1), cx := bit (field p 5 1) 1, relaxed := bit (field p 5 1) 2
    priority := field p 6 1, mtu := field p 8 1, ackTo := field p 9 1, retryCnt := field p 0xA 1, rnrRetry := field p 0xB 1
    minRnr := field p 0xC 1, remoteQpn := field p 0x10 4, sendRing := field p 0x38 2, recvRing := field p 0x3A 2, params := p, error := false
    sendPsn := field p 0x14 4, expPsn := field p 0x18 4, una := field p 0x14 4, outgoing := [], incoming := none, order := [], recvs := []
    history := [], retries := 0, rnrs := 0, rnrWait := false, cur := rate, tgt := rate, alpha := 1, stage := 0, lastCut := none, lastCnp := none
    portRate := rate, cached := true, used := s.rdm.nextUse, missQueue := [], dupOld := none }

/-- RDM_CONN_OPEN (0x0916; R253, R255). -/
def execRdmConnOpen (mb : MbId) (s : State) : Out :=
  .next <| onNewJob mb 0x0916 s fun j =>
    if connBad s j.payload then answer j .badArg s
    else if rdmGate s || (get5 s.ports (arg j 4 1)).mode != 1 then answer j .notIdle s
    else if 4194304 ≤ s.rdm.conns.length then answer j .busy s
    else match growSpill (s.rdm.conns.length + 1) s with
    | none => answer j .busy s
    | some s =>
      let s := evictContext s
      let h := freshHandle (s.rdm.conns.map (·.handle)) s
      let q := freshQpn h.2
      finish j .ok (leBytes 4 h.1 ++ leBytes 4 q.1)
        (modRdm (fun r => { r with conns := r.conns ++ [newConn q.2 h.1 q.1 j.payload], nextUse := r.nextUse + 1 }) q.2)

/-- A connection is closed: its work requests are flushed, its messages abandoned, its context freed; the spill area shrinks when none
is left (R254, R255). -/
def closeConn (h : Nat) (s : State) : State :=
  let s := abandonMessages h (flushConn h s)
  let s := modRdm (fun r => { r with conns := r.conns.filter (·.handle != h) }) s
  if s.rdm.conns.isEmpty then
    release (fun o => match o with
      | .spill _ => true
      | _ => false) (modRdm (fun r => { r with chunks := 0 }) s)
  else s

/-- RDM_CONN_CLOSE (0x0917). -/
def execRdmConnClose (mb : MbId) (s : State) : Out :=
  .next <| onNewJob mb 0x0917 s fun j =>
    if !oneArg j || (connAt s (arg j 0 4)).isNone then answer j .badArg s else answer j .ok (closeConn (arg j 0 4) s)

/-- RDM_CONN_STATUS (0x0918). -/
def execRdmConnStatus (mb : MbId) (s : State) : Out :=
  .next <| onNewJob mb 0x0918 s fun j =>
    match if oneArg j then connAt s (arg j 0 4) else none with
    | none => answer j .badArg s
    | some c =>
      finish j .ok (leBytes 1 (if c.error then 2 else 1) ++ zeros 3 ++ leBytes 4 c.sendPsn ++ leBytes 4 c.expPsn ++
        leBytes 4 c.cur.floor.toNat ++ leBytes 4 (c.alpha * 65536).floor.toNat ++ zeros 4) s

/-- RDM_TRIGGER (0x0919, R262). (DEDUCED: log entry 67) -/
def execRdmTrigger (mb : MbId) (s : State) : Out :=
  .next <| onNewJob mb 0x0919 s fun j =>
    let t := arg j 0 4
    let op := arg j 4 1
    let v := arg j 8 8
    if !lenIs j 16 || !zeroAt j.payload 5 3 || decide (65535 < t) || decide (2 < op) || (op == 1 && decide (2 ^ 48 ≤ v)) then answer j .badArg s
    else
      let s := if op = 1 then modRdm (fun r => { r with triggers := mapSet r.triggers t v }) s
        else if op = 2 then raiseTrigger t v s else s
      finish j .ok (leBytes 8 (mapGet s.rdm.triggers t)) s

/-! ## The requester: descriptors (R260 to R262, R269) -/

/-- The local range of a descriptor lies in the region that it names. -/
def localOk (s : State) (b : Bytes) : Bool :=
  (regionAt s (field b 0x14 4)).any (fun r => decide (r.addr ≤ field b 8 8 ∧ field b 8 8 + field b 0x10 4 ≤ r.addr + r.len))

/-- A request descriptor breaks R260. -/
def requestBad (s : State) (f : FDesc) : Bool :=
  let b := f.bytes
  let fl := field b 2 2
  let c := connAt s (field b 4 4)
  decide (7 < fl) || !c.any (fun c => c.sendRing == f.wring) || decide (2 ^ 31 < field b 0x10 4) || decide (65535 < field b 0x30 4) ||
    field b 0x34 4 != 0 || decide (2 ^ 48 ≤ field b 0x38 8) || !localOk s b || (bit fl 0 && c.any (fun c => !c.relaxed))

/-- A receive descriptor breaks R260. -/
def receiveBad (s : State) (f : FDesc) : Bool :=
  let b := f.bytes
  field b 1 1 != 0 || field b 2 2 != 0 || !zeroAt b 0x18 16 || !zeroAt b 0x30 16 || decide (2 ^ 31 < field b 0x10 4) ||
    !(connAt s (field b 4 4)).any (fun c => c.recvRing == f.wring) || !localOk s b

/-- A read of host memory for a request of a ring is outstanding or held. -/
def sourcePending (s : State) (d : Nat) : Bool := s.hif.reads.any (·.purpose == .rdmSource d)

/-- Every earlier request on the ring has fired and left (R262). (DEDUCED: log entry 67) -/
def earlierFired (s : State) (f : FDesc) : Bool :=
  (s.buf.descs.filter (fun g => g.wring == f.wring && decide (g.id < f.id) && field g.bytes 0 1 == 0x30 && g.entry.isNone)).all
    (fun g => g.taken && !sourcePending s g.id)

/-- The RoCEv2 request of a descriptor's OP (Table 13-5). -/
def requestOp (op : Nat) : RoceOp :=
  if op = 1 then .send else if op = 2 then .sendImm else if op = 3 then .write else if op = 4 then .writeImm else .read

/-- The packets of a request, numbered from a PSN. -/
def requestPackets (c : Conn) (b : Bytes) (data : Bytes) : List RoceOut :=
  let one := fun (x : Bytes × Nat) =>
    RoceOut.request c.qpn (psnAdd c.sendPsn x.2) (requestOp (field b 1 1)) (field b 0x20 4) (field b 0x18 8) (field b 0x10 4) (field b 0x24 4)
      (bit (field b 2 2) 0) x.1
  match chunksOf (mtuBytes c) (data.length + 1) data with
  | [] => [one ([], 0)]
  | l => (l.zipIdx).map one

/-- A request is transmitted: its PSNs are taken and it is outstanding. (DEDUCED: log entry 67) -/
def transmit (f : FDesc) (data : Bytes) (s : State) : State :=
  match connAt s (field f.bytes 4 4) with
  | none => s
  | some c =>
    let n := field f.bytes 0x10 4
    let o : Outgoing := { desc := f.id, op := field f.bytes 1 1, psn := c.sendPsn, psnEnd := psnAdd c.sendPsn (packetsOf c n - 1), bytes := n, got := 0 }
    let s := modConn c.handle (fun c => { c with
      outgoing := c.outgoing ++ [o], sendPsn := psnAdd c.sendPsn (packetsOf c n)
      una := if c.outgoing.isEmpty then c.sendPsn else c.una, retries := if c.outgoing.isEmpty then 0 else c.retries }) s
    roceSend c (requestPackets c f.bytes data) s

/-- The local source of a request has been read, or its read has failed (R269, Table 15-5). -/
def rdmSourceData (d : Nat) (r : Except Status Bytes) (s : State) : State :=
  match descAt s d, r with
  | none, _ => s
  | some f, .ok data => transmit f data s
  | some f, .error .dataPoisoned => rdmFail f .dataPoisoned (countPoison s)
  | some f, .error st => rdmFail f st s

/-- A request fires (R260, R262): a READ is sent; any other first reads its local source, where `bad` fails. -/
def fireRequest (bad : List MemFail) (f : FDesc) (s : State) : State :=
  let s := touch (field f.bytes 4 4) (takeDesc f.id s)
  let n := field f.bytes 0x10 4
  let a := field f.bytes 8 8
  match regionAt s (field f.bytes 0x14 4) with
  | none => s
  | some r =>
    if field f.bytes 1 1 = 5 || n = 0 then transmit f [] s
    else if r.host then hostReadReq 4 a n (.rdmSource f.id) s
    else
      let c := checkedRead bad a n s
      rdmSourceData f.id (if c.2.1 then .error .dataPoisoned else .ok c.1) c.2.2

/-- READs of a connection that are outstanding (Table 13-1: at most 16). -/
def readsOut (s : State) (h : Nat) : Nat := (connAt s h).elim 0 (fun c => (c.outgoing.filter (·.op == 5)).length)

/-- A request whose turn it is: refused, flushed, waiting for its trigger, or fired. -/
def runRequest (bad : List MemFail) (f : FDesc) (s : State) : State :=
  let b := f.bytes
  if requestBad s f then rdmFail f .badArg s
  else if (connAt s (field b 4 4)).any (·.error) then flushDesc f 0 s
  else if bit (field b 2 2) 1 && decide (mapGet s.rdm.triggers (field b 0x30 4) < field b 0x38 8) then s
  else if field b 1 1 = 5 && decide (16 ≤ readsOut s (field b 4 4)) then s
  else fireRequest bad f s

/-- A fetched request descriptor for which `p` holds, when its turn has come. -/
def onRequest (d : DescReads) (s : State) (p : FDesc → Bool) : State :=
  match descAt s d.id with
  | none => s
  | some f =>
    if f.fn == 4 && field f.bytes 0 1 == 0x30 && !f.taken && f.entry.isNone && p f && earlierFired s f then runRequest d.bad f s else s

/-- The descriptor's OP is `op`. -/
def opIs (op : Nat) (f : FDesc) : Bool := field f.bytes 1 1 == op

/-- RDM_SEND (R260). -/
def execRdmSend (d : DescReads) (s : State) : Out := .next (onRequest d s (opIs 1))

/-- RDM_SEND_IMM (R260). -/
def execRdmSendImm (d : DescReads) (s : State) : Out := .next (onRequest d s (opIs 2))

/-- RDM_WRITE (R260). -/
def execRdmWrite (d : DescReads) (s : State) : Out := .next (onRequest d s (opIs 3))

/-- RDM_WRITE_IMM (R260). -/
def execRdmWriteImm (d : DescReads) (s : State) : Out := .next (onRequest d s (opIs 4))

/-- RDM_READ (R260). -/
def execRdmRead (d : Nat) (s : State) : Out := .next (onRequest ⟨d, []⟩ s (opIs 5))

/-- TRIGGERED_REQUEST_FIRE (R262): a TRIGGERED request whose counter has reached its threshold. -/
def execTriggeredRequestFire (d : DescReads) (s : State) : Out := .next (onRequest d s (fun f => bit (field f.bytes 2 2) 1))

/-- RDM_RECEIVE_POST (R260): a receive descriptor waits for the message that consumes it. -/
def execRdmReceivePost (d : Nat) (s : State) : Out :=
  .next <|
    match descAt s d with
    | none => s
    | some f =>
      if f.fn != 4 || field f.bytes 0 1 != 0x31 || f.taken || f.entry.isSome then s
      else if receiveBad s f then rdmFail f .badArg s
      else if (connAt s (field f.bytes 4 4)).any (·.error) then flushDesc f 0 s
      else modConn (field f.bytes 4 4) (fun c => { c with recvs := c.recvs ++ [d] }) (takeDesc d s)

/-! ## The requester: answers (R257, R259, R263 to R265) -/

/-- An outstanding request of a connection completes (R261, R262). -/
def completeOut (h : Nat) (o : Outgoing) (code : Nat) (s : State) : State :=
  let s := modConn h (fun c => { c with outgoing := c.outgoing.filter (·.desc != o.desc) }) s
  match descAt s o.desc with
  | none => s
  | some f =>
    let s := if code = 0 && bit (field f.bytes 2 2) 2 then raiseTrigger (field f.bytes 0x30 4) 1 s else s
    completeDesc o.desc (rdmEntry f.bytes code o.op (if o.op = 5 then o.got else if code = 0 then o.bytes else 0) 0) s

/-- The first PSN of an outstanding request that has no answer yet: that of the READ response expected next. -/
def openPsn (c : Conn) (o : Outgoing) : Nat := if o.op = 5 then psnAdd o.psn (o.got / mtuBytes c) else o.psn

/-- The oldest unacknowledged PSN once everything up to `psn` is acknowledged: that of an earlier READ whose data are still to come, if there
is one (R263). -/
def oldestAfter (c : Conn) (psn : Nat) : Nat :=
  match c.outgoing.find? (fun o => o.op == 5 && psnLe o.psn psn) with
  | some o => openPsn c o
  | none => psnAdd psn 1

/-- Every packet up to `psn` is acknowledged: the requests that end by it complete with OK, READs among them only where `reads` says so; any
other READ completes with its data. The retry and RNR counts start again when the oldest packet changes (R257, R263). (PRESUMED: log entry 66) -/
def ackThrough (h psn : Nat) (reads : Bool) (s : State) : State :=
  match connAt s h with
  | none => s
  | some c =>
    if c.outgoing.isEmpty || !psnIn c.una (psnAdd c.sendPsn (2 ^ 24 - 1)) psn then s
    else
      let una := if reads then psnAdd psn 1 else oldestAfter c psn
      let moved := una != c.una
      (c.outgoing.filter (fun o => (reads || o.op != 5) && psnLe o.psnEnd psn)).foldl (fun st o => completeOut h o 0 st)
        (modConn h (fun c => { c with una := una, retries := if moved then 0 else c.retries, rnrs := if moved then 0 else c.rnrs }) s)

/-- The outstanding request that a PSN belongs to. -/
def outAt (c : Conn) (psn : Nat) : Option Outgoing := c.outgoing.find? (fun o => psnIn o.psn o.psnEnd psn)

/-- The packets of an outstanding request from a PSN on, by their PSNs: a READ request is one packet. (PRESUMED: log entry 66) -/
def packetsFrom (psn : Nat) (o : Outgoing) : List Nat :=
  if !psnLe psn o.psnEnd then []
  else
    let first := if psnLe psn o.psn then o.psn else psn
    if o.op = 5 then [first] else (List.range (psnDist first o.psnEnd + 1)).map (psnAdd first)

/-- Resend from a PSN: every packet of the outstanding requests from there on, counted (R263). (PRESUMED: log entry 66) -/
def resendFrom (h psn : Nat) (s : State) : State :=
  match connAt s h with
  | none => s
  | some c =>
    let ps := c.outgoing.flatMap (packetsFrom psn)
    roceSend c (ps.map (RoceOut.resend c.qpn)) (modRdm (fun r => { r with retx := satAdd 32 r.retx ps.length }) s)

/-- A request gives up with RETRY_EXCEEDED and the connection enters ERROR (R263, R264). -/
def giveUp (h : Nat) (o : Outgoing) (s : State) : State :=
  connError h .retryExceeded (modRdm (fun r => { r with sticky := setBit r.sticky 4 }) (completeOut h o (statusCode .retryExceeded) s))

/-- An ACK or ACK_STATUS (R257). (PRESUMED: log entry 66) -/
def takeAck (h psn : Nat) (status : Option Nat) (s : State) : State :=
  match connAt s h, status with
  | none, _ => s
  | some _, none => ackThrough h psn false s
  | some c, some st =>
    match outAt c psn with
    | none => s
    | some o =>
      let s := ackThrough h (psnAdd o.psn (2 ^ 24 - 1)) true s
      completeOut h o st (modConn h (fun c => { c with una := psnAdd o.psnEnd 1, retries := 0, rnrs := 0 }) s)

/-- Bytes are placed at the local address of a descriptor: in its device region, or posted to the host. -/
def placeLocal (f : FDesc) (off : Nat) (b : Bytes) (s : State) : Status × State :=
  match regionAt s (field f.bytes 0x14 4) with
  | none => (.ok, s)
  | some r =>
    if b.isEmpty then (.ok, s)
    else if r.host then (.ok, postData 4 (field f.bytes 8 8 + off) b s)
    else memWrite (field f.bytes 8 8 + off) b s

/-- READ response data arrive in order and are placed; the last of them completes the READ (R259). Words that failed their check in the pool poison the
lines that they reach, and end the READ as they end a write (R269, R285). (PRESUMED: log entry 66; DESIGN CHOICE: log entry 65) -/
def takeReadResponse (h psn : Nat) (d : PoolData) (last : Bool) (s : State) : State :=
  let data := d.bytes
  match connAt s h with
  | none => s
  | some c =>
    match outAt c psn with
    | none => s
    | some o =>
      match descAt s o.desc with
      | none => s
      | some f =>
        let next := psnAdd o.psn (o.got / mtuBytes c)
        if o.op != 5 || psn != next || decide (o.bytes < o.got + data.length) || last != (o.got + data.length == o.bytes) then s
        else
          let s := ackThrough h (psnAdd o.psn (2 ^ 24 - 1)) false (poolFail d.bad.length s)
          let p := placeLocal f o.got data s
          let dev := (regionAt s (field f.bytes 0x14 4)).any (fun r => !r.host)
          let w := if p.1 = .ok && !d.bad.isEmpty then
              (Status.dataPoisoned, countPoison (if dev then markPoison (field f.bytes 8 8 + o.got) data.length d.bad p.2 else p.2))
            else p
          let got := if p.1 = .ok then o.got + data.length else o.got
          let s := modConn h (fun c => { c with outgoing := updWhere (·.desc == o.desc) (fun x => { x with got := got }) c.outgoing }) w.2
          let s := modConn h (fun c => if c.una != psn then c else { c with una := psnAdd psn 1, retries := 0, rnrs := 0 }) s
          if w.1 != .ok then completeOut h { o with got := got } (statusCode w.1) s
          else if last then completeOut h { o with got := got } 0 s
          else s

/-- The status that a standard NAK gives (R265). -/
def nakStatus : NakKind → Status
  | .remoteAccess => .accessViolation
  | .invalidRequest => .badArg
  | .remoteOperational => .remoteError

/-- A standard NAK (R265): the request completes with its status, and the connection enters ERROR. (PRESUMED: log entry 66) -/
def takeNak (h psn : Nat) (kind : NakKind) (s : State) : State :=
  match (connAt s h).bind (fun c => outAt c psn) with
  | none => s
  | some o =>
    let s := ackThrough h (psnAdd o.psn (2 ^ 24 - 1)) false s
    connError h (nakStatus kind) (completeOut h o (statusCode (nakStatus kind)) s)

/-- A PSN Sequence Error NAK (R263): an immediate resend from the PSN it names. (PRESUMED: log entry 66) -/
def takeSeqNak (h psn : Nat) (s : State) : State :=
  match connAt s h with
  | none => s
  | some c =>
    if (outAt c psn).isNone then s else resendFrom h psn (ackThrough h (psnAdd psn (2 ^ 24 - 1)) false s)

/-- An RNR NAK (R264): the wait begins, or the request that it names gives up. (PRESUMED: log entry 66) -/
def takeRnrNak (h psn : Nat) (s0 : State) : State :=
  let s := modRdm (fun r => { r with rnrRx := sat r.rnrRx }) s0
  match connAt s h with
  | none => s
  | some c =>
    match outAt c psn with
    | none => s
    | some o =>
      let s := ackThrough h (psnAdd psn (2 ^ 24 - 1)) false s
      match connAt s h with
      | none => s
      | some c =>
        if c.rnrRetry != 7 && decide (c.rnrRetry ≤ c.rnrs) then giveUp h o s
        else modConn h (fun c => { c with rnrWait := true, rnrs := c.rnrs + 1 }) s

/-! ## Rate control (R266) -/

/-- A CNP lowers the rate, at most once in 50 us (Table 13-7). -/
def takeCnp (h : Nat) (s0 : State) : State :=
  let s := modRdm (fun r => { r with cnpRx := sat r.cnpRx }) s0
  let g : Rat := 1 / (2 ^ s.rdm.gShift : Nat)
  modConn h (fun c =>
    if c.lastCut.any (fun t => decide (s.now < t + 50)) then c
    else { c with tgt := c.cur, cur := max (c.cur * (1 - c.alpha / 2)) 100, alpha := c.alpha * (1 - g) + g, stage := 0, lastCut := some s.now }) s

/-- RATE_INCREASE_TIMER (R266): 100 us have passed with no CNP. -/
def execRateIncreaseTimer (conn : Nat) (s : State) : Out :=
  let g : Rat := 1 / (2 ^ s.rdm.gShift : Nat)
  .next <| modConn conn (fun c =>
    if c.error then c
    else
      let tgt := if 5 < c.stage + 1 then min (c.tgt + s.rdm.aiGbps * 1000) c.portRate else c.tgt
      { c with alpha := c.alpha * (1 - g), stage := c.stage + 1, tgt := tgt, cur := (c.cur + tgt) / 2 }) s

/-! ## Timers (R263, R264) -/

/-- ACK_TIMEOUT (R263). -/
def execAckTimeout (conn : Nat) (s : State) : Out :=
  .next <|
    match connAt s conn with
    | none => s
    | some c =>
      if c.error || c.outgoing.isEmpty || c.rnrWait then s
      else
        let s := modRdm (fun r => { r with timeout := sat r.timeout }) s
        if c.retryCnt ≤ c.retries then ((outAt c c.una).or c.outgoing.head?).elim s (fun o => giveUp conn o s)
        else resendFrom conn c.una (modConn conn (fun c => { c with retries := c.retries + 1 }) s)

/-- RNR_TIMER_EXPIRE (R264). -/
def execRnrTimerExpire (conn : Nat) (s : State) : Out :=
  .next <|
    match connAt s conn with
    | none => s
    | some c =>
      if c.error || !c.rnrWait then s else resendFrom conn c.una (modConn conn (fun c => { c with rnrWait := false }) s)

end Sys2Proof.Machine
end

