-- ==== Sys2Proof/Machine/Recovery.lean ====
section
/-! DEFINITION. Failure and recovery of a ring with an open decode session: suspicions, the vote, views, promotion, mirrors and
spares (08_fault_recovery.md R158 to R175; 06_decode_sessions.md R121). -/

namespace Sys2Proof.Machine

/-! ## Runs, holders and mirrors (R146, R168, R169) -/

/-- The first alive member after `k` in the + direction; `k` itself when there is no other. -/
def nextAlive (n : Nat) (mask : BitVec 32) (k : Nat) : Nat :=
  (((List.range (n - 1)).map (fun i => (k + 1 + i) % n)).find? (fun i => mask.getLsbD i)).getD k

/-- The mirror of stretch `k` that member `t` holds whole: the counterproof of its −1 neighbour since formation, or a rebuilt mirror whose copy is
complete. The counterproof of a spare is one once its copy is complete (R173 step 7). -/
def mirrorOn (r : Ring) (d : Session) (t k : Nat) : Bool :=
  (t == (k + 1) % r.count && !joinedSpare d t && r.joining != some t) || r.mirrors.any (fun m => m.done && m.holder == t && m.stretches.contains k)

/-- The holder of stretch `k` under a view: its holder when alive, else the next alive member when it mirrors the stretch (R168), else any alive member
that does (R164). (DEDUCED: log entry 55) -/
def newHolder (r : Ring) (d : Session) (mask : BitVec 32) (k : Nat) : Option Nat :=
  let h := r.holders.getD k k
  if mask.getLsbD h then some h
  else ((List.range r.count).map (fun i => (k + 1 + i) % r.count)).find? (fun t => mask.getLsbD t && mirrorOn r d t k)

/-- A run that an alive member holds: its first block, its block count, its stretches and its holder. -/
structure HeldRun where
  first     : Nat
  count     : Nat
  stretches : List Nat
  holder    : Nat
  deriving DecidableEq, Repr

/-- The held runs of the alive members: each one's initial stretch and its promoted run (R168). -/
def heldRuns (d : Session) (r : Ring) : List HeldRun :=
  (membersOf r.alive).flatMap (fun i =>
    let own := if r.holders.getD i 32 = i && !joinedSpare d i then [⟨i * r.blocks, r.blocks, [i], i⟩] else []
    let p := promotedRun d r i
    own ++ (if p.2 = 0 then [] else [⟨p.1, p.2, promotedStretches d r i, i⟩]))

/-- A held run has its mirror: a counterproof in its place, or a rebuilt one on another alive member. -/
def hasMirror (d : Session) (r : Ring) (x : HeldRun) : Bool :=
  let cp := (x.holder + 1) % r.count
  (x.stretches == [x.holder] && r.alive.getLsbD cp && cp != x.holder && !joinedSpare d cp) ||
    r.mirrors.any (fun m => m.first == x.first && m.count == x.count && m.holder != x.holder && r.alive.getLsbD m.holder)

/-- Bytes of `count` KV blocks in HBM (R110). -/
def runBytes (s : State) (count : Nat) : Nat := count * kvBlockBytes (fullShape s)

/-- HBM for a mirror of each stretch of a run that this member does not store already; none when one finds no place (R169). -/
def placeMirror (r : Ring) : List Nat → State → Option State
  | [], s => some s
  | k :: ks, s =>
    if (storeOf s k).isSome then placeMirror r ks s
    else match placeHbm (runBytes s r.blocks) s with
    | (some a, s) => placeMirror r ks (hold ⟨a, runBytes s r.blocks, .mirror k⟩ s)
    | (none, _) => none

/-- The next alive member of a run's holder becomes its mirror holder (R169): it allocates the mirror, or reports that it cannot, and the holder sends the
committed positions. -/
def rebuildOne (x : HeldRun) (s : State) : State :=
  match s.ring with
  | none => s
  | some r =>
    let t := nextAlive r.count r.alive x.holder
    let add := fun (st : State) => modRing (fun r => { r with mirrors := r.mirrors ++ [⟨x.first, x.count, x.stretches, t, false⟩] }) st
    if t = x.holder || r.failedMir.contains (x.first, x.count) then s
    else
      let s := if t = r.index then
          match placeMirror r x.stretches s with
          | some s => add s
          | none => postEvent 0x0604 1 (pack [(x.first, 32), (x.count, 32)]) (r.id % 2 ^ 32)
              (modRing (fun r => { r with failedMir := (x.first, x.count) :: r.failedMir }) s)
        else add s
      if x.holder = r.index then copyStretches t x.stretches s else s

/-- Mirrors of runs that nobody holds any more, or on members that have left, are released (R169, R173 step 7). -/
def dropMirrors (s : State) : State :=
  match s.dec, s.ring with
  | some d, some r =>
    let runs := heldRuns d r
    let cp := fun (m : Mirror) => joinedSpare d m.holder && m.stretches == [(m.holder + r.count - 1) % r.count]
    let keep := r.mirrors.filter (fun m => r.alive.getLsbD m.holder &&
      (cp m || runs.any (fun x => x.first == m.first && x.count == m.count && x.holder != m.holder)))
    release (fun o => match o with
      | .mirror k => !keep.any (fun m => m.stretches.contains k && m.holder == r.index)
      | _ => false) (modRing (fun r => { r with mirrors := keep }) s)
  | _, _ => s

/-- Every held run without a mirror gets one (R169). -/
def rebuildMirrors (s : State) : State :=
  match s.dec, s.ring with
  | some d, some r => ((heldRuns d r).filter (fun x => !hasMirror d r x)).foldl (fun st x => rebuildOne x st) s
  | _, _ => s

/-- STRETCH_PROMOTION (R168): the storage that mirrors the stretches this member newly holds is renamed as held blocks. -/
def promoteStorage (old new : List Nat) (r : Ring) (s : State) : State :=
  let gained := fun (k : Nat) => new.getD k 32 == r.index && old.getD k 32 != r.index
  modMem (fun m => { m with held := m.held.map (fun h => match h.owner with
    | .counterproof k => if gained k then { h with owner := .stretch k } else h
    | .mirror k => if gained k then { h with owner := .stretch k } else h
    | _ => h) }) s

/-! ## Views (R163 to R166) -/

/-- MEMBER_LEAVE (R166): this member is out of the ring's view; its session ends by fault, with no proof from it. (DEDUCED: log entry 53) -/
def leaveRing (cause : Status) (s : State) : State := leaveSession cause (modRing (fun r => { r with state := 4 }) s)

/-- The index of the last committed step, numbered from 0; 0xFFFF_FFFF before the first (R157, R163). (DESIGN CHOICE: log entry 56) -/
def lastStep (d : Session) : Nat := if d.steps = 0 then 0xFFFFFFFF else d.steps - 1

/-- The session parks while its ring re-forms (R125, R163): its actions stop, and its pending step waits for the view. -/
def parkForView (s : State) : State :=
  match s.dec with
  | none => s
  | some d =>
    if d.state = 5 || d.state = 6 then s
    else
      let at_ := if d.state = 3 || d.state = 4 then d.resumeAt else sessionStroke s .decode
      dropActions .decode (modDec (fun d => { d with state := 5, parkedIn := d.state, frozen := at_ }) s)

/-- The view frame this member sends (R163). -/
def ownFrame (s : State) (r : Ring) : ViewFrame :=
  { src := r.index, epoch := (r.epoch + 1) % 256, alive := r.mask, lastStep := s.dec.elim 0xFFFFFFFF lastStep, digests := r.digests }

/-- Broadcast this member's view frame. -/
def sendView (s : State) : State :=
  match s.ring with
  | none => s
  | some r => (membersOf (r.alive ||| r.mask)).foldl (fun st i => if i = r.index then st else sendControl i (.view (ownFrame s r)) st) s

/-- Every other member of the mask has sent an identical mask (R163). -/
def viewAgreed (r : Ring) : Bool :=
  (membersOf r.mask).all (fun i => i == r.index ||
    r.frames.any (fun v => v.src == i && v.alive == r.mask && v.epoch == (r.epoch + 1) % 256))

/-- The last committed step of the session as CHANGES names it; before the first commit the spec gives no value
(notes/assumptions 3). (DESIGN CHOICE: log entry 56) -/
def changeStep (s : State) (d : Session) : Nat := if d.steps = 0 then Config.freeNat s.draw % 2 ^ 32 else d.steps - 1

/-- What belongs to the abandoned attempt is dropped: its actions, its data, and what the shares hold of another epoch (R46, R165). -/
def dropAttempt (s : State) : State :=
  match s.dec with
  | none => s
  | some d =>
    let s := dropActions .decode (modDec (fun d => { d with pendStep := none, exch := [] }) s)
    let old := fun (n : DatumName) => n.unit == 546 && !isCopy n && n.epoch != ringEpoch s
    freeWhere old (dropData (fun x => x.work == .decode && (decide (d.resumeAt ≤ x.name.stroke) || old x.name)) s)

/-- A view frame shows that its sender has committed the step or chunk that is pending here: its last committed step is not before it, or, of a chunk, the
digests that it carries are those of the pending one (R158). (DEDUCED: log entry 55) -/
def showsCommit (d : Session) (p : PendingStep) (v : ViewFrame) : Bool :=
  (v.lastStep != 0xFFFFFFFF && (p.chunk || decide (d.steps ≤ v.lastStep))) ||
    (p.chunk && !v.digests.isEmpty && v.digests.all (fun x => p.digest == some x.2))

/-- A member behind the view's last committed step completes that commit from the digests that a view frame carries; it leaves when
they are not its own (R158). -/
def catchUp (frames : List ViewFrame) (s : State) : State :=
  match s.dec with
  | none => s
  | some d =>
    match d.pendStep with
    | none => s
    | some p =>
      match frames.find? (showsCommit d p) with
      | none => s
      | some v =>
        if p.ready && v.digests.all (fun x => p.digest == some x.2) then
          let s := modRing (fun r => { r with digests := v.digests }) (commitPending s)
          modDec (fun d => if d.state = 3 || d.state = 4 then { d with base := s.prs.stroke - d.resumeAt } else d) s
        else leaveRing .digestDisagree s

/-- The changes of a view that drops `gone`: one entry of kind 1 each, in ascending order (R170). A joining spare that leaves because the holder of its
stretch has failed gets one as well. (DESIGN CHOICE: log entry 84) -/
def logFailures (gone holders : List Nat) (s : State) : State :=
  match s.dec with
  | none => s
  | some d =>
    let step := changeStep s d
    modDec (fun d => gone.foldl (fun d f => logChange ⟨step, d.resumeAt, 1, f, holders.getD f 0xFF⟩ d) d) { s with draw := s.draw + 1 }

/-- This member was voted out (R159, R166): more than half of the view hold another digest of its pending step than its own. -/
def votedOut (s : State) (d : Session) (r : Ring) : Bool :=
  d.pendStep.any (fun p => (heldDigests s d p r).any (fun x =>
    p.digest.isSome && p.digest != some x.2 && decide (popcount r.alive < 2 * ((heldDigests s d p r).filter (·.2 == x.2)).length)))

/-- Copies under way begin again under a new epoch: what went out under the earlier one is dropped where it arrives (R46, R155).
(DESIGN CHOICE: log entry 56) -/
def resendCopies (s : State) : State :=
  match s.dec, s.ring with
  | some d, some r =>
    let ours := fun (m : Mirror) => !m.done && m.holder != r.index && (heldRuns d r).any (fun x => x.holder == r.index && x.first == m.first && x.count == m.count)
    let s := (r.mirrors.filter ours).foldl (fun st m => copyStretches m.holder m.stretches st) s
    match r.joining with
    | some x => if r.holders.getD x 32 = r.index then copyStretches x [x] (copySessionTo x s) else s
    | none => s
  | _, _ => s

/-- A view that loses members or links is installed (R164, R165). A lost cable is forgotten with the member at its end: the spare that takes the index
brings links of its own. (DEDUCED / DESIGN CHOICE: log entries 55, 84) -/
def installView (r : Ring) (s : State) : State :=
  match s.dec with
  | none => s
  | some d =>
    let holders := (List.range r.count).map (newHolder r d r.mask)
    if !r.mask.getLsbD r.index then leaveRing (if votedOut s d r then .digestDisagree else .linkDown) s
    else if !(decide (popcount r.alive < 2 * popcount r.mask) || popcount r.alive == 2) then leaveRing .quorumLost s
    else if holders.contains none then leaveRing .stretchLost s
    else
      let hs := holders.filterMap id
      let gone := membersOf (r.alive &&& ~~~r.mask)
      let frames := r.frames
      let s := promoteStorage r.holders hs r s
      let s := modRing (fun r => { r with
        state := 2, epoch := (r.epoch + 1) % 256, alive := r.mask, holders := hs, suspects := [], frames := []
        lostLinks := r.lostLinks.filter (fun c => r.mask.getLsbD (c / 2) && r.mask.getLsbD (facingOf r.count (c / 2) (c % 2 * 2)))
        joining := r.joining.filter (fun i => r.mask.getLsbD i) }) s
      let s := modRing setRoutes s
      let s := catchUp frames (resume d s)
      if s.dec.any (fun d => d.state == 6) then s
      else settle (rebuildMirrors (resendCopies (dropMirrors (dropAttempt (logFailures gone hs s)))))

/-- A view that adds a joining spare is installed at a step boundary (R173 step 4); the holder of its stretch begins the copy
(step 5). (DESIGN CHOICE: log entry 56) -/
def installJoin (r : Ring) (s : State) : State :=
  let fresh := (membersOf (r.mask &&& ~~~r.alive)).head?
  let s := modRing (fun r => setRoutes { r with
    epoch := (r.epoch + 1) % 256, alive := r.mask, frames := [], spare := false
    joining := if fresh.isSome then fresh else some r.index }) s
  if fresh.isSome then resendCopies s else s

/-- The view of a hand-over is installed at a step boundary (R173 step 6): the stretch moves to the spare, the epoch advances and nothing is rolled back.
The former holder's storage is a counterproof again when it is the spare's +1 neighbour (R146), and free otherwise. The spare's −1 neighbour then copies its
own stretch to the spare's counterproof (step 7). (DESIGN CHOICE: log entry 56) -/
def installHandover (r : Ring) (index : Nat) (s : State) : State :=
  match s.dec with
  | none => s
  | some d =>
    let before := (index + r.count - 1) % r.count
    let c : Change := ⟨changeStep s d, d.resumeAt, 2, index, index⟩
    let s := modDec (fun d => logChange c d) { s with draw := s.draw + 1 }
    let s := modRing (fun r => setRoutes { r with
      epoch := (r.epoch + 1) % 256, frames := [], joining := none, handing := false, holders := r.holders.set index index
      ids := r.ids.set index (if r.index = index then identityDigest s else expectedId r index), admitted := r.admitted.filter (·.1 != index)
      mirrors := if before == index then r.mirrors else r.mirrors ++ [⟨before * r.blocks, r.blocks, [before], index, false⟩] }) s
    let s := if r.index = index || r.holders.getD index 32 != r.index then s
      else if r.index = (index + 1) % r.count then
        modMem (fun m => { m with held := updWhere (·.owner == .stretch index) (fun h => { h with owner := .counterproof index }) m.held }) s
      else release (· == .stretch index) s
    resendCopies s

/-- A joining view or a hand-over whose frames agree is installed at a boundary. (DESIGN CHOICE: log entry 56) -/
def tryJoin (s : State) : State :=
  match s.ring with
  | none => s
  | some r =>
    if r.state = 2 && viewAgreed r && atBoundary s then
      if r.mask != r.alive || r.spare then installJoin r s
      else if r.handing then r.joining.elim s (fun x => installHandover r x s)
      else s
    else s

/-- A spare whose session is READY answers the view that names it, once (R173 steps 3, 4). (DESIGN CHOICE: log entry 56) -/
def spareAnswer (s : State) : State :=
  match s.dec, s.ring with
  | some d, some r =>
    if r.spare && r.state == 2 && spareReady d && !r.frames.isEmpty && !r.answered then
      tryJoin (sendView (modRing (fun r => { r with answered := true }) s))
    else s
  | _, _ => s

/-- A view whose frames agree is installed. -/
def tryInstall (s : State) : State :=
  match s.ring with
  | none => s
  | some r => if r.state = 3 && viewAgreed r then installView r s else tryJoin s

/-- The session re-forms toward a mask (R163). -/
def proposeView (mask : BitVec 32) (s : State) : State :=
  tryInstall (sendView (modRing (fun r => { r with state := 3, mask := mask, handing := false }) (parkForView s)))

/-- Members are declared failed (R161, R170). A spare that has not taken its stretch leaves with the stretch's holder (R173). (DEDUCED: log entry 55) -/
def declareFailed (js : List Nat) (cause : Status) (s : State) : State :=
  match sessionRing s with
  | none => s
  | some r =>
    if js.contains r.index then leaveRing cause s
    else
      let cur := if r.state = 3 then r.mask else r.alive
      let spare := r.joining.toList.filter (fun x => js.contains (r.holders.getD x 32))
      let new := (js ++ spare).foldl clearBit cur
      if r.state = 3 && new == r.mask then s else proposeView new s

/-- The cables between members `i` and `j` (R137). -/
def cablesOf (r : Ring) (i j : Nat) : List Nat := ((ringPorts r.count).filter (fun p => facingOf r.count i p == j)).map (cableAt r.count i)

/-- LINK_LOST (R162): the members re-form without the link. (DEDUCED: log entry 55) -/
def loseLink (c : Nat) (s : State) : State :=
  match sessionRing s with
  | none => s
  | some r =>
    let s := modRing (fun r => { r with lostLinks := c :: r.lostLinks.filter (· != c) }) s
    if r.state = 3 then s else proposeView r.alive s

/-- Member `i` suspects member `j`, across a cable where its silence names one (R161, R162). (DEDUCED: log entry 55) -/
def suspect (i j : Nat) (cable : Option Nat) (s : State) : State :=
  match sessionRing s with
  | none => s
  | some r =>
    if !r.alive.getLsbD i || !r.alive.getLsbD j || i == j then s
    else
      let all := (i, j) :: r.suspects.filter (· != (i, j))
      let s := modRing (fun r => { r with suspects := all }) s
      if 2 ≤ (all.filter (fun x => x.2 == j && r.alive.getLsbD x.1)).length || popcount r.alive = 2 then declareFailed [j] .linkDown s
      else match cable with
      | some c => if (cablesOf r i j).contains c && !r.lostLinks.contains c then loseLink c s else s
      | none => s

/-- The session that recovery serves: open on a ring and not stopped. -/
def recovers (s : State) : Bool := s.dec.any (fun d => d.ring != 0 && d.state != 6) && s.ring.any (fun r => r.state == 2 || r.state == 3)

/-- LINK_SILENCE_TIMEOUT (R160): nothing valid from `member` on the link for 2 ms. -/
def execLinkSilenceTimeout (member : Nat) (port : PortId) (s : State) : Out :=
  .next <|
    match s.ring with
    | none => s
    | some r =>
      let c := cableAt r.count r.index port.val
      if !recovers s || !r.ports.contains port.val || facing r port.val != member || r.lostLinks.contains c then s
      else suspect r.index member (some c) (controlAll (.suspicion member (some c)) s)

/-- A member waits for a datum that `j` names (R160). -/
def waitsFor (s : State) (j : Nat) : Bool :=
  s.prs.actions.any (fun a => a.work == .decode && !a.running &&
    a.inputs.any (fun n => n.member == j && !s.prs.data.any (fun x => x.name == n))) ||
  (match s.dec, sessionRing s with
   | some d, some r => d.pendStep.any (fun p => !p.voted && r.alive.getLsbD j && !(heldDigests s d p r).any (·.1 == j))
   | _, _ => false)

/-- PROGRESS_TIMEOUT (R160): no progress of a member that is waited for, for 8 ms. It names a link when one cable alone joins the two (R162).
(DEDUCED: log entry 55) -/
def execProgressTimeout (member : Nat) (s : State) : Out :=
  .next <|
    match s.ring with
    | none => s
    | some r =>
      if !recovers s || member == r.index || !waitsFor s member then s
      else
        let c := match (cablesOf r r.index member).filter (fun c => !r.lostLinks.contains c) with
          | [c] => some c
          | _ => none
        suspect r.index member c (controlAll (.suspicion member c) s)

/-- SUSPICION_RECEIVE (R161, R162). -/
def execSuspicionReceive (src : Nat) (x : Suspicion) (s : State) : Out :=
  .next (if recovers s && !s.ring.any (fun r => r.index == src) then suspect src x.member x.cable s else s)

/-- SELF_REPORT_RECEIVE (R161): a fatal self-report declares its sender failed. -/
def execSelfReportReceive (member : Nat) (s : State) : Out :=
  .next (if recovers s && s.ring.any (fun r => r.index != member && r.alive.getLsbD member) then declareFailed [member] .linkDown s else s)

/-- OPEN_JOIN_TIMEOUT (R121): a member whose open has not succeeded in time has failed. -/
def execOpenJoinTimeout (member : Nat) (s : State) : Out :=
  .next <|
    if recovers s && s.dec.any (fun d => !d.opensSeen) && s.ring.any (fun r => r.index != member && r.alive.getLsbD member) then
      declareFailed [member] .linkDown s
    else s

/-- VIEW_FRAME_RECEIVE (R163): masks are intersected, and an agreed view is installed. A frame whose mask adds admitted spares asks
for a joining view (R173 step 4); a spare takes the epoch of the first frame that names it. While a spare is joining, a frame that drops no member
agrees to its hand-over (step 6). (DESIGN CHOICE: log entry 56) -/
def execViewFrameReceive (v : ViewFrame) (s : State) : Out :=
  .next <|
    match s.ring with
    | none => s
    | some r =>
      let note := fun (st : State) => modRing (fun r => { r with frames := v :: r.frames.filter (·.src != v.src) }) st
      if !recovers s || v.src == r.index then s
      else if r.spare && r.state == 2 then
        if !v.alive.getLsbD r.index then s
        else if r.mask == v.alive && (r.epoch + 1) % 256 == v.epoch && !r.frames.isEmpty then
          if r.answered then tryJoin (note s) else spareAnswer (note s)
        else spareAnswer (note (modRing (fun r => { r with epoch := (v.epoch + 255) % 256, mask := v.alive, frames := [], answered := false }) s))
      else if v.epoch != (r.epoch + 1) % 256 then s
      else
        let extra := v.alive &&& ~~~r.alive
        let joins := r.state == 2 && extra != 0 && v.alive &&& r.alive == r.alive &&
          (membersOf extra).all (fun i => r.admitted.any (·.1 == i))
        if joins then
          tryJoin (if r.mask == v.alive then note s else sendView (note (modRing (fun r => { r with mask := v.alive }) s)))
        else
          let old := if r.state = 3 then r.mask else r.alive
          let new := old &&& v.alive
          if r.state = 2 && r.joining.isSome && new == old then tryJoin (note s)
          else if r.state != 3 || new != old then proposeView new (note s)
          else tryInstall (note s)

/-- REFORM_TIMEOUT (R164): no view within 60 ms. The rule says nothing of a proof here, and one is issued as R28 states for stop reason 5.
(DEDUCED: log entry 55) -/
def execReformTimeout (s : State) : Out :=
  .next <|
    match s.ring with
    | none => s
    | some r =>
      if !recovers s || r.state != 3 then s
      else postEvent 0x0602 3 (pack [(statusCode .quorumLost, 16), (r.epoch, 8)]) (r.id % 2 ^ 32)
        (stopSession 5 .quorumLost true (quietRing (modRing (fun r => { r with state := 4 }) s)))

/-! ## The vote (R158, R159, R175) -/

/-- How many hold a value. -/
def holdersOf (ds : List (Nat × BitVec 64)) (v : BitVec 64) : Nat := (ds.filter (·.2 == v)).length

/-- STEP_DIGEST_VOTE (R159): all digests of the view are present. A poisoned digest makes its reader report itself (R155). -/
def execStepDigestVote (s : State) : Out :=
  .next <|
    match s.dec, sessionRing s with
    | some d, some r =>
      match d.pendStep with
      | none => s
      | some p =>
        let ds := heldDigests s d p r
        let m := popcount r.alive
        let major := ds.find? (fun x => decide (m < 2 * holdersOf ds x.2))
        if p.voted || d.state == 5 || d.state == 6 || r.state != 2 || ds.length != m then s
        else if (digestData s d p r).any (·.2.poison) then decodeFault .dataPoisoned s
        else if ds.all (fun x => p.digest == some x.2) then modDec (fun d => { d with pendStep := some { p with voted := true } }) s
        else match major with
        | some x =>
          if 3 ≤ m then declareFailed ((ds.filter (fun y => y.2 != x.2)).map (·.1)) .digestDisagree s
          else s
        | none =>
          if !d.replayed then
            let c : Change := ⟨changeStep s d, d.resumeAt, 3, 0xFF, 0xFF⟩
            let s := modRing (fun r => { r with epoch := (r.epoch + 1) % 256 }) { s with draw := s.draw + 1 }
            let s := resendCopies (dropAttempt (modDec (fun d => logChange c d) s))
            settle (modDec (fun d => { d with replayed := true, base := s.prs.stroke - d.resumeAt }) s)
          else stopSession 5 .digestDisagree true s
    | _, _ => s

/-- PREFILL_CHUNK (R127). (DEDUCED: log entry 49) -/
def execPrefillChunk (s : State) : Out := .next (tryJoin (prefillNext s))

/-- STEP_COMMIT (R132); a joining view waits for the boundary that follows it (R173). -/
def execStepCommit (s : State) : Out := .next (tryJoin (if mayCommit s then commitPending s else s))

/-! ## Spares and mirrors (R169, R173) -/

/-- OPEN_DIGEST_EXCHANGE (R121): `digests` are those of the members whose opens have succeeded. Before the first prefill stroke they
must all be equal; afterwards an admitted spare whose digest is equal is proposed for a joining view (R173 step 3). (DESIGN CHOICE: log entry 56) -/
def execOpenDigestExchange (digests : List (Nat × Bytes)) (s : State) : Out :=
  .next <|
    match s.dec, sessionRing s with
    | some d, some r =>
      let same := fun (i : Nat) => digests.any (fun x => x.1 == i && x.2 == sha512 d.openBytes)
      let there := fun (i : Nat) => digests.any (fun x => x.1 == i)
      if d.state = 6 then s
      else if !d.opensSeen then
        if !(others r).all there then s
        else if (others r).all same then modDec (fun d => { d with opensSeen := true }) s
        else postEvent 0x0501 2 (statusCode .digestDisagree) d.ring (stopSession 5 .digestDisagree false s)
      else match r.admitted.find? (fun a => !r.alive.getLsbD a.1 && same a.1) with
      | some a =>
        if r.state = 2 && r.joining.isNone && r.mask == r.alive then
          tryJoin (sendView (modRing (fun r => { r with mask := setBit r.alive a.1 }) s))
        else s
      | none => s
    | _, _ => s

/-- SPARE_HANDOVER (R173 step 6): the stretch has arrived at the joining spare, and the members agree on the view that moves it.
(DESIGN CHOICE: log entry 56) -/
def execSpareHandover (index : Nat) (s : State) : Out :=
  .next <|
    match s.dec, sessionRing s with
    | some d, some r =>
      if r.joining != some index || r.state != 2 || d.state == 6 || !r.alive.getLsbD index || r.handing then s
      else tryJoin (sendView (modRing (fun r => { r with handing := true, mask := r.alive }) s))
    | _, _ => s

/-- The counterproof of the spare `x` is complete: every rebuilt mirror of its −1 neighbour's stretch and of a run with its own stretch is replaced and
goes (R173 step 7). -/
def releaseReplaced (x : Nat) (s : State) : State :=
  modRing (fun r =>
    let before := (x + r.count - 1) % r.count
    { r with mirrors := r.mirrors.filter (fun m => (m.holder == x && m.stretches == [before]) || !(m.stretches == [before] || m.stretches.contains x)) }) s

/-- MIRROR_REBUILD_DONE (R169, R173 step 7): every block of a mirror has arrived. (DESIGN CHOICE: log entry 56) -/
def execMirrorRebuildDone (first count : Nat) (s : State) : Out :=
  .next <|
    match s.dec, sessionRing s with
    | some d, some r =>
      match r.mirrors.find? (fun m => m.first == first && m.count == count && !m.done) with
      | none => s
      | some m =>
        let s := modRing (fun r => { r with mirrors := r.mirrors.map (fun x => if x == m then { x with done := true } else x) }) s
        if joinedSpare d m.holder then rebuildMirrors (dropMirrors (releaseReplaced m.holder s))
        else if m.holder = r.index then postEvent 0x0603 0 (pack [(first, 32), (count, 32)]) (r.id % 2 ^ 32) s
        else s
    | _, _ => s

end Sys2Proof.Machine
end

