-- ==== Sys2Proof/Machine/Telemetry.lean ====
section
/-! DEFINITION. Snapshots (02_strokes_and_press.md R50) and the telemetry buffer they fill (22_test_and_telemetry.md R414, R415, R416,
R420). Counters of cycles and time, and byte counts of the physical HBM, are free values (notes/assumptions 3). -/

namespace Sys2Proof.Machine

/-! ## What a snapshot latches -/

/-- A 64-bit counter saturates (R415). -/
def sat64 (n : Nat) : Nat := min n (2 ^ 64 - 1)

/-- Counter `i` after the intervals `l` and the present one: each adds a free value (R415). -/
def accumulated (s : State) (l : List Nat) (i : Nat) : Nat := sat64 (sumNat ((l ++ [s.draw]).map (fun d => (Config.freeCount d i).toNat)))

/-- Counter `k` of domain `d`: BUSY, WAIT, LANE, ARRAY cycles (0 to 3). Those of domains 0 to 539 start again at a core reset. (DEDUCED: log entry 41) -/
def domainCount (s : State) (d k : Nat) : Nat := accumulated s (if d < 540 then s.tst.coreSpans else s.tst.spans) (8 * d + k)

/-- A counter of the module record that the physical memory or the clock fixes: the strokes' time, HBM bytes read and written. (DEDUCED: log entry 41) -/
def moduleCount (s : State) (k : Nat) : Nat := accumulated s s.tst.spans (8 * 551 + k)

/-- The longest stroke: the greatest of the free values of its intervals. (DEDUCED: log entry 41) -/
def longestStroke (s : State) : Nat :=
  (s.tst.spans ++ [s.draw]).foldl (fun m d => max m (Config.freeCount d (8 * 551 + 1)).toNat) 0

/-- The block behind a domain is being tested or has no power: its record reads 0 and is not valid (R50, R412). -/
def domainDown (s : State) (d : Nat) : Bool :=
  !s.rst.railsOn ||
  (match s.tst.running with
   | none => false
   | some (kind, sheets, blocks) =>
     (decide (d < 512) && sheets.getLsbD (sheetOf d)) ||
     (kind == 1 && d == 541 && blocks.testBit 0) || (kind == 1 && decide (545 ≤ d ∧ d ≤ 549) && blocks.testBit (d - 544)) ||
     (kind == 2 && blocks != 0 && d == 548))

/-- Word `k` of a domain record (Table 22-4). The graver records read 0 in confidential mode (R415). -/
def domainWord (s : State) (d k : Nat) : Nat :=
  let graver := decide (d < 512)
  let hidden := graver && confidential s
  if domainDown s d then 0
  else if k = 0 then
    1 + (if (participants s).contains d && !hidden then 2 else 0) + (if confidential s then 4 else 0)
  else if hidden then 0
  else if k = 1 then sat64 (mapGet s.prs.retired d)
  else if k = 2 then timeReading s (domainCount s d 0)
  else if k = 3 then timeReading s (domainCount s d 1)
  else if !graver then 0
  else if k = 4 then timeReading s (domainCount s d 2)
  else if k = 5 then timeReading s (domainCount s d 3)
  else if k = 6 then mapGet s.pla.accOvf d
  else mapGet s.pla.parityAll d

/-- A per-die sum of graver counters (Table 22-5). -/
def dieSum (s : State) (die k : Nat) : Nat :=
  timeReading s (sat64 (sumNat ((List.range 128).map (fun g =>
    if domainDown s (die * 128 + g) then 0 else domainCount s (die * 128 + g) k))))

/-- The 64-bit word of the module record at an offset (Table 22-5). -/
def moduleWord (s : State) (off : Nat) : Nat :=
  if off = 0x040 then s.prs.advances
  else if off = 0x048 then timeReading s (moduleCount s 0)
  else if off = 0x050 then timeReading s (sat64 (longestStroke s))
  else if off = 0x058 then moduleCount s 2
  else if off = 0x060 then moduleCount s 3
  else if off = 0x068 then s.hev.keyStream
  else if decide (0x080 ≤ off ∧ off < 0x100) then dieSum s ((off - 0x080) / 32) ((off - 0x080) / 8 % 4)
  else 0

/-- The block copies (Table 22-8): buffer offset, size, function, block, offset within its register space. -/
def blockCopies : List (Nat × Nat × Nat × Blk × Nat) :=
  [(0x9000, 0x400, 0, .prs, 0), (0x9400, 0x400, 0, .pla, 0), (0x9800, 0x400, 2, .ptn, 0), (0x9C00, 0x400, 3, .hev, 0),
   (0xA000, 0x400, 4, .rdm, 0), (0xA400, 0x800, 0, .buf, 0), (0xAC00, 0x400, 0, .kst, 0), (0xB000, 0x400, 0, .mpr, 0),
   (0xB400, 0x400, 0, .clk, 0), (0xB800, 0x400, 0, .ent, 0), (0xBC00, 0x400, 0, .hif, 0), (0xC000, 0x400, 0, .tst, 0),
   (0xC400, 0x400, 0, .rst, 0)] ++
  (List.range 5).map (fun p => (0xC800 + 0x100 * p, 0x100, 4, Blk.lnk, 0x100 * p))

/-- The state whose `_HI` registers pair with their `_LO` registers (R420). -/
def pairedHi (s : State) : State :=
  modCvu (fun c => { c with resultHi := BitVec.ofNat 32 (cvuResult c / 2 ^ 32) })
    (latchHi .strokeLo (latchHi .lastApplyLo (latchHi .lastSwapLo (latchHi .keyStreamLo s))))

/-- A byte of the block copies. -/
def copyByte (s : State) (off : Nat) : Byte :=
  match blockCopies.find? (fun c => decide (c.1 ≤ off ∧ off < c.1 + c.2.1)) with
  | some (base, _, fn, b, start) =>
    let o := off - base + start
    BitVec.ofNat 8 (regRead (pairedHi s) fn b (o / 4 * 4) / 2 ^ (8 * (o % 4)))
  | none => 0

/-- A byte that a snapshot of stroke `at_` writes (Table 22-3); `SEQ` is kept apart. -/
def telemetryByte (s : State) (at_ off : Nat) : Byte :=
  let pick := fun (v k : Nat) => BitVec.ofNat 8 (v / 2 ^ (8 * k))
  if off < 0x008 then pick at_ off
  else if off = 0x00C then pick (b2n (confidential s)) 0
  else if off < 0x040 then 0
  else if off < 0x400 then pick (moduleWord s (off / 8 * 8)) (off % 8)
  else if off < 0x8DC0 then pick (domainWord s ((off - 0x400) / 64) (off % 64 / 8)) (off % 8)
  else if decide (0x9000 ≤ off ∧ off < 0xCD00) then copyByte s off
  else 0

/-- The cells of the bytes `f 0` to `f (n − 1)`, in canonical form. -/
def cellsOf (n : Nat) (f : Nat → Byte) : List Host.Cell :=
  (List.range n).filterMap (fun i => if f i = 0 then none else some (i, f i))

/-- `n` bytes of the telemetry buffer from `off`, up to its end. -/
def tlmBytes (s : State) (off n : Nat) : Bytes := (List.range (min n (0x10000 - off))).map (fun i => tlmByte s (off + i))

/-! ## R50 -/

/-- What comes of a request for a snapshot. -/
inductive ArmEnd where
  | armed | pending | late | denied
  deriving DecidableEq, Repr

/-- R50 for target stroke `S`, written to SNAP_AT: ignored while one is pending, refused as late, refused by the confidential interval, or armed. (DEDUCED: log entry 42) -/
def armSnapshot (S : Nat) (s : State) : ArmEnd × State :=
  let t := s
  let s := modPrs (fun p => { p with snapAt := S }) s
  if t.prs.snapPending then (.pending, t)
  else if S ≤ s.prs.stroke then (.late, modPrs (fun p => { p with sticky := setBit p.sticky 1 }) s)
  else if confidential s && s.prs.snapTime.any (fun t => decide (s.now < t + 1000000)) then
    (.denied, modPrs (fun p => { p with sticky := setBit p.sticky 2 }) s)
  else (.armed, modPrs (fun p => { p with snapPending := true, snapTarget := S }) s)

/-- SNAPSHOT_LATCH (R50 step 3, R414): the values of this stroke are latched, and the module begins to write the buffer. (DEDUCED: log entry 41) -/
def latchSnapshot (s : State) : State :=
  let cells := cellsOf 0x10000 (telemetryByte s s.prs.stroke)
  modTst (fun t => { t with latched := cells, spans := t.spans ++ [s.draw], coreSpans := t.coreSpans ++ [s.draw], seq := (if t.seq % 2 = 0 then t.seq + 1 else t.seq + 2) % 2 ^ 32 })
    (modPrs (fun p => { p with snapLatched := true, snapTime := some s.now }) { s with draw := s.draw + 1 })

/-- A pending snapshot is cancelled (R40, R414). One whose buffer was being written leaves it half written, `SEQ` odd. (DEDUCED: log entry 41) -/
def cancelSnapshot (s : State) : State :=
  let s1 := if s.prs.snapLatched then
      modTst (fun t => { t with buffer := cellsOf 0x10000 (fun i => if decide (0x008 ≤ i ∧ i < 0x00C) then 0 else tlmByte s i) })
        { s with draw := s.draw + 0x10000 }
    else s
  modTst (fun t => { t with latched := [] }) (modPrs (fun p => { p with snapPending := false, snapLatched := false }) s1)

/-- SNAPSHOT_DONE (R50 step 4): all latched values are in the buffer. -/
def execSnapshotDone (s : State) : Out :=
  .next <|
    if !s.prs.snapLatched then s
    else
      postEvent 0x0B01 0 s.prs.snapTarget 0
        (modTst (fun t => { t with buffer := t.latched, latched := [], seq := (t.seq + 1) % 2 ^ 32 })
          (modPrs (fun p => { p with snapPending := false, snapLatched := false, snapDone := true }) s))

/-- SNAP_CTRL_ARM (R50): a write of 1 to `PRS.SNAP_CTRL.ARM`. -/
def armFromRegister (s : State) : State := (armSnapshot s.prs.snapAt s).2

/-- SNAPSHOT_ARM (0x0B04, R416). -/
def execSnapshotArm (mb : MbId) (s : State) : Out :=
  .next <| onNewJob mb 0x0B04 s fun j =>
    if !lenIs j 8 then answer j .badArg s
    else
      let r := armSnapshot (arg j 0 8) s
      answer j (match r.1 with
        | .armed => .ok
        | .pending => .busy
        | .late => .badArg
        | .denied => .notPermitted) r.2

/-- SNAPSHOT_READ (0x0B05, R409, R414). -/
def execSnapshotRead (mb : MbId) (s : State) : Out :=
  .next <| onNewJob mb 0x0B05 s fun j =>
    let off := arg j 0 4
    let n := arg j 4 4
    if !lenIs j 8 || n == 0 || decide (16312 < n) || decide (0x10000 ≤ off) then answer j .badArg s
    else finish j .ok (tlmBytes s off n) { s with draw := s.draw + 0x10000 }

end Sys2Proof.Machine
end

