-- ==== Sys2Proof/Machine/Press.lean ====
section
/-! DEFINITION. Actions and the press (02_strokes_and_press.md R34 to R50, R437), plate loads (03_fabric_and_plates.md R66, R67) and
twin disagreements (R72, R73). -/

namespace Sys2Proof.Machine

/-! ## Actions (R34, R42 to R44) -/

/-- The datum that an action reads, or would publish again, under a name: what its work's run and its half have published, or what came over the
ring (R42, R72, R218). (DEDUCED: log entry 43) -/
def datumAt (s : State) (a : Action) (n : DatumName) : Option Datum :=
  s.prs.data.find? (fun d => d.work == a.work && d.name == n && d.run == a.run && (d.second == a.twin || d.readers == 0))

/-- R34: the work is in motion, its session stroke has reached START, and every input is present. (DEDUCED: log entry 43) -/
def mayStart (s : State) (a : Action) : Bool :=
  !a.running && (workBase s a.work).isSome && decide (a.start ≤ sessionStroke s a.work) && a.inputs.all (fun n => (datumAt s a n).isSome)

/-- A consumer has read a datum: it leaves when every consumer named for it has (R44). One that came over the ring leaves when no action of
the session still has to read it, and what the shares hold of it leaves with it (R47). (DEDUCED: log entry 43) -/
def consume (a : Action) (s : State) (n : DatumName) : State :=
  match datumAt s a n with
  | none => s
  | some d =>
    let gone := if d.readers = 0 then waitingFor s a.work n = 0 else d.readers = 1
    let keep := fun (x : Datum) => x == d
    if gone then dropData keep s
    else modPrs (fun p => { p with data := updWhere keep (fun x => { x with readers := x.readers - 1 }) p.data }) s

/-- The device address that an action reads for a reference: in its graver's SRAM, or in what its session holds of HBM; none outside these. -/
def readAt (s : State) (a : Action) (r : MemRef) : Option Nat :=
  let held := fun (o : Owner) =>
    if a.work == .decode then (s.mem.held.find? (fun h => h.owner == o && decide (r.off + r.len ≤ h.len))).map (fun h => h.base + r.off) else none
  match r.area with
  | .sram => if a.unit < 512 ∧ r.off + r.len ≤ graverBytes then some (sramBase + a.unit * graverBytes + r.off) else none
  | .weights => held .weights
  | .kv => held (.stretch (ownStretch s))
  | .draftKv => held .draftKv

/-- What an action reads from memory, with whether a word of it carries a poison tag (R54, R360). (DEDUCED: log entry 43) -/
def actionReads (bad : List MemFail) (a : Action) : List MemRef → State → List Bytes × Bool × State
  | [], s => ([], false, s)
  | r :: rs, s =>
    match readAt s a r with
    | none => let t := actionReads bad a rs s; ([] :: t.1, t.2)
    | some x =>
      let g := checkedRead bad x r.len s
      let v := if r.area = .weights then s.weights.elim [] (fun w => slice w.bytes r.off r.len) else g.1
      let t := actionReads bad a rs g.2.2
      (v :: t.1, g.2.1 || t.2.1, t.2.2)

/-- An action has read a poisoned word: a session ends or its member leaves (R135, R155), an operation ends at its completion (R217), and
what the action publishes carries poison. -/
def readPoison (a : Action) (s : State) : State :=
  match a.work with
  | .decode => decodeFault .dataPoisoned s
  | .ctx _ => modHev (fun v => { v with ops := updWhere (fun o => ofOp o a.work a.run) (fun o => { o with poisoned := true }) v.ops }) s
  | .round _ => s

/-- What an action of the ring exchange has read belongs to its step (R150). -/
def noteExchange (a : Action) (read : List (DatumName × Bytes)) (s : State) : State :=
  if a.exch.isSome then modDec (fun d => { d with exch := d.exch ++ read }) s else s

/-- ACTION_BEGIN (R34): the action reads its inputs, and its memory: `bad` are the addresses that fail on this read (R54, R360). -/
def execActionBegin (a : ActionReads) (s : State) : Out :=
  .next <|
    match s.prs.actions.find? (·.id == a.id) with
    | none => s
    | some x =>
      if !mayStart s x then s
      else
        let ins := x.inputs.filterMap (datumAt s x)
        let m := actionReads a.bad x x.reads s
        let poison := ins.any (·.poison) || m.2.1
        let run := fun (y : Action) => { y with running := true, consumed := ins.map (·.bytes) ++ m.1, poisoned := poison }
        let s1 := modPrs (fun p => { p with actions := updWhere (·.id == a.id) run p.actions }) m.2.2
        let s1 := x.inputs.foldl (consume x) (noteExchange x (ins.map (fun d => (d.name, d.bytes))) s1)
        if poison then readPoison x s1 else s1

/-! ## Work that ends by fault (R437) -/

/-- ENGINE_FAULT_END (R437): every open work ends. (DEDUCED: log entry 44) -/
def endAllWork (s : State) : State :=
  let s := abortRounds (decodeFault .engineFault s)
  s.hev.ctxs.foldl (fun st c => faultCtx c.handle .engineFault .engineFault st) s

/-- A fatal report of the engine (R41 step 3, R43): a member of a ring reports itself, in its session's leave or on its own; all open work
ends. (DEDUCED: log entry 44) -/
def engineFault (s : State) : State :=
  endAllWork (match s.ring, sessionRing s with
    | some r, none => controlAll (.selfReport r.index) s
    | _, _ => s)

/-- A domain's actions that hold the present stroke back (R35): instantiated by a work in motion and due by now. -/
def heldActions (s : State) (d : Nat) : List Action :=
  s.prs.actions.filter (fun a => a.unit == d && (workBase s a.work).isSome && decide (a.due ≤ sessionStroke s a.work))

/-- A load action holds the present stroke back (R66 step 4). -/
def loadHolds (s : State) : Bool :=
  s.pla.swaps.any (fun x => x.loading && !x.loaded && (workBase s x.work).isSome && decide (x.stroke ≤ sessionStroke s x.work + 1))

/-- A participating domain has not retired the present stroke. -/
def unretired (s : State) (d : Nat) : Bool := !(heldActions s d).isEmpty || (d == 541 && loadHolds s)

/-- The ring data of an action's outputs go to these members: a partial to the merger it is for, a digest and a merged u to every other (R150, R158,
Table 7-7). -/
def sendTo (r : Ring) (slot : Nat) : List Nat :=
  if slot / 2 ^ 14 = 2 then [slot / 2 ^ 9 % 32].filter (fun i => i != r.index && r.alive.getLsbD i)
  else if slot / 2 ^ 14 = 0 then []
  else others r

/-- What an action of the ring exchange publishes: the partials and the merged u of a layer, and the digest once the step is evaluated (R150,
R157). -/
def exchangeOut (s : State) (e : Exch) : List Bytes :=
  match s.dec, s.weights, inRing s with
  | some d, some w, some r =>
    d.pendStep.elim [] (fun p =>
      let nodes := stepNodes d p
      let x : Exchange := { S := d.invoked, nodes := nodes, hi := maxNat (nodes.map (·.pos)), data := d.exch }
      match e with
      | .partials l => partialPayloads w.bytes r x (heldKv s d) l
      | .merged l => [outputPayload w.bytes r x (heldKv s d) l]
      | .digest => p.digest.toList.map (bvBytes 8))
  | _, _, _ => []

/-- The step is evaluated as its digest is published (R158). -/
def evaluateFor (a : Action) (s : State) : State := if a.exch = some .digest then evaluateStep s else s

/-- What an action's work gives (R52, R76): the steps of its plate on what it has read, or the ring exchange. -/
def workedOut (s : State) (a : Action) : Worked :=
  match a.exch with
  | some e => { vals := exchangeOut (evaluateFor a s) e, accs := [], ovf := 0 }
  | none =>
    let srcs := a.inputs.map (fun n => if n.member = memberIndex s then n.unit else 1023)
    runSteps ((configAt s a.plate).elim [] (·.image)) a.unit a.steps srcs a.consumed

/-- The value an action publishes in a slot, as the data path delivers it: `upset` gives the slots whose bytes a fault has changed (R72). -/
def published (w : Worked) (upset : List (Nat × Bytes)) (o : DatumName × Nat × Nat) : Bytes :=
  match upset.find? (·.1 == o.1.slot) with
  | some u => u.2
  | none => w.vals.getD o.2.2 []

/-- The ports that the frames of a send action leave by, each with the length of the first of them. -/
def sendPorts (s : State) (a : Action) : List (Nat × Nat) :=
  match a.sends, sessionRing s with
  | true, some r =>
    let w := workedOut s a
    a.outputs.flatMap (fun o => (sendTo r o.1.slot).filterMap (fun i =>
      (route r i).map (fun p => (p.1, min 8192 (published w [] o).length))))
  | _, _ => []

/-- A send action's frames can be accepted by the ports that they leave by (R47); stretch copies that wait there hold no datum back (R169).
(DEDUCED: log entry 43) -/
def sendAccepted (s : State) (a : Action) : Bool :=
  (sendPorts s a).all (fun p => canSend s p.1 1 p.2 && (get5 s.ports p.1).ringQ.all (·.type == 3))

/-- A domain waits only for what another member sends, or for a paused port (R41): each of its held actions waits for a name of another
member, or is a send that a pause of R47 holds. (DEDUCED: log entry 43) -/
def remoteWait (s : State) (d : Nat) : Bool :=
  !(d == 541 && loadHolds s) && (heldActions s d).all (fun a =>
    if a.running then !sendAccepted s a && (sendPorts s a).any (fun p => (get5 s.ports p.1).xoffIn)
    else
      let absent := a.inputs.filter (fun n => (datumAt s a n).isNone)
      !absent.isEmpty && absent.all (fun n => n.member != memberIndex s))

/-! ## Publication (R35, R42, R43, R52, R72, R83) -/

/-- Insert checked data in the order of R72: the primary unit number, then the slot; what one slot publishes twice, in the order of the action lists.
(DEDUCED: log entry 43) -/
def insertCheck (c : CheckDatum) : List CheckDatum → List CheckDatum
  | [] => [c]
  | x :: xs =>
    if c.unit < x.unit || (c.unit == x.unit && (decide (c.slot < x.slot) || (c.slot == x.slot && decide (c.action < x.action)))) then c :: x :: xs
    else x :: insertCheck c xs

/-- Publish one output of an action under its name at the present session stroke; a name already present is a double write. A slot of the check
list of a twin work is kept for the stroke's comparison (R72). -/
def publish (a : Action) (w : Worked) (upset : List (Nat × Bytes)) (r : Bool × State) (o : DatumName × Nat × Nat) : Bool × State :=
  let n := if a.exch.isSome then o.1 else { o.1 with stroke := sessionStroke r.2 a.work }
  if (datumAt r.2 a n).isSome then (true, r.2)
  else
    let bytes := published w upset o
    let s := if o.2.1 = 0 then r.2
      else modPrs (fun p => { p with data := p.data ++ [{ name := n, bytes := bytes, poison := a.poisoned, readers := o.2.1, work := a.work,
                                                             run := a.run, second := a.twin }] }) r.2
    let s := if (grantOf s a.work).any (·.twin) && a.checked.contains n.slot then
        let unit := if a.twin && decide (a.unit < 512) then Nat.xor a.unit 0x100 else a.unit
        let c : CheckDatum := { work := a.work, run := a.run, action := a.id, second := a.twin, due := a.due, unit := unit, slot := n.slot, bytes := bytes }
        modPrs (fun p => { p with checks := insertCheck c p.checks }) s
      else s
    let s := match a.sends, sessionRing s with
      | true, some g => (sendTo g n.slot).foldl (fun st i => sendDatum i n bytes st) s
      | _, _ => s
    (r.1, s)

/-- What an action leaves in its graver: the accumulators of its last product, the overflows counted (R52, R83), and what it stores in SRAM. -/
def leaveInGraver (a : Action) (w : Worked) (s : State) : State :=
  if a.unit < 512 then
    let keep := fun (l : List (Nat × BitVec 80)) => l.filter (fun x => !decide (a.unit * 4096 ≤ x.1 ∧ x.1 < a.unit * 4096 + w.accs.length))
    let new := (w.accs.take 4096).zipIdx.filterMap (fun x => if x.1 = 0 then none else some (a.unit * 4096 + x.2, x.1))
    let s := modPla (fun p => { p with
      accums := keep p.accums ++ new
      accOvf := mapSet p.accOvf a.unit (satAdd 64 (mapGet p.accOvf a.unit) w.ovf) }) s
    a.stores.foldl (fun st x =>
      let b := w.vals.getD x.2 []
      if x.1 + b.length ≤ graverBytes then (memWrite (sramBase + a.unit * graverBytes + x.1) b st).2 else st) s
  else s

/-- ACTION_COMPLETE (R35, R42, R43, R47, R52, R72, R262): the action publishes its outputs, sends what it sends, leaves its accumulators and its
stores, raises its trigger counter and leaves its unit's list. `upset` gives the slots whose published bytes a fault of the graver has changed. -/
def execActionComplete (a : Nat) (upset : List (Nat × Bytes)) (s : State) : Out :=
  .next <|
    match s.prs.actions.find? (·.id == a) with
    | none => s
    | some x =>
      if !x.running || !sendAccepted s x then s
      else
        let w := workedOut s x
        let s1 := leaveInGraver x w (evaluateFor x <| modPrs (fun p => { p with actions := p.actions.filter (·.id != a) }) s)
        let r := x.outputs.foldl (publish x w upset) (false, s1)
        let s2 := match x.trigger with
          | some t => raiseTrigger (t % 65536) 1 r.2
          | none => r.2
        if r.1 then engineFault s2 else s2

/-! ## The twin check (R72, R73) -/

/-- The check value of one half of a work for its retiring stroke: a CRC-64 over the checked data of the actions due by it. (DEDUCED: log entry 43) -/
def halfCheck (s : State) (w : Work) (second : Bool) : BitVec 64 :=
  crc64 0 ((s.prs.checks.filter (fun c => c.work == w && c.second == second && decide (c.due ≤ sessionStroke s w))).flatMap (·.bytes))

/-- The works whose halves disagree on the stroke that would retire. -/
def twinDiffers (s : State) : List Work :=
  ((s.pla.grants.filter (fun g => g.twin && (workBase s g.work).isSome)).map (·.work)).filter (fun w => halfCheck s w false != halfCheck s w true)

/-- The checked data of the strokes that retire have been compared. -/
def dropChecks (s : State) : State :=
  modPrs (fun p => { p with checks := p.checks.filter (fun c => (workBase s c.work).isSome && decide (sessionStroke s c.work < c.due)) }) s

/-- The check value of one half for one operation of a context. -/
def opCheck (s : State) (o : HOp) (second : Bool) : BitVec 64 :=
  crc64 0 ((s.prs.checks.filter (fun c => ofOp o c.work c.run && c.second == second && decide (c.due ≤ sessionStroke s (.ctx o.ctx)))).flatMap (·.bytes))

/-- The operations of a context that a disagreement of its halves reruns: those whose own data differ, and where none of them differs alone, all
that checked data in the stroke. (DEDUCED: log entry 71) -/
def differingOps (s : State) (h : Nat) : List HOp :=
  let ran := s.hev.ops.filter (fun o => o.ctx == h && s.prs.checks.any (fun c => ofOp o c.work c.run && decide (c.due ≤ sessionStroke s (.ctx h))))
  let own := ran.filter (fun o => opCheck s o false != opCheck s o true)
  if own.isEmpty then ran else own

/-- A work whose halves disagree (R73), counted once: a decode session replays its step, and a context reruns the operations whose data differ. -/
def twinMismatch (s : State) (w : Work) : State :=
  let s1 := modPrs (fun p => { p with checks := p.checks.filter (·.work != w) }) s
  match w with
  | .decode => twinReplay (countMismatch s1)
  | .ctx h => (differingOps s h).foldl (fun st o => rerunMidway o st) (countMismatch s1)
  | .round _ => s1

/-! ## A stroke boundary (R37, R38, R40, R48 to R50) -/

/-- SHADOW_APPLY (R49, R398): pending shadow values and F divisor changes apply, and LAST_APPLY is recorded. (DEDUCED: log entry 42) -/
def applyShadows (s : State) : State :=
  let d := applyDivisors s
  let any := d.1 || s.prs.limitShadow.isSome || s.clk.capShadow.isSome
  let s := modClk (fun c => { c with capW := c.capShadow.getD c.capW, capShadow := none }) d.2
  modPrs (fun p => { p with limitMs := p.limitShadow.getD p.limitMs, limitShadow := none,
                            lastApply := if any then p.stroke else p.lastApply }) s

/-- The plates of an operation's plan whose swap stroke has begun are invoked, and a burnish run whose last swap is done has no more to come
(R218, R226). -/
def burnishTurn (s : State) (o : HOp) : State := turn o.plan s
where
  /-- The plan that is left is kept. -/
  keep (l : List (Nat × Nat)) : State → State := modHev (fun v => { v with ops := updWhere (·.desc == o.desc) (fun x => { x with plan := l }) v.ops })
  /-- The plates due run, in the order of the plan. -/
  turn : List (Nat × Nat) → State → State
    | [], s => keep [] s
    | (S, plate) :: rest, s =>
      if sessionStroke s (.ctx o.ctx) < S then keep ((S, plate) :: rest) s
      else if plate = 0 then turn rest s
      else match s.pla.active.find? (fun a => a.work == .ctx o.ctx && a.plate == plate) with
        | some a => turn rest (invokePlate (.ctx o.ctx) (some o.desc) a S s)
        | none => keep ((S, plate) :: rest) s

/-- What comes at the start of a stroke, in its order: shadows, swaps, the snapshot, then the actions that the stroke's swaps and binds
begin. (DEDUCED: log entry 42) -/
def beginStroke (s : State) : State :=
  let s := applySwaps (applyShadows s)
  let s := if s.prs.snapPending && !s.prs.snapLatched && s.prs.snapTarget == s.prs.stroke then latchSnapshot s else s
  let s := startLoads s
  spareAnswer (readyCheck (s.hev.ops.foldl burnishTurn s))

/-- A decode session, a round or a context is open (R40). -/
def somethingOpen (s : State) : Bool := s.dec.isSome || !s.ptn.rounds.isEmpty || !s.hev.ctxs.isEmpty

/-- STROKE_REBASE (R40): the counter is set to 0, a pending snapshot is cancelled, and an event is posted. (DEDUCED: log entry 42) -/
def rebase (s : State) : State :=
  let late := s.prs.snapPending
  let old := s.prs.stroke
  let s := cancelSnapshot s
  let s := modPrs (fun p => { p with stroke := 0, sticky := if late then setBit p.sticky 1 else p.sticky, stalled := false }) s
  applyShadows (postEvent 0x0401 0 old 0 s)

/-- STROKE_EXHAUSTED (R40): everything still open ends by fault; a session's proof is issued as for every stop reason 5 (R28).
(DEDUCED: log entry 44) -/
def exhaust (s : State) : State :=
  let s := abortRounds (stopSession 5 .strokeGuard true s)
  s.hev.ctxs.foldl (fun st c => faultCtx c.handle .strokeGuard .strokeGuard st) s

/-- A stroke boundary: the counter rebases, is exhausted, or advances (R37, R38, R40). -/
def boundary (s : State) : State :=
  if guardSet s && !somethingOpen s then rebase s
  else if exhausted s then exhaust s
  else
    let s := modPrs (fun p => { p with stroke := p.stroke + 1, advances := satAdd 64 p.advances 1, stalled := false }) s
    if exhausted s then exhaust (beginStroke s) else beginStroke s

/-- The present stroke retires: the halves of every twin work are compared (R72), and the boundary follows where they agree. -/
def retireStroke (s : State) : State :=
  if (twinDiffers s).isEmpty then boundary (dropChecks s) else (twinDiffers s).foldl twinMismatch s

/-- PRESS_ADVANCE (R37): every participating domain has retired the stroke. -/
def execPressAdvance (s : State) : Out :=
  .next <|
    let ds := participants s
    if !s.rst.railsOn || s.rst.inReset || s.rst.optLoad || ds.isEmpty || ds.any (unretired s) || decodeHolds s then s
    else if !(twinDiffers s).isEmpty then retireStroke s
    else retireStroke (modPrs (fun p => { p with retired := ds.foldl (fun m d => mapSet m d (satAdd 64 (mapGet m d) 1)) p.retired }) s)

/-- IDLE_STROKE (R38): while no domain participates, one stroke every microsecond. -/
def execIdleStroke (s : State) : Out :=
  .next <| if !s.rst.railsOn || s.rst.inReset || s.rst.optLoad || !(participants s).isEmpty || decodeHolds s then s
    else retireStroke (modClk (fun c => { c with idle := true }) s)

/-- PRESS_STALL (R41, R437): the stall time has reached its limit. The timer runs only while some domain that has not retired reports local
work. (DEDUCED: log entry 43) -/
def execPressStall (s : State) : Out :=
  .next <|
    let late := (participants s).filter (unretired s)
    match late with
    | [] => s
    | d :: _ =>
      if late.all (remoteWait s) then s
      else
        let s := modPrs (fun p => { p with stallDomain := d, stalled := true, sticky := setBit p.sticky 3 }) s
        engineFault (postEvent 0x0402 3 (stallDomainRead s) 0 s)

/-! ## Plate loads (R66, R67) -/

/-- The handle of a work's session, round or context. -/
def workHandle (s : State) : Work → Nat
  | .decode => s.dec.elim 0 (·.handle)
  | .round h => h
  | .ctx h => h

/-- A work ends by a poisoned load (R67, R135, Table 11-3). -/
def loadFault (w : Work) (s : State) : State :=
  match w with
  | .decode => decodeFault .dataPoisoned s
  | .round h => abortRound h s
  | .ctx h => faultCtx h .dataPoisoned .dataPoisoned s

/-- The loader has read a poisoned word of a staged plate (R67): the plate leaves the store, and every work whose bind of it is not loaded ends by fault,
its shadow no longer valid. A work whose buffers have taken the plate up keeps it there. (DEDUCED: log entry 44) -/
def poisonedPlate (plate : Nat) (s : State) : State :=
  let lost := s.pla.swaps.filter (fun y => y.plate == plate && !y.loaded)
  let s := modPla (fun p =>
    let kept := p.swaps.filter (fun y => !(y.plate == plate && !y.loaded))
    { p with
      sticky := setBit p.sticky 3
      swaps := kept
      store := p.store.filter (·.handle != plate)
      loose := if kept.any (·.plate == plate) || p.active.any (·.plate == plate) then p.loose ++ p.store.filter (·.handle == plate) else p.loose
      shadowVld := lost.foldl (fun v y => graverBits y.mask clearBit v) p.shadowVld }) s
  (lost.map (·.work)).foldl (fun st w => loadFault w st) s

/-- The loader reads a plate from the store: whether a word of it is poisoned, and what the read counts. A plate that has left the store stands in
its buffers. -/
def readPlate (plate : Nat) (bad : List MemFail) (s : State) : Bool × State :=
  match plateAt s plate with
  | none => (false, s)
  | some p => (checkedRead bad (plateStart s plate) p.image.length s).2

/-- PLATE_LOAD_COMPLETE (R66, R67): the shadows are filled, or the loader has read a poisoned store word, one that `bad` fails among them. -/
def execPlateLoadComplete (plate : Nat) (bad : List MemFail) (s : State) : Out :=
  .next <|
    match s.pla.swaps.find? (fun x => x.plate == plate && x.loading && !x.loaded) with
    | none => s
    | some x =>
      let r := readPlate plate bad s
      let s := r.2
      if r.1 then
        postEvent 0x0403 2 (pack [(statusCode .dataPoisoned, 16), (plate, 32)]) (workHandle s x.work) (poisonedPlate plate s)
      else
        modPla (fun p => { p with
          swaps := p.swaps.map (fun y => if y == x then { y with loaded := true } else y)
          shadowVld := graverBits x.mask setBit p.shadowVld }) s

end Sys2Proof.Machine
end

