-- ==== Sys2Proof/Machine/Responder.lean ====
section
/-! DEFINITION. Remote memory, the responder: packets received, their checks, placement, order and answers, duplicates, slices on
their way to the platen, and the context cache (13_remote_memory.md R248, R255 to R259, R266, R268, R269; 14 R289; 09 R182, R183). -/

namespace Sys2Proof.Machine

/-! ## Checks of a message (R256) -/

/-- A WRITE, with or without immediate. -/
def isWrite (op : RoceOp) : Bool := op == .write || op == .writeImm

/-- A SEND, with or without immediate. -/
def isSend (op : RoceOp) : Bool := op == .send || op == .sendImm

/-- The request needs a receive descriptor (R256 step 3). -/
def needsRecv (op : RoceOp) : Bool := isSend op || op == .writeImm

/-- R256 step 2: the window that a WRITE or READ may use, or none. -/
def keyCheck (s : State) (c : Conn) (op : RoceOp) (key va len : Nat) : Option Window :=
  match windowByKey s key with
  | none => none
  | some w =>
    if w.revoking || w.pd != c.pd || (if op == .read then !w.read else !w.write) || decide (w.len < va + len) ||
      (w.summing && (op == .read || !c.cx)) then none
    else some w

/-- R182: a write to a summing window cannot be a slice of its round, which may be gone: such a write is refused at its first packet all the
same. (DEDUCED: log entry 63) -/
def sliceRefused (w : Window) (va len : Nat) : Bool := w.summing && !(va == 0 && w.sizes.contains len)

/-- Cells of a message in the staging share (R289). -/
def cellsFor (len : Nat) : Nat := (len + 255) / 256

/-- The staging share can reserve the cells, those of slice `free` among them (R289). -/
def stagingRoom (s : State) (free : Option Nat) (len : Nat) : Bool :=
  decide (sumNat ((s.ptn.staged.filter (fun x => free != some x.id)).map (·.cells)) + cellsFor len ≤ s.ptn.stageMib * 4096)

/-- The packet is as long as its place in its message asks (Table 13-1). (DEDUCED: log entry 62) -/
def packetFits (c : Conn) (p : RocePacket) (done len : Nat) : Bool :=
  let n := p.data.length
  if p.op == .read then p.first && p.last && n == 0 && decide (p.dmaLen ≤ 2 ^ 31)
  else
    (if p.last then decide (n ≤ mtuBytes c) && (p.first || decide (0 < n)) else n == mtuBytes c) &&
      (if isWrite p.op then decide (len ≤ 2 ^ 31) && (if p.last then done + n == len else decide (done + n < len)) else decide (done + n ≤ 2 ^ 31))

/-- The RC opcode of a message's first packet, as the InfiniBand transport numbers them (PRESUMED; R268's event carries it). (PRESUMED: log entry 66) -/
def bthOpcode (p : RocePacket) : Nat :=
  match p.op with
  | .send => if p.last then 0x04 else 0x00
  | .sendImm => if p.last then 0x05 else 0x00
  | .write => if p.last then 0x0A else 0x06
  | .writeImm => if p.last then 0x0B else 0x06
  | _ => 0x0C

/-! ## Placement (R256 step 4, R259, R269) -/

/-- One packet of a message is placed: in the window's region, or in the receive buffer as far as it fits; words that failed their check in the
pool poison the HBM lines that they reach (R269). (DEDUCED: log entry 63) -/
def placePacket (m : Incoming) (x : Nat × Bytes × List Nat) (s : State) : Incoming × State :=
  let (off, b, bad) := x
  let poison := !bad.isEmpty
  if b.isEmpty then ({ m with poison := m.poison || poison }, s)
  else if isSend m.op then
    match m.recv.bind (descAt s) with
    | none => (m, s)
    | some f =>
      let cap := field f.bytes 0x10 4
      let fitting := b.take (cap - off)
      let w := placeLocal f off fitting s
      let dev := (regionAt s (field f.bytes 0x14 4)).any (fun r => !r.host)
      let s := if poison && dev then markPoison (field f.bytes 8 8 + off) fitting.length bad w.2 else w.2
      ({ m with poison := m.poison || poison || w.1 != .ok, tooLong := m.tooLong || decide (cap < off + b.length) }, s)
  else
    match (windowByKey s m.key).bind (fun w => (regionAt s w.region).map (fun r => r.addr + w.offset + m.va + off)) with
    | none => (m, s)
    | some a =>
      let w := memWrite a b s
      ({ m with poison := m.poison || poison || w.1 != .ok }, if poison then markPoison a b.length bad w.2 else w.2)

/-- Every packet received and not yet placed is placed. -/
def placeHeld (m : Incoming) (s : State) : Incoming × State :=
  m.held.foldl (fun r x => placePacket r.1 x r.2) ({ m with held := [] }, s)

/-- How a placed WRITE or SEND ends. (DEDUCED: log entry 65) -/
def placedStatus (m : Incoming) : Status := if m.tooLong then .badArg else if m.poison then .dataPoisoned else .ok

/-- The message waits for FINAL_WRITE_PLACE (R259). (DEDUCED: log entry 63) -/
def waitsFinal (c : Conn) (m : Incoming) : Bool := c.relaxed && m.final && (isWrite m.op || isSend m.op)

/-! ## Answers (R257, R268) -/

/-- The NAK of a status on a connection without `CX` (Table 13-4). -/
def nakOf : Status → NakKind
  | .accessViolation => .remoteAccess
  | .dataPoisoned => .remoteOperational
  | _ => .invalidRequest

/-- A status other than OK on the wire (Table 13-4): without `CX` the NAK is the last that the connection sends (R254). -/
def answerBad (h psn : Nat) (st : Status) (s : State) : State :=
  match connAt s h with
  | none => s
  | some c =>
    if c.cx then roceSend c [.ackStatus c.qpn psn st] s
    else roceSend c [.nak c.qpn psn (nakOf st)] (connError h st s)

/-- The OP of Table 13-5 that a request is. -/
def opCode : RoceOp → Nat
  | .send => 1
  | .sendImm => 2
  | .write => 3
  | .writeImm => 4
  | _ => 5

/-- The receive that a message consumed completes (R261). (DEDUCED: log entry 65) -/
def completeRecv (m : Incoming) (st : Status) (s : State) : State :=
  match m.recv.bind (descAt s) with
  | none => s
  | some f =>
    let cap := if isSend m.op then min m.done (field f.bytes 0x10 4) else m.done
    let moved := if m.staged.isSome && st != .ok then 0 else cap
    let imm := if m.op == .send then 0 else m.imm
    completeDesc f.id (rdmEntry f.bytes (statusCode st) (opCode m.op) moved imm) s

/-- A message ends with its status (R257): its receive completes, its window's trigger counts, a violation or poison is reported, the
status is kept for duplicates, and the answer is sent. (DEDUCED: log entry 65) -/
def endMessage (h : Nat) (m : Incoming) (st : Status) (s : State) : State :=
  let s := completeRecv m st s
  let s := if st = .ok && m.op == .writeImm then
      m.trigger.elim s (fun t => raiseTrigger t 1 s)
    else s
  let s := if st = .accessViolation then
      postEvent 0x0912 1 (pack [(m.key, 32), (m.opcode, 8)]) (pack [(h, 32), (m.va, 32)])
        (modRdm (fun r => { r with accessViol := sat r.accessViol, sticky := setBit r.sticky 1 }) s)
    else if st = .dataPoisoned then countPoison s
    else s
  let s := modConn h (fun c => { c with history := (c.history ++ [(m.psn, m.psnEnd, st)]).drop (c.history.length + 1 - 256) }) s
  if st != .ok then answerBad h m.psnEnd st s
  else if m.op == .read then s
  else match connAt s h with
  | some c => roceSend c [.ack c.qpn m.psnEnd] s
  | none => s

/-- The response packets of a READ (R259). -/
def sendResponse (c : Conn) (psn : Nat) (data : Bytes) (s : State) : State :=
  match chunksOf (mtuBytes c) (data.length + 1) data with
  | [] => roceSend c [.readResponse c.qpn psn []] s
  | l => roceSend c ((l.zipIdx).map (fun x => RoceOut.readResponse c.qpn (psnAdd psn x.2) x.1)) s

/-- A READ is served from current memory: the data, or none for a poisoned line (R269). -/
def readWindow (bad : List MemFail) (key va len : Nat) (s : State) : Option Bytes × State :=
  match (windowByKey s key).bind (fun w => (regionAt s w.region).map (fun r => r.addr + w.offset + va)) with
  | none => (none, s)
  | some a =>
    let c := checkedRead bad a len s
    (if c.2.1 then none else some c.1, c.2.2)

/-- The messages at the head of a connection's order are placed, served and answered, as far as they may be; `fuel` is their number.
(DEDUCED: log entry 63) -/
def settleConn (h : Nat) : Nat → State → State
  | 0, s => s
  | fuel + 1, s =>
    match connAt s h with
    | none => s
    | some c =>
      match c.order with
      | [] => s
      | m :: ms =>
        let pop := fun (st : State) => modConn h (fun c => { c with order := ms }) st
        match m.status with
        | some st => settleConn h fuel (endMessage h m st (pop s))
        | none =>
          if m.staged.isSome || waitsFinal c m then s
          else if m.op == .read then
            let r := readWindow m.fails m.key m.va m.len s
            match r.1 with
            | some d => settleConn h fuel (endMessage h m .ok (sendResponse c m.psn d (pop r.2)))
            | none => settleConn h fuel (endMessage h m .dataPoisoned (pop r.2))
          else
            let r := placeHeld m s
            settleConn h fuel (endMessage h r.1 (placedStatus r.1) (pop r.2))

/-- Place and answer what may be placed and answered. -/
def settleAll (h : Nat) (s : State) : State := settleConn h ((connAt s h).elim 0 (·.order.length)) s

/-! ## Packets of a message (R256) -/

/-- A packet is dropped and counted; on an open connection it is answered with a NAK of the kind Invalid Request (R248). (DEDUCED: log entry 62) -/
def badPacket (c : Option Conn) (psn : Nat) (s : State) : State :=
  let s := modRdm (fun r => { r with badPkt := sat r.badPkt }) s
  match c with
  | some c => roceSend c [.nak c.qpn psn .invalidRequest] s
  | none => s

/-- The data of a packet go to the slice that it belongs to. -/
def stageData (id : Nat) (p : RocePacket) (s : State) : State :=
  let add := fun (x : Staged) => { x with bytes := x.bytes ++ p.data, poison := x.poison || !p.bad.isEmpty, complete := p.last }
  modPtn (fun q => { q with staged := updWhere (·.id == id) add q.staged }) s

/-- The next packet of the message being received: it is read out of the pool, where words of it may fail their check (R285). -/
def takePacket (h : Nat) (m : Incoming) (p : RocePacket) (s : State) : State :=
  match connAt s h with
  | none => s
  | some c =>
    let s := poolFail p.bad.length s
    let pend := if p.op == .read then psnAdd p.psn (packetsOf c p.dmaLen - 1) else p.psn
    let s := match m.staged with
      | some id => stageData id p s
      | none => s
    let keep := m.status.isNone && m.staged.isNone && !(p.op == .read)
    let m := { m with done := m.done + p.data.length, psnEnd := pend, imm := if p.last then p.imm else m.imm,
                      held := if keep then m.held ++ [(m.done, p.data, p.bad)] else m.held }
    let now := keep && !waitsFinal c m && (c.order.isEmpty || c.relaxed)
    let r := if now then placeHeld m s else (m, s)
    let s := modConn h (fun c => { c with expPsn := psnAdd pend 1, incoming := if p.last then none else some r.1,
                                          order := if p.last then c.order ++ [r.1] else c.order }) r.2
    if p.last then settleAll h s else s

/-- A staged slice begins (R182, R289). -/
def beginSlice (h : Nat) (w : Window) (p : RocePacket) (s : State) : Nat × State :=
  let id := s.ptn.nextStaged
  let x : Staged := { id := id, round := w.round, conn := h, bytes := [], poison := false, cells := cellsFor p.dmaLen, complete := false }
  (id, modPtn (fun q => { q with staged := q.staged ++ [x], nextStaged := id + 1 }) s)

/-- The first packet of a message, in sequence: steps 2 to 4 of R256, with the checks of R182 after the key. (DEDUCED: log entry 63) -/
def startMessage (c : Conn) (p : RocePacket) (s : State) : State :=
  let m : Incoming := { psn := p.psn, psnEnd := p.psn, op := p.op, opcode := bthOpcode p, key := p.rkey, va := p.va, len := p.dmaLen, imm := 0, fails := p.fails
                        final := p.final, recv := none, trigger := none, staged := none, done := 0, held := [], poison := false, tooLong := false, status := none }
  let w := keyCheck s c p.op p.rkey p.va p.dmaLen
  if !isSend p.op && w.isNone then takePacket c.handle { m with status := some .accessViolation } p s
  else if !isSend p.op && w.any (fun w => sliceRefused w p.va p.dmaLen) then
    takePacket c.handle { m with status := some .badArg } p (modPtn (countAnswer .badArg) s)
  else if needsRecv p.op && c.recvs.isEmpty then
    roceSend c [.nakRnr c.qpn p.psn c.minRnr] (modRdm (fun r => { r with rnrTx := sat r.rnrTx }) s)
  else
    let m := if needsRecv p.op then { m with recv := c.recvs.head? } else m
    let m := if isSend p.op then m else { m with trigger := w.bind (·.trigger) }
    let s := if needsRecv p.op then modConn c.handle (fun c => { c with recvs := c.recvs.drop 1 }) s else s
    match if isSend p.op then none else w with
    | some w =>
      if w.summing then
        let b := beginSlice c.handle w p s
        takePacket c.handle { m with staged := some b.1 } p b.2
      else takePacket c.handle m p s
    | none => takePacket c.handle m p s

/-- A go-back resend of the first packet abandons the message being received: it is checked again (R267). -/
def restartMessage (c : Conn) (m : Incoming) (s : State) : State :=
  let s := match m.staged with
    | some id => modPtn (fun p => { p with staged := p.staged.filter (·.id != id) }) s
    | none => s
  modConn c.handle (fun c => { c with incoming := none, expPsn := m.psn, recvs := m.recv.toList ++ c.recvs }) s

/-! ## Duplicates (R258) -/

/-- The answer to a duplicate READ: it is served again while its key passes step 2 of R256. (DEDUCED: log entry 64) -/
def duplicateRead (c : Conn) (p : RocePacket) (s : State) : State :=
  if (keyCheck s c .read p.rkey p.va p.dmaLen).isNone || c.order.any (fun m => psnIn m.psn m.psnEnd p.psn) then s
  else
    let r := readWindow p.fails p.rkey p.va p.dmaLen s
    match r.1 with
    | some d => sendResponse c p.psn d r.2
    | none => answerBad c.handle (psnAdd p.psn (packetsOf c p.dmaLen - 1)) .dataPoisoned (countPoison r.2)

/-- The answer that a duplicate of a message with no kept status gets, judged at its first packet. (DEDUCED: log entry 64) -/
def judgeOld (s : State) (p : RocePacket) : Status :=
  if isWrite p.op && (windowByIndex s p.rkey).any (·.summing) then .duplicate else .ok

/-- The answer to a duplicate WRITE or SEND, at the last packet of its message. (DEDUCED: log entry 64) -/
def sendDuplicate (c : Conn) (psn : Nat) (st : Status) (s : State) : State :=
  if st = .ok then roceSend c [.ack c.qpn psn] s else answerBad c.handle psn st s

/-- A packet in the duplicate region (R258). (DEDUCED: log entry 64) -/
def duplicatePacket (c : Conn) (p : RocePacket) (s : State) : State :=
  let stale := !isSend p.op && !(windowByIndex s p.rkey).any (fun w => windowKey w == p.rkey)
  let s := modRdm (fun r => { r with dup := sat r.dup, staleDup := if stale then sat r.staleDup else r.staleDup }) s
  if p.op == .read then duplicateRead c p s
  else if (c.incoming.toList ++ c.order).any (fun m => psnIn m.psn m.psnEnd p.psn) then s
  else match c.history.find? (fun x => psnIn x.1 x.2.1 p.psn) with
  | some x => if p.last then sendDuplicate c x.2.1 x.2.2 s else s
  | none =>
    let st := if p.first then judgeOld s p else match c.dupOld with
      | some (n, st) => if n = p.psn then st else .ok
      | none => .ok
    if p.last then sendDuplicate c p.psn st (modConn c.handle (fun c => { c with dupOld := none }) s)
    else modConn c.handle (fun c => { c with dupOld := some (psnAdd p.psn 1, st) }) s

/-! ## Packets (R248, R255, R256, R266, R289) -/

/-- A marked packet is answered with a CNP, at most one per 50 us (R266). -/
def answerMark (c : Conn) (ce : Bool) (s : State) : State :=
  if ce && c.lastCnp.all (fun t => decide (t + 50 ≤ s.now)) then
    roceSend c [.cnp c.qpn] (modRdm (fun r => { r with cnpTx := sat r.cnpTx }) (modConn c.handle (fun c => { c with lastCnp := some s.now }) s))
  else s

/-- The message being received whose first packet this is, sent again. -/
def restarts (c : Conn) (p : RocePacket) : Option Incoming := c.incoming.filter (fun m => p.first && m.psn == p.psn)

/-- A request packet of a connection whose context is on die. -/
def requestPacket (c : Conn) (p : RocePacket) (s0 : State) : State :=
  let s := answerMark c p.ce s0
  match connAt s c.handle with
  | none => s
  | some c =>
    if p.op == .unsupported then badPacket (some c) p.psn s
    else
      match restarts c p with
      | some m =>
        let s := restartMessage c m s
        (connAt s c.handle).elim s (fun c => if packetFits c p 0 p.dmaLen then startMessage c p s else badPacket (some c) p.psn s)
      | none =>
        let d := psnDist c.expPsn p.psn
        if 2 ^ 23 ≤ d then duplicatePacket c p s
        else if d != 0 then roceSend c [.nakSequence c.qpn c.expPsn] s
        else match c.incoming with
        | none =>
          if !p.first || !packetFits c p 0 p.dmaLen || (p.op == .read && decide (16 ≤ (c.order.filter (·.op == .read)).length)) then
            badPacket (some c) p.psn s
          else startMessage c p s
        | some m => if p.first || p.op != m.op || !packetFits c p m.done m.len then badPacket (some c) p.psn s else takePacket c.handle m p s

/-- A summing write must wait at the head of its channel for staging cells (R289). One that is sent again abandons its first reservation. -/
def mustWait (s : State) (c : Conn) (p : RocePacket) : Bool :=
  !c.error && c.cached && isWrite p.op && p.first && packetFits c p 0 p.dmaLen &&
    (if (restarts c p).isSome then true else c.incoming.isNone && c.expPsn == p.psn) &&
    (keyCheck s c p.op p.rkey p.va p.dmaLen).any (fun w => w.summing && !sliceRefused w p.va p.dmaLen) &&
    !(p.op == .writeImm && c.recvs.isEmpty) && !stagingRoom s ((restarts c p).bind (·.staged)) p.dmaLen

/-- Packets wait ahead in the channel of a port and a connection's priority (R289). -/
def channelHeld (s : State) (port : Nat) (c : Conn) : Bool :=
  s.rdm.waiting.any (fun x => x.port == port && (connOf s x.qpn).any (·.priority == c.priority))

/-- A packet of a QPN that names no connection, whose priority the row does not say: it stands in the lowest channel of its port that holds more than
the packets that wait there, behind them (R248, R289). (DEDUCED: log entry 62) -/
def strayPacket (port qpn : Nat) (a : Arrival) (s : State) : State :=
  let ports := match a with
    | .request _ => [port]
    | _ => List.range 5
  let held := fun (i : Nat) => (heldPackets s (i / 8) (i % 8)).length
  match leastBelow 40 (fun i => ports.contains (i / 8) && (s.buf.channels[i]?).any (fun x => decide (held i < x.fifo.length))) with
  | some i =>
    if held i = 0 then badPacket none 0 (drainPacket (i / 8) (i % 8) s)
    else modRdm (fun r => { r with waiting := r.waiting ++ [{ port := port, qpn := qpn, arrival := a, inChannel := true }] }) s
  | none => badPacket none 0 s

/-- A port has packets to deliver: it is open to data frames (R233), or a packet that it took is still in a channel of it. (DEDUCED: log entry 62) -/
def portDelivers (s : State) (port : Nat) : Bool :=
  netOpen (get5 s.ports port) || (List.range 8).any (fun i => (s.buf.channels[channelOf port i]?).any (fun x => !x.fifo.isEmpty))

/-- A packet waits in the miss queue of its connection, or is dropped (R255). (DEDUCED: log entry 68) -/
def missPacket (c : Conn) (a : Arrival) (s : State) : State :=
  let s := modRdm (fun r => { r with ctxMiss := sat r.ctxMiss }) s
  if decide (64 ≤ c.missQueue.length) || decide (4096 ≤ sumNat (s.rdm.conns.map (·.missQueue.length))) then
    modRdm (fun r => { r with missDrop := sat r.missDrop, sticky := setBit r.sticky 2 }) s
  else modConn c.handle (fun c => { c with missQueue := c.missQueue ++ [a] }) s

/-- What a packet of a connection whose context is on die does. -/
def serve (h : Nat) : Arrival → State → State
  | .request p, s => (connAt s h).elim s (fun c => requestPacket c p s)
  | .ack psn st, s => takeAck h psn st s
  | .readResponse psn d last, s => takeReadResponse h psn d last s
  | .nak psn k, s => takeNak h psn k s
  | .seqNak psn, s => takeSeqNak h psn s
  | .rnrNak psn, s => takeRnrNak h psn s
  | .cnp, s => takeCnp h s

/-- The packet of an arrival must wait at the head of its channel for staging cells (R289). -/
def holdsBack (s : State) (c : Conn) : Arrival → Bool
  | .request p => mustWait s c p
  | _ => false

/-- The arrival with the CE mark that its channel gave it (R266, R288). -/
def withMark (ce : Bool) : Arrival → Arrival
  | .request p => .request { p with ce := p.ce || ce }
  | a => a

/-- A packet that a connection in ERROR drops: an unsupported opcode is counted all the same (R248, R254). -/
def dropPacket : Arrival → State → State
  | .request p, s => if p.op == .unsupported then modRdm (fun r => { r with badPkt := sat r.badPkt }) s else s
  | _, s => s

/-- A packet of a connection at the head of its channel, or out of a miss queue. -/
def arrive (port qpn : Nat) (a : Arrival) (inChannel : Bool) (s : State) : State :=
  match connOf s qpn with
  | none => if inChannel then strayPacket port qpn a s else s
  | some c =>
    if channelHeld s port c || holdsBack s c a then
      modRdm (fun r => { r with waiting := r.waiting ++ [{ port := port, qpn := qpn, arrival := a, inChannel := inChannel }] }) s
    else
      let a := withMark (inChannel && headMark port c.priority s) a
      let s := if inChannel then drainPacket port c.priority s else s
      if c.error then dropPacket a s
      else if !c.cached then missPacket c a s
      else serve c.handle a (touch c.handle s)

/-- The port that a packet of a connection came in by. -/
def arrivalPort (c : Conn) : Arrival → Nat
  | .request p => p.port.val
  | _ => c.port.val

/-- ROCE_REQUEST_RECEIVE (R248, R256). (DEDUCED: log entry 62) -/
def execRoceRequestReceive (p : RocePacket) (s : State) : Out :=
  .next <|
    if !portDelivers s p.port.val then s
    else arrive p.port.val p.qpn (.request p) true s

/-- STAGING_RESERVE (R289): the packets that wait for staging cells try again, in order. -/
def execStagingReserve (s : State) : Out :=
  .next (s.rdm.waiting.foldl (fun st x => arrive x.port x.qpn x.arrival x.inChannel st) (modRdm (fun r => { r with waiting := [] }) s))

/-- A packet other than a request arrives, on the port of its connection (R233, R248, R254, R255). -/
def answerPacket (qpn : Nat) (a : Arrival) (s : State) : State :=
  match connOf s qpn with
  | none => if (List.range 5).any (portDelivers s) then strayPacket 0 qpn a s else s
  | some c => if portDelivers s c.port.val then arrive c.port.val qpn a true s else s

/-- ROCE_ACK_RECEIVE (R257). -/
def execRoceAckReceive (qpn psn : Nat) (status : Option Nat) (s : State) : Out := .next (answerPacket qpn (.ack psn status) s)

/-- ROCE_READ_RESPONSE_RECEIVE (R259). -/
def execRoceReadResponseReceive (qpn psn : Nat) (data : PoolData) (last : Bool) (s : State) : Out :=
  .next (answerPacket qpn (.readResponse psn data last) s)

/-- ROCE_NAK_RECEIVE (R265). -/
def execRoceNakReceive (qpn psn : Nat) (kind : NakKind) (s : State) : Out := .next (answerPacket qpn (.nak psn kind) s)

/-- PSN_SEQUENCE_NAK_RECEIVE (R263). -/
def execPsnSequenceNakReceive (qpn psn : Nat) (s : State) : Out := .next (answerPacket qpn (.seqNak psn) s)

/-- RNR_NAK_RECEIVE (R264). How long the wait lasts is the NAK's timer code; RNR_TIMER_EXPIRE is its end. -/
def execRnrNakReceive (qpn psn : Nat) (_timer : Nat) (s : State) : Out := .next (answerPacket qpn (.rnrNak psn) s)

/-- CNP_RECEIVE (R266). -/
def execCnpReceive (qpn : Nat) (s : State) : Out := .next (answerPacket qpn .cnp s)

/-- CONTEXT_FETCH_DONE (R255): the context is on die, and its queued packets proceed. -/
def execContextFetchDone (conn : Nat) (s : State) : Out :=
  .next <|
    match connAt s conn with
    | none => s
    | some c =>
      if c.cached || c.missQueue.isEmpty then s
      else
        let s := touch conn (modConn conn (fun c => { c with cached := true, missQueue := [] }) (evictContext s))
        c.missQueue.foldl (fun st a => arrive (arrivalPort c a) c.qpn a false st) s

/-! ## Final writes and slices -/

/-- FINAL_WRITE_PLACE (R259): a FINAL message whose earlier messages are all placed and answered becomes visible, and is answered. -/
def execFinalWritePlace (conn psn : Nat) (s : State) : Out :=
  .next <|
    match connAt s conn with
    | none => s
    | some c =>
      match c.order with
      | [] => s
      | m :: ms =>
        if m.psn != psn || !waitsFinal c m || m.staged.isSome || m.status.isSome then s
        else
          let r := placeHeld m s
          settleAll conn (endMessage conn r.1 (placedStatus r.1) (modConn conn (fun c => { c with order := ms }) r.2))

/-- A slice may be admitted now: whole, and in PSN order unless its connection is RELAXED and it is not FINAL (R259). -/
def sliceTurn (c : Conn) (x : Staged) : Bool :=
  x.complete && (match c.order.find? (fun m => m.staged == some x.id) with
    | none => false
    | some m => (c.relaxed && !m.final) || c.order.head? == some m)

/-- SLICE_ADMISSION (R183): the slice is checked, admitted or refused, its cells are freed and its message is answered. -/
def execSliceAdmission (id : Nat) (bad : List MemFail) (s : State) : Out :=
  .next <|
    match s.ptn.staged.find? (·.id == id) with
    | none => s
    | some x =>
      if !(connAt s x.conn).any (fun c => sliceTurn c x) then s
      else
        let a := admitSlice x bad s
        let s := modPtn (fun p => { p with staged := p.staged.filter (·.id != id) }) a.2
        settleAll x.conn (modConn x.conn (fun c => { c with order := updWhere (fun m => m.staged == some id) (fun m => { m with status := some a.1 }) c.order }) s)

end Sys2Proof.Machine
end

