-- ==== Sys2Proof/Machine/Ending.lean ====
section
/-! DEFINITION. What ends work and wipes stores: fences (15_host_interface.md R302, Table 15-6), TDI error (R306), wipes and the zero fill
(18_tenancy_and_memory_protection.md R353), tenant removal (R354), the tamper response (R365), and the clearing at each reset level
(20_reset.md Table 20-2). -/

namespace Sys2Proof.Machine

/-! ## Fences (R302, R438) -/

/-- A held output of a function that belongs to its rings: an entry or a tail writeback in host memory, or a message (R302). (DEDUCED: log entry 27) -/
def ringOutput (s : State) (fn : Nat) (o : Output) : Bool :=
  match o with
  | .msix _ _ => true
  | .hostWrite _ a _ =>
    s.buf.crings.any (fun c => c.fn == fn && ((!c.hbm && decide (c.base ≤ a ∧ a < c.base + 32 * 2 ^ c.k)) || decodeAddr c.tail == .host a))
  | _ => true

/-- The entry of a descriptor that its function's end completes; one of remote memory says what it has moved (R261). -/
def endEntry (s : State) (f : FDesc) (st : Status) : Bytes :=
  if f.fn = 4 then rdmEntry f.bytes (statusCode st) (field f.bytes 1 1) (movedBytes s f) 0 else ringEntry f.fn f.bytes st

/-- Every fetched descriptor of a function but `keep` completes with a status, in order of fetch. -/
def completeAll (fn : Nat) (st : Status) (keep : Option Nat) (s : State) : State :=
  (s.buf.descs.filter (fun f => f.fn == fn && keep != some f.id)).foldl (fun t f => finishDesc f.id (endEntry s f st) t) s

/-- The output descriptor that carries the end of a running session. -/
def lastOutput (s : State) : Option Nat :=
  (s.dec.filter (fun d => d.state != 6)).bind (fun d => d.outDescs.head?.map (·.desc))

/-- The decode session ends by fault with no proof; a ring member reports itself and leaves (Table 15-6). (DEDUCED: log entry 28) -/
def endDecode (st : Status) (s : State) : State :=
  match s.dec with
  | none => s
  | some d =>
    if d.state = 6 then s
    else match sessionRing s with
    | none => stopSession 5 st false s
    | some r => leaveSession st (modRing (fun r => { r with state := 4 }) (controlAll (.selfReport r.index) s))

/-- What the engines behind a function do when it is fenced (Table 15-6); its fetched descriptors complete with `st`. -/
def fenceEngine (fn : Nat) (st : Status) (s : State) : State :=
  if fn = 1 then
    let keep := lastOutput s
    let s := completeAll 1 st keep s
    completeAll 1 st none (endDecode st (modDec (fun d => { d with outDescs := d.outDescs.filter (fun o => keep == some o.desc) }) s))
  else if fn = 2 then abortRounds s
  else if fn = 3 then
    completeAll 3 st none (s.hev.ctxs.foldl (fun t c => faultCtx c.handle st .engineFenced t) s)
  else
    let s := completeAll 4 st none s
    s.rdm.conns.foldl (fun t c => connError c.handle .engineFenced t) s

/-- The reads that a function waits for are dropped; an entry reserved for a descriptor being read is free again. (DEDUCED: log entry 27) -/
def dropFnReads (fn : Nat) (s : State) : State :=
  dropReads (fun r => r.fn == fn) ((s.buf.wrings.filter (·.fn == fn)).foldl (fun t w => abandonFetch w t) s)

/-- A function is fenced (R302): its rings, its event, its reads and held data writes, its engines. Its fetched descriptors complete with
`st`. (DEDUCED: log entry 27) -/
def fenceWith (st : Status) (s : State) (fn : Nat) : State :=
  if fenced s fn then s
  else
    let s := modFn fn (fun f => { f with fenced := true }) s
    let s := dropFnReads fn s
    let s := modBuf (fun b => { b with wrings := updWhere (fun w => w.fn == fn && w.state != 4) (fun w => { w with state := 3 }) b.wrings }) s
    let s := modHif (fun h => { h with held := h.held.filter (fun x => x.1 != fn || ringOutput s fn x.2) }) s
    fenceEngine fn st (postEvent 0x0A02 3 fn 0 s)

/-- A function is fenced by an FLR or by the TDI (R302, R306). (DEDUCED: log entries 26, 27) -/
def fence (fn : Nat) (s : State) : State := fenceWith .engineFenced s fn

/-- TDI_ERROR (R306): the TDI enters ERROR and every function is fenced. (DEDUCED: log entry 26) -/
def tdiError (s : State) : State :=
  [1, 2, 3, 4].foldl (fun t fn => fence fn t) (modHif (fun h => { h with tdi := .error, sticky := setBit h.sticky 4 }) s)

/-! ## Closing without completions -/

/-- Every session, round and context is gone, with its grants, places, actions and data. -/
def dropWorks (s : State) : State :=
  let s := { s with dec := none }
  let s := modPtn (fun p => { p with rounds := [], staged := [] }) s
  let s := modHev (fun h => { h with ctxs := [], ops := [] }) s
  let s := modPla (fun p => { p with swaps := [], active := [], grants := [], shadowVld := 0, accums := [] }) s
  let s := modPrs (fun p => { p with actions := [], data := [], checks := [] }) s
  release (fun o => match o with
    | .weights | .plate _ | .spill _ => false
    | _ => true) s

/-- Every work ring and completion ring is gone (R280). -/
def dropRings (s : State) : State := modBuf (fun b => { b with wrings := [], crings := [], descs := [] }) s

/-- Every remote-memory object is gone, and every trigger counter 0 (R270). Window indices that were open return to the free list in
ascending order. -/
def dropRdm (s : State) : State :=
  release (fun o => match o with
    | .spill _ => true
    | _ => false)
    (modRdm (fun r => { r with
      pds := [], regions := [], windows := [], conns := [], triggers := [], chunks := 0, waiting := []
      freed := r.freed ++ r.windows.foldl (fun l w => insertNat w.index l) [] }) s)

/-- Every frame that the buffer pool holds is dropped. -/
def dropFrames (s : State) : State :=
  let s := modBuf (fun b => { b with
    channels := b.channels.map (fun c => { c with fifo := [], asserted := false })
    shares := map5 b.shares (fun x => { x with fragments := [], cells := 0, asserted := false }) }) s
  { s with ports := map5 s.ports (fun p => { p with waiting := [], xoffOut := false }) }

/-- The ring is forgotten and its links go down with reason 8 (R142, R244). (DEDUCED: log entry 31) -/
def dropRing (s : State) : State :=
  match s.ring with
  | none => s
  | some r => r.ports.foldl (fun t p => releasePort 8 p t) { s with ring := none }

/-- A core reset dissolves the ring and leaves its ports trained: back in network mode at their rate, optics on and lanes locked, with the
link down until it comes up again (R142, R244, Table 20-2). (DEDUCED: log entry 31) -/
def dissolveTrained (s : State) : State :=
  match s.ring with
  | none => s
  | some r => r.ports.foldl (fun t p =>
      let q := get5 t.ports p
      modPort p (fun x => { x with mode := 1, rate := q.rate, lock := q.lock, optOff := q.optOff }) (releasePort 8 p t)) { s with ring := none }

/-! ## Wipes and the zero fill (R353) -/

/-- Graver SRAM and the buffer pool read 0 with good parity. -/
def wipeSram (s : State) : State :=
  modMem (fun m => { m with cells := m.cells.filter (fun c => decide (c.1 < sramBase)), parity := [] }) (dropFrames s)

/-- Crypto-erase: HBM key slots 2 and 3 are gone, every HBM line is unreadable, a sweep is abandoned, and the weights and the plate store
go with the contents (R353, R355, R63, R116). -/
def cryptoErase (s : State) : State :=
  let s := clearSlots (fun n => n == 2 || n == 3) (dropWeights s)
  let s := modMpr (fun m => { m with filled := false, wiping := false, sweep := false, sweepPct := 0, pages := [] }) s
  let s := modMem (fun m => { m with cells := m.cells.filter (fun c => decide (sramBase ≤ c.1)), poison := [] }) s
  modPla (fun p => { p with store := [] }) s

/-- HBM holds no key, and is to be filled. -/
def fillDue (s : State) : Bool :=
  !s.mpr.filled && !s.mpr.wiping && s.mpr.trained && s.rst.railsOn && !s.rst.optLoad && !s.rst.inReset && !s.rst.bootStopped &&
    (!s.life.overlay || s.life.resetSince || s.life.removal.isSome)

/-- The zero fill begins under a fresh key A, once HBM is trained and the generator serves (R353, R359). (DEDUCED: log entry 39) -/
def startFill (s : State) : State :=
  if fillDue s && drbgServes s then
    let r := drbgTake 32 s
    let k : KeySlot := { slot := 2, type := 3, origin := 1, mask := 1, nonExport := true, secret := r.1, pub := [], bound := [] }
    modMpr (fun m => { m with wiping := true, activeB := false, epoch := 0, pages := [] }) (fillSlot k r.2)
  else s

/-! ## The generator's waiting consumers (R377) -/

/-- The handshakes that wait for the generator go on (R239): those that begin, or those that answer a message. -/
def resumeHandshakes (answers : Bool) (s : State) : State :=
  (List.range 5).foldl (fun t p =>
    if (get5 t.ports p).hs.phase = 3 && (get5 t.ports p).hs.held.isSome == answers then goOnHandshake p t else t) s

/-- The commands that wait for the generator with an opcode go on, in the order of their arrival. -/
def serveJobs (op : Nat) (go : Job → State → State) (s : State) : State :=
  if firmwareRuns s then (s.mbx.jobs.filter (fun j => j.phase == 2 && j.opcode == op)).foldl (fun t j => (jobAt t j.order).elim t (fun j => go j t)) s
  else s

/-- What waits for the generator is served, in the order of R377: keys (the HBM key and with it the fill, the attestation key, KEY_GENERATE, the
rotation's key, link keys), then nonces and signatures. The self-test's seed and RANDOM_GET come after them, in their own rows. -/
def serveInternal (s : State) : State :=
  let s := serveJobs 0x0309 keyRotate (serveJobs 0x0301 keyGenerate (makeAttest (startFill s)))
  let s := resumeHandshakes true (resumeHandshakes false s)
  let s := serveJobs 0x0501 decodeOpen (serveJobs 0x0306 attestReport (serveJobs 0x0305 keyOrigin s))
  if s.dec.any (·.signWait) then signOrWait s else s

/-! ## Tenant removal (R354) -/

/-- The steps that removal and the tamper response share: every session, round, context, ring and object of the tenant is destroyed, and
SRAM and the pool are wiped. -/
def destroyTenant (s : State) : State := dropRdm (dropRings (dropWorks (wipeSram s)))

/-- Every command of which `which` holds is over (R354, R365): it completes with a status. -/
def endJobs (which : Job → Bool) (st : Status) (s : State) : State :=
  (s.mbx.jobs.filter which).foldl (fun t j => conclude j st [] t) s

/-- The burnish runs that a lifecycle change ends: no completion is written (Table 11-3). -/
def dropBurnish (s : State) : State :=
  let ds := (s.hev.ops.filter (·.op == 0x10)).map (·.desc)
  modBuf (fun b => { b with descs := b.descs.filter (fun f => !ds.contains f.id) }) (modHev (fun v => { v with ops := v.ops.filter (·.op != 0x10) }) s)

/-- R354 steps 1 to 3: admission stops, PF1 to PF4 are fenced, and what they have fetched completes with DATA_POISONED (halted processors are
resumed, R418). `r` is what step 7 writes. (DEDUCED: log entries 27, 28) -/
def stopTenant (r : Removal) (s : State) : State :=
  let s := modMbx (fun m => { m with halted := ⟨false, false, false, false⟩ }) (modLife (fun l => { l with removal := some r }) (dropBurnish s))
  let s := modRdm (fun r => { r with windows := r.windows.map (fun w => { w with revoking := true }) }) (abortRounds s)
  let s := [1, 2, 3, 4].foldl (fun t fn => fenceWith .dataPoisoned t fn) s
  let s := [1, 2, 3, 4].foldl (fun t fn => completeAll fn .dataPoisoned none (dropFnReads fn t)) s
  modHif (fun h => { h with held := h.held.filter (·.1 = 0) }) s

/-- Every MACsec SA is cleared (R354 step 4, R365). -/
def clearSas (s : State) : State :=
  { s with ports := map5 s.ports (fun p => { p with txSa := [], rxSa := [], keyed := p.mode == 2 && p.keyed }) }

/-- The IDE streams lose their keys with slots 40 to 63, and leave the secure state. (DEDUCED: log entry 25) -/
def dropIde (s : State) : State := modHif (fun h => { h with linkIde := {}, selIde := {} }) s

/-- R354 steps 4 to 6, up to the start of the zero fill. (DEDUCED: log entry 28) -/
def wipeTenant (s : State) : State :=
  let s := clearSlots (fun n => n != 0) (cryptoErase (clearSas (dropRing s)))
  let s := modEnt (fun e => { e with reseeding := false, drbgV := [] }) s
  let s := modKst (fun k => { k with chain := [] }) (modLife (fun l => { l with plateKeys := ⟨[], [], [], []⟩, enrolCount := 0 }) s)
  modHif (fun h => { h with fns := map5 h.fns (fun f => { f with fenced := false }) }) (dropIde (destroyTenant s))

/-- R354 steps 1 to 6, at the start of the zero fill. -/
def removeTenant (r : Removal) (s : State) : State := startFill (wipeTenant (stopTenant r s))

/-- R354 step 7 (R306, R330, R349): the new state is written, the TDI is unlocked, a new attestation key is generated, the event is posted and
the command completes. (DEDUCED: log entries 28, 30, 36) -/
def endRemoval (r : Removal) (s : State) : State :=
  let retired := r.target == .retired
  let noOwner := retired || (r.target == .provisioned && r.fromCode != 6)
  let s := modLife (fun l => { l with
    removal := none
    stored := r.target
    overlay := l.overlay && !r.clearOvl
    ownerKey := if noOwner then [] else if r.owner.isEmpty then l.ownerKey else r.owner
    ownerSeq := if noOwner then 0 else l.ownerSeq }) s
  let s := modKst (fun k => { k with seedBlown := k.seedBlown || retired }) s
  let s := modHif (fun h => { h with tdi := .unlocked }) s
  let s := if retired then s else makeAttest s
  let s := postEvent 0x0201 0 (pack [(r.fromCode, 8), (reportedState s, 8)]) 0 s
  match jobAt s r.order with
  | some j => conclude j .ok [] s
  | none => s

/-! ## Tamper (R365 to R367) -/

/-- A log entry, newest first, of the last 16 (R367). (DEDUCED: log entry 29) -/
def logTamper (source code stroke : Nat) (s : State) : State :=
  { s with backup := { s.backup with log := (⟨source, code, s.backup.resetCount, stroke⟩ :: s.backup.log).take 16
                                     total := sat s.backup.total } }

/-- Commands whose key operation an alarm aborts (R365 step 1), those that wait on what the alarm destroys, and those that have done nothing yet and
that TAMPER_LOCKED does not accept (Table 18-4). (DEDUCED: log entry 29) -/
def alarmEnds (j : Job) : Bool :=
  (decide (1 ≤ j.phase ∧ j.phase ≤ 2) && [0x0301, 0x0302, 0x0305, 0x0309, 0x030A, 0x0502, 0x0503].contains j.opcode) ||
    (j.phase == 2 && decide (0x03 ≤ j.opcode / 256 ∧ j.opcode / 256 ≤ 0x0B)) || (j.phase == 1 && !stateAccepts 6 j.opcode)

/-- The reads of commands that are over are abandoned. -/
def dropJobReads (s : State) : State :=
  dropReads (fun r => match r.purpose with
    | .command _ o _ => (jobAt s o).isNone
    | .correctSecond _ o => (jobAt s o).isNone
    | .replayFields _ o => (jobAt s o).isNone
    | _ => false) s

/-- R365 steps 1 to 3: the key store is zeroised, HBM crypto-erased, SRAM and the pool wiped, and all work ended; completions of fetched
descriptors carry DATA_POISONED. (DEDUCED: log entry 29) -/
def tamperWipe (s : State) : State :=
  let s := [1, 2, 3, 4].foldl (fun t fn => fenceEngine fn .dataPoisoned (dropFnReads fn t)) s
  let s := dropJobReads (endJobs alarmEnds .tamperLocked s)
  let s := clearSlots (fun _ => true) (cryptoErase (clearSas (dropRing s)))
  let s := modKst (fun k => { k with sticky := setBit k.sticky 2, chain := [] }) s
  let s := modEnt (fun e => { e with reseeding := false, drbgV := [] }) s
  let s := dropIde s
  modTst (fun t => { t with running := none }) (destroyTenant s)

/-- An alarm finds the module still starting up after a power-on or a system reset (R366, R393). (DEDUCED: log entry 29) -/
def startingUp (s : State) : Bool := !s.mbx.fwReady && !s.mbx.wdog && !s.mbx.recovery && s.rst.level != .core

/-- TAMPER_ALARM (R365 to R368, R355): an alarm while the module has power. (DEDUCED: log entry 29) -/
def tamperAlarm (source : Nat) (s : State) : State :=
  let old := reportedState s
  let s := logTamper source old s.prs.stroke s
  let s := modLife (fun l => { l with resetSince := false, inAlarm := insertNat source l.inAlarm }) s
  if s.life.stored == .retired then s
  else if startingUp s then modRst (fun r => { r with bootStopped := true }) (modLife (fun l => { l with overlay := true }) s)
  else
    let s := modLife (fun l => { l with overlay := true }) (tamperWipe s)
    let s := modPins (fun p => { p with alertTamper := true }) s
    let s := postEvent 0x0201 0 (pack [(old, 8), (6, 8)]) 0 s
    match s.life.removal with
    | some r => endRemoval { r with clearOvl := false } s
    | none => s

/-! ## Reset levels (Table 20-2) -/

/-- What a core reset clears. (DEDUCED: log entries 22, 31) -/
def clearCore (s : State) : State :=
  let s := { s with idsOk := false }
  let s := cancelSnapshot s
  let s := dropRdm (dropRings (dropWorks (wipeSram (dissolveTrained s))))
  let s := clearSlots (fun n => decide (8 ≤ n ∧ n ≤ 23)) s
  let s := modPrs (fun p => { p with stroke := 0, strokeHi := 0, lastApplyHi := 0, stalled := false, limitShadow := none, retired := p.retired.filter (fun x => decide (540 ≤ x.1)) }) s
  let s := modClk (fun c => { c with capShadow := none }) s
  let s := modPla (fun p => { p with activeBuf := 0, parityCnt := [], parityAll := [], accOvf := [] }) s
  let s := modCvu (fun c => { c with queue := [], reg := 0xFFFFFFFFFFFFFFFF#64, resultHi := 0 }) s
  let s := modHif (fun h => { h with fns := map5 h.fns (fun f => { f with fenced := false, quiesced := false, lastRing := none })
                                     tdi := .unlocked, held := h.held.filter (·.1 = 0) }) (dropReads (fun _ => true) s)
  let s := modMbx (fun m => { m with boxes := map4 m.boxes (fun b => { b with state := 0 }), jobs := [], fwReady := false, wdog := false,
                                     recovery := false, fallback := false }) s
  let s := modPins (fun p => { p with alertWdog := false, uart := none }) s
  modTst (fun t => { t with running := none, last := 0xFFFF, coreSpans := [] }) s

/-- What a system reset leaves: the non-volatile stores, the backup domain, the causes, the pins of the debug logic, and the housekeeping
time; everything else stands as after a power-on, its pins released (Tables 20-2, 20-3, 18-5). (DEDUCED: log entries 30, 31) -/
def clearSystem (s : State) : State :=
  { State.reset with
    now := s.now
    draw := s.draw
    partId := s.partId
    rst := { State.reset.rst with coreSeen := s.rst.coreSeen, systemSeen := s.rst.systemSeen, powerOn := s.rst.powerOn, last := s.rst.last
                                  carrierLow := s.rst.carrierLow, moduleLow := s.rst.moduleLow, level := s.rst.level, inReset := s.rst.inReset
                                  optLoad := s.rst.optLoad, strapAddr := s.rst.strapAddr, strapFast := s.rst.strapFast
                                  optRestarts := s.rst.optRestarts, cores := s.rst.cores }
    backup := s.backup
    clk := { State.reset.clk with dies := map4 s.clk.dies (fun d => { d with throttleUs := 0, diffReq := false }), capReq := s.clk.capReq,
                                  lowRun := s.clk.lowRun }
    pins := { State.reset.pins with pwrGood := s.pins.pwrGood, tap := s.pins.tap }
    kst := { State.reset.kst with seedBlown := s.kst.seedBlown, serial := s.kst.serial }
    life := { s.life with resetSince := true, removal := none, overlay := s.life.overlay || s.life.removal.any (·.clearOvl) }
    ctrlFw := s.ctrlFw
    secFw := s.secFw
    mbx := { State.reset.mbx with halted := s.mbx.halted, stepped := s.mbx.stepped }
    out := s.out
    pending := s.pending }

/-- What a power-on leaves: the non-volatile stores and the backup domain. (DEDUCED: log entry 31) -/
def clearPowerOn (s : State) : State :=
  let t := clearSystem s
  { t with rst := { t.rst with coreSeen := false, systemSeen := false, powerOn := true }
           clk := State.reset.clk
           pins := State.reset.pins
           mbx := State.reset.mbx }

end Sys2Proof.Machine
end

