-- ==== Sys2Proof/Machine/Firmware.lean ====
section
/-! DEFINITION. Firmware images and their slots: stage, activate, status, anti-rollback, and what the boot ROM runs
(16_control_and_mailboxes.md R322 to R326). -/

namespace Sys2Proof.Machine

/-! ## Components and slots -/

/-- A component: 1 control, 2 security. -/
def compOf (s : State) (c : Nat) : FwComp := if c = 1 then s.ctrlFw else s.secFw

/-- Change a component. -/
def modComp (c : Nat) (f : FwComp → FwComp) (s : State) : State :=
  if c = 1 then { s with ctrlFw := f s.ctrlFw } else { s with secFw := f s.secFw }

/-- A slot of a component, 0 or 1. -/
def fwSlot (f : FwComp) (i : Nat) : FwSlot := if i = 0 then f.slot0 else f.slot1

/-- Set a slot. -/
def setFwSlot (i : Nat) (x : FwSlot) (f : FwComp) : FwComp := if i = 0 then { f with slot0 := x } else { f with slot1 := x }

/-- The slot that is not running. -/
def idleSlot (f : FwComp) : Nat := 1 - f.running

/-- An empty slot. -/
def emptyFw : FwSlot := ⟨0, 0, 0, []⟩

/-- A failed stage marks the component's idle slot empty (R323). -/
def emptyStage (c : Nat) (s : State) : State := modComp c (fun f => setFwSlot (idleSlot f) emptyFw f) s

/-- A stage whose header was never read names no component: which idle slot is marked empty is free (R394, R436; notes/assumptions 3).
(DEDUCED: log entry 35) -/
def emptySome (s : State) : State :=
  emptyStage (if Config.freeBool s.draw then 1 else 2) { s with draw := s.draw + 1 }

/-- The length of an image is out of range (Table 16-8). -/
def fwLenBad (n : Nat) : Bool := decide (n < 65536) || decide (33554432 < n) || n % 16 != 0

/-- Step 1 of R323 over the header. -/
def fwHeaderBad (img : Bytes) (n : Nat) : Bool :=
  field img 0x10 4 != n || field img 0 4 != 0x5746584F || field img 4 2 != 1 || !(field img 6 1 == 1 || field img 6 1 == 2) ||
    !zeroAt img 7 1 || !zeroAt img 0x0E 2 || !zeroAt img 0x14 12 || !zeroAt img 0x60 160

/-- The firmware digest (R322). -/
def fwDigestOf (img : Bytes) : Bytes := sha512 (img.take (img.length - 4640))

/-- Refuse a stage whose image has been read; the slot of the component it names is marked empty. (DEDUCED: log entry 35) -/
def refuseStage (j : Job) (img : Bytes) (st : Status) (s : State) : State :=
  let c := field img 6 1
  answer j st (if c = 1 || c = 2 then emptyStage c s else s)

/-- FW_STAGE with the part of its image that has been read: the component it names is kept, 3 for a name out of range, and step 1 of R323 is made once
the header is there (R436). -/
def fwEarly (j : Job) : Early := fun img s =>
  let c := field img 6 1
  let s := if 7 ≤ img.length then modJob j.order (fun j => { j with subject := if c = 1 || c = 2 then c else 3 }) s else s
  if decide (256 ≤ img.length) && fwHeaderBad img (arg j 8 8) then (true, refuseStage j img .badArg s) else (false, s)

/-- A stage that ends before its image is whole marks empty the slot of the component that its header names, once that is read (R323, R394, R436). -/
def emptyNamed (c : Nat) (s : State) : State := if c = 0 then emptySome s else if c = 3 then s else emptyStage c s

/-- FW_STAGE with its image, or with a failed read (R323, R436); in recovery the slot becomes the boot slot at once (R326). -/
def fwStageData (j : Job) (sigOk : Bool) (r : Except Status Bytes) (s : State) : State :=
  match r with
  | .error st => answer j st (emptyNamed ((jobAt s j.order).elim 0 (·.subject)) s)
  | .ok img =>
    let c := field img 6 1
    let svn := field img 0x0C 2
    if fwHeaderBad img img.length then refuseStage j img .badArg s
    else if slice img 0x20 64 != bvBytes 64 Config.cehornFirmwareDigest || !sigOk then refuseStage j img .signatureInvalid s
    else if svn < (compOf s c).counter then refuseStage j img .rollbackRefused s
    else
      let i := idleSlot (compOf s c)
      let x : FwSlot := { state := 1, version := field img 8 4, svn := svn, digest := fwDigestOf img }
      let s' := modComp c (fun f => { setFwSlot i x f with boot := if s.mbx.recovery then i else f.boot }) s
      finish j .ok (leBytes 1 c ++ leBytes 1 i ++ zeros 2 ++ leBytes 4 x.version ++ leBytes 2 svn ++ zeros 6 ++ x.digest) s'

/-! ## Commands -/

/-- FW_STAGE (0x0C01, R323): a supplied length out of range is refused before anything is read. -/
def execFwStage (m : MbReads) (sigOk : Bool) (s : State) : Out :=
  .next <| onReads m 0x0C01 s fun j =>
    if !lenIs j 16 || badAddr (arg j 0 8) then answer j .badArg s
    else if fwLenBad (arg j 8 8) then answer j .badArg (emptySome s)
    else fetchSource j sigOk (arg j 0 8) (arg j 8 8) 256 (fwEarly j) (fwStageData j sigOk) s

/-- A command's component field is in range. -/
def compArg (j : Job) : Bool := arg j 0 1 == 1 || arg j 0 1 == 2

/-- FW_ACTIVATE (0x0C02, R324): the lifecycle states are those of Table 18-4. -/
def execFwActivate (mb : MbId) (s : State) : Out :=
  .next <| onNewJob mb 0x0C02 s fun j =>
    let f := compOf s (arg j 0 1)
    if !lenIs j 8 || !compArg j || !zeroAt j.payload 1 7 || (fwSlot f (idleSlot f)).state != 1 then answer j .badArg s
    else answer j .ok (modComp (arg j 0 1) (fun f => { f with boot := idleSlot f }) s)

/-- The 32 bytes of FW_STATUS for a component. -/
def fwStatusOf (f : FwComp) : Bytes :=
  let o := fwSlot f (idleSlot f)
  leBytes 1 f.running ++ leBytes 1 f.boot ++ leBytes 1 o.state ++ [0] ++ leBytes 4 f.runVer ++ leBytes 2 f.runSvn ++ leBytes 2 f.counter ++
    leBytes 4 o.version ++ leBytes 2 o.svn ++ zeros 14

/-- FW_STATUS (0x0C03, R324). -/
def execFwStatus (mb : MbId) (s : State) : Out :=
  .next <| onNewJob mb 0x0C03 s fun j =>
    if !lenIs j 8 || !allZero j.payload then answer j .badArg s
    else finish j .ok (fwStatusOf s.ctrlFw ++ fwStatusOf s.secFw) s

/-- Why a ROLLBACK_ADVANCE is refused (R325). -/
def rollbackCheck (j : Job) (s : State) : Option Status :=
  let t := arg j 4 2
  firstFail [
    (!lenIs j 8 || !compArg j || !zeroAt j.payload 1 3 || arg j 6 2 != 0 || decide (64 < t), .badArg),
    (decide ((compOf s (arg j 0 1)).runSvn < t), .notPermitted)]

/-- Bits of a component's counter are blown, up to a number (R325). -/
def blowTo (c t : Nat) (s : State) : State := modComp c (fun f => { f with counter := max f.counter t }) s

/-- ROLLBACK_ADVANCE (0x0C04, R325). -/
def execRollbackAdvance (mb : MbId) (s : State) : Out :=
  .next <| onNewJob mb 0x0C04 s fun j =>
    match rollbackCheck j s with
    | some st => answer j st s
    | none => answer j .ok (blowTo (arg j 0 1) (arg j 4 2) s)

/-- A reset meets firmware commands (R394): a stage leaves its slot empty; a rollback advance that has begun keeps the bits blown so far, a free number
of those it was to blow (notes/assumptions 3). (DEDUCED: log entry 35) -/
def abandonFirmware (s : State) : State :=
  match s.mbx.jobs.find? (fun j => (j.opcode == 0x0C01 && j.phase == 2) || (j.opcode == 0x0C04 && j.phase == 1)) with
  | none => s
  | some j =>
    if j.opcode = 0x0C01 then emptyNamed j.subject s
    else if (rollbackCheck j s).isSome then s
    else
      let k := (compOf s (arg j 0 1)).counter
      let d := drawNat s
      blowTo (arg j 0 1) (k + d.1 % (arg j 4 2 - k + 1)) d.2

/-! ## Boot (R324) -/

/-- A slot passes steps 2 and 3 of R323 at boot; `sigOk` is what the signature check finds. (DEDUCED: log entry 35) -/
def fwBootable (f : FwComp) (i : Nat) (sigOk : Bool) : Bool :=
  (fwSlot f i).state != 0 && decide (f.counter ≤ (fwSlot f i).svn) && sigOk

/-- A slot runs: the one that ran before becomes the previous one. -/
def runSlot (i : Nat) (f : FwComp) : FwComp :=
  let x := fwSlot f i
  let o := fwSlot f (1 - i)
  let f := setFwSlot i { x with state := 3 } (setFwSlot (1 - i) (if o.state = 3 then { o with state := 2 } else o) f)
  { f with running := i, boot := i, runVer := x.version, runSvn := x.svn, runDig := x.digest }

/-- What the boot ROM runs of a component, and whether it fell back; none when neither slot is valid. (DEDUCED: log entry 35) -/
def bootComp (f : FwComp) (bootOk otherOk : Bool) : Option (FwComp × Bool) :=
  if fwBootable f f.boot bootOk then some (runSlot f.boot f, false)
  else if fwBootable f (1 - f.boot) otherOk then some (runSlot (1 - f.boot) f, true)
  else none

/-- Boot a component: its firmware runs, a fallback is flagged and its event is due; `none` leaves the slots as they are. -/
def bootFirmware (c : Nat) (bootOk otherOk : Bool) (s : State) : Option State :=
  (bootComp (compOf s c) bootOk otherOk).map (fun r =>
    let s := modComp c (fun _ => r.1) s
    if r.2 then
      modMbx (fun m => { m with fallback := true, fallbackEv := m.fallbackEv ++ [(c, r.1.running, r.1.runVer)] }) s
    else s)

end Sys2Proof.Machine
end

