-- ==== Sys2Proof/Machine/Boot.lean ====
section
/-! DEFINITION. Reset, option load and boot (20_reset.md R385 to R395), the loss of the rails and Standby (21_clocks_power_thermal.md R400,
R405, R407; 23_module_connectors.md R428), and alarms (18_tenancy_and_memory_protection.md R365, R366). -/

namespace Sys2Proof.Machine

/-! ## Reset levels (R385 to R389) -/

/-- The deeper of two levels. -/
def deeper (a b : ResetLevel) : ResetLevel :=
  match a, b with
  | .powerOn, _ => .powerOn
  | _, .powerOn => .powerOn
  | .system, _ => .system
  | _, .system => .system
  | .core, _ => .core
  | .none, x => x

/-- A power-on: RESET_N is held low for 10 ms from rails good, and a thermal trip that the backup domain holds is reported (R385, R387, R405).
(DEDUCED: log entry 33) -/
def powerOnReset (s : State) : State :=
  let t := clearPowerOn (abandonFirmware s)
  let t := modRst (fun r => { r with
    level := .powerOn, inReset := true, moduleLow := true, railsOn := true, standby := false, optLoad := false, optRestarts := 0, cores := 0 }) t
  let t := modClk (fun c => { c with sticky := if s.backup.trip then setBit c.sticky 6 else c.sticky }) t
  { t with backup := { t.backup with trip := false } }

/-- POWER_ON (R385, R389): the rails come into range, in any state. -/
def execPowerOn (s : State) : Out := .next (powerOnReset s)

/-- RESET_N_FALL (R386): the carrier, or PERST#, pulls the line low, and the low period is timed. -/
def execResetNFall (s : State) : Out := .next (modRst (fun r => { r with carrierLow := true }) s)

/-- CORE_RESET_QUALIFY (R386, R387, R389, R394): the low period reaches 10 µs. In Standby it gives a power-on reset (R406); during a removal
it is a system reset. -/
def execCoreResetQualify (s : State) : Out :=
  .next <|
    if s.rst.standby && s.rst.carrierLow then powerOnReset s
    else if !s.rst.railsOn || !s.rst.carrierLow || s.rst.inReset then s
    else
      let raised := s.life.removal.isSome
      let level := deeper (if s.rst.optLoad then s.rst.level else .none) (if raised then .system else .core)
      let s1 := abandonFirmware s
      let s1 := if raised then clearSystem s1 else clearCore s1
      modRst (fun r => { r with inReset := true, moduleLow := true, level := level, cores := r.cores + 1
                                optRestarts := if s.rst.optLoad then r.optRestarts else 0 }) s1

/-- RESET_STRETCH_RELEASE (R387): the module lets the line go. -/
def execResetStretchRelease (s : State) : Out := .next (modRst (fun r => { r with moduleLow := false }) s)

/-- SYSTEM_RESET_QUALIFY (R386, R389): a low period that qualified at 10 µs reaches 2 ms, whatever the level of a reset that it interrupts. A
power-on's own low period is none. (DEDUCED: log entry 32) -/
def execSystemResetQualify (s : State) : Out :=
  .next <|
    if !s.rst.railsOn || !s.rst.carrierLow || !s.rst.inReset || s.rst.cores = 0 then s
    else modRst (fun r => { r with level := deeper r.level .system }) (clearSystem s)

/-- The reset ends at its level, and option load begins: the straps are sampled and the reset counter counts, but for a core reset (R386, R389,
R390, R391). (DEDUCED: log entry 32) -/
def beginOptionLoad (s : State) : State :=
  let core := s.rst.level == .core
  let s := modRst (fun r => { r with
    inReset := false, optLoad := true
    optRestarts := if r.optLoad then min 255 (r.optRestarts + 1) else r.optRestarts
    strapAddr := if core then r.strapAddr else Config.straps.toNat % 8
    strapFast := if core then r.strapFast else Config.straps.getLsbD 3 }) s
  if core then s else { s with backup := { s.backup with resetCount := sat s.backup.resetCount } }

/-- RESET_N_RISE (R386): the line rises when neither the carrier nor the module holds it; a low period that never qualified is a glitch. -/
def execResetNRise (carrierHigh : Bool) (s : State) : Out :=
  .next <|
    let was := if carrierHigh then s.rst.carrierLow else s.rst.inReset
    let s := if carrierHigh then modRst (fun r => { r with carrierLow := false }) s else s
    if !was || resetLow s || !s.rst.railsOn then s
    else if !s.rst.inReset then modRst (fun r => { r with shortPulse := true }) s
    else beginOptionLoad s

/-! ## Option load and boot -/

/-- `RST.CAUSE.LAST` of a level (Table 20-6). -/
def lastCode : ResetLevel → Nat
  | .none => 0
  | .powerOn => 1
  | .system => 2
  | .core => 3

/-- Sources that the backup domain latched with power off: each is logged, and the module enters TAMPER_LOCKED unless RETIRED (R366, R367).
(DEDUCED: log entry 33) -/
def latchedAlarms (s : State) : State :=
  let t := s.backup.latched.foldl (fun t x => logTamper x 0 0 t) s
  let t := { t with backup := { t.backup with latched := [] } }
  if s.backup.latched.isEmpty || s.life.stored == .retired then t else modLife (fun l => { l with overlay := true }) t

/-- The causes that option load records at its end (Tables 20-5 and 20-6). (DEDUCED: log entry 31) -/
def recordCause (s : State) : State :=
  modRst (fun r => { r with
    last := lastCode r.level
    coreSeen := r.coreSeen || r.level == .core
    systemSeen := r.systemSeen || r.level == .system
    powerOn := r.powerOn || r.level == .powerOn
    coreCnt := if r.level == .core then satAdd 32 r.coreCnt r.cores else r.coreCnt
    cores := 0 }) s

/-- The security subsystem starts: the identity seed is expanded and its firmware is verified and run (R329, R324). (DEDUCED: log entry 33) -/
def startSecurity (bootOk otherOk : Bool) (s : State) : State :=
  let s := expandIdentity s
  match bootFirmware 2 bootOk otherOk s with
  | some t => t
  | none => modMbx (fun m => { m with secInvalid := true }) s

/-- An option record passes its check: a CRC-64 folded with its OTP word address (R389, R380). -/
def recordOk (r : OptRecord) : Bool := crc64 (BitVec.ofNat 64 r.addr) r.data == r.crc

/-- The records in use: the first valid one of each type (R389). -/
def recordsUsed (l : List OptRecord) : List OptRecord :=
  (l.filter recordOk).foldl (fun acc r => if acc.any (fun x => x.type == r.type) then acc else acc ++ [r]) []

/-- OPTION_LOAD_DONE (R389): `records` is what the OTP holds, in its order; `missing`, a type that boot needs has no valid record, or the boot ROM's
test of a block that no command tests fails (R410). (DEDUCED: log entry 33) -/
def execOptionLoadDone (records : List OptRecord) (missing secBootOk secOtherOk : Bool) (s : State) : Out :=
  .next <|
    if !s.rst.railsOn || !s.rst.optLoad || s.rst.inReset then s
    else
      let core := s.rst.level == .core
      let s := recordCause { s with idsOk := true }
      let bad := (records.filter (fun r => !recordOk r)).length
      let s := modRst (fun r => { r with
        optLoad := false, options := recordsUsed records, optBad := r.optBad || bad != 0, optBadCnt := satAdd 32 r.optBadCnt bad }) s
      let s := if core then s else latchedAlarms s
      if missing then modPins (fun p => { p with alertBoot := true }) (modRst (fun r => { r with bootStopped := true }) s)
      else if core || s.rst.bootStopped then s
      else startSecurity secBootOk secOtherOk s

/-- The firmware takes the console: its rate is the strapped one, and it sends boot progress (R425). -/
def startConsole (s : State) : State :=
  emit .bootProgress (modPins (fun p => { p with uart := some (if s.rst.strapFast then 115200 else 921600) }) s)

/-- FIRMWARE_READY (R308, R324, R326): the control firmware of the boot slot runs, or of the other slot, or none is valid. (DEDUCED: log entry 33) -/
def execFirmwareReady (ctrlBootOk ctrlOtherOk : Bool) (s : State) : Out :=
  .next <|
    if !s.rst.railsOn || s.rst.optLoad || s.rst.inReset || s.rst.bootStopped || s.mbx.fwReady || s.mbx.wdog || s.mbx.recovery then s
    else match bootFirmware 1 ctrlBootOk ctrlOtherOk s with
    | some t => postFallback (startConsole (modMbx (fun m => { m with fwReady := true }) t))
    | none => modMbx (fun m => { m with recovery := true }) s

/-- WATCHDOG_EXPIRE (R309): suspended while the processor is halted (R418). (DEDUCED: log entry 35) -/
def execWatchdogExpire (core : Fin 4) (s : State) : Out :=
  .next <|
    if !s.rst.railsOn || !s.mbx.fwReady || get4 s.mbx.halted core.val then s
    else modPins (fun p => { p with alertWdog := true }) (modMbx (fun m => { m with wdog := true, fwReady := false }) s)

/-! ## Power (R400, R405, R407, R428) -/

/-- The power stage removes every rail except the backup domain: what they fed is lost, and PWR_GOOD is low. (DEDUCED: log entry 34) -/
def powerOff (s : State) : State :=
  let t := clearPowerOn (abandonFirmware s)
  let t := modRst (fun r => { r with
    railsOn := false, standby := false, optLoad := false, inReset := false, moduleLow := false, level := .powerOn, cores := 0 }) t
  modPins (fun p => { p with pwrGood := false }) t

/-- THERMAL_TRIP (R405): a die at 115 °C or more; the backup domain latches it. -/
def execThermalTrip (_die : Fin 5) (tj : Int) (s : State) : Out :=
  .next <|
    if !s.rst.railsOn || tj < 115 then s
    else
      let t := powerOff s
      { t with backup := { t.backup with trip := true } }

/-- The 44 V input leaves its range, with the module on or in Standby. (DEDUCED: log entry 34) -/
def inputLost (s : State) : State := if s.rst.railsOn || s.rst.standby then powerOff s else s

/-- INPUT_UNDERVOLTAGE (R400). -/
def execInputUndervoltage (s : State) : Out := .next (inputLost s)

/-- INPUT_OVERVOLTAGE (R428). -/
def execInputOvervoltage (s : State) : Out := .next (inputLost s)

/-- Something that Standby does not wait for is open (R407). -/
def standbyBlocked (s : State) : Bool :=
  s.dec.isSome || !s.ptn.rounds.isEmpty || !s.hev.ctxs.isEmpty || s.ring.isSome || !s.rdm.conns.isEmpty ||
    (list4 s.mbx.boxes).any (fun b => b.state == 1) || s.mpr.wiping

/-- A write to `CLK.STANDBY` (R407). (DEDUCED: log entry 34) -/
def standbyWrite (v : Nat) (s : State) : State :=
  if v != 0x53544259 || standbyBlocked s then modClk (fun c => { c with sticky := setBit c.sticky 5 }) s
  else modRst (fun r => { r with standby := true }) (powerOff s)

/-! ## Alarms (R365, R366, R391) -/

/-- TAMPER_ALARM (R365 to R367): a source alarms while the module has power. (DEDUCED: log entry 29) -/
def execTamperAlarm (source : Nat) (s : State) : Out := .next (if s.rst.railsOn then tamperAlarm source s else s)

/-- BACKUP_TAMPER_LATCH (R366): a backup sensor alarms in Standby or with main power off. -/
def execBackupTamperLatch (source : Nat) (s : State) : Out :=
  .next (if s.rst.railsOn then s else { s with backup := { s.backup with latched := insertNat source s.backup.latched } })

/-- BACKUP_SUPPLY_LOSS (R391): with the input absent, the backup domain loses its contents; the next power-up logs source 7. (DEDUCED: log entry 34) -/
def execBackupSupplyLoss (s : State) : Out :=
  .next <|
    if s.rst.railsOn || s.rst.standby then s
    else { s with backup := { resetCount := 0, log := [], total := 0, latched := insertNat 7 s.backup.latched, trip := false } }

end Sys2Proof.Machine
end

