-- ==== Sys2Proof/Machine/Cvu.lean ====
section
/-! DEFINITION. The check-value unit in PF0 BAR0 (19_entropy_and_check_values.md R381 to R384). -/

namespace Sys2Proof.Machine

/-- The register after one byte, by the selected CRC. CRC-32C uses bits [31:0]. -/
def cvuByte (c : CvuState) (b : Byte) : BitVec 64 :=
  if c.poly then crc64Byte c.reg b else (crc32Byte (c.reg.extractLsb' 0 32) b).zeroExtend 64

/-- The register a START step loads (R381). -/
def cvuInit (c : CvuState) : BitVec 64 :=
  if c.poly then crc64Init c.fold else (crc32Init c.fold).zeroExtend 64

/-- The oldest queued step is processed (R381). -/
def cvuStep (c : CvuState) : CvuState :=
  match c.queue with
  | [] => c
  | .byte b :: q => { c with queue := q, reg := cvuByte c b }
  | .start :: q => { c with queue := q, reg := cvuInit c }

/-- Queue steps, or ignore the write whole and set OVERRUN when they do not fit the 16 places (R381, R281). -/
def cvuQueue (l : List CvuStep) (c : CvuState) : CvuState :=
  if c.queue.length + l.length ≤ 16 then { c with queue := c.queue ++ l } else { c with sticky := setBit c.sticky 1 }

/-- A write of START queues one step (R381). -/
def cvuStart (s : State) : State := modCvu (cvuQueue [.start]) s

/-- A write to DATA8, DATA16 or DATA32 queues 1, 2 or 4 byte-steps, low byte first (R381). -/
def cvuData (nbytes v : Nat) (s : State) : State := modCvu (cvuQueue ((leBytes nbytes v).map CvuStep.byte)) s

/-- CVU_BYTE_STEP (R381): one step per P cycle. -/
def execCvuByteStep (s : State) : Out := .next (modCvu cvuStep s)

/-- A read of RESULT_LO (R382): it waits until the queue is empty, returns the low half and latches the high half, which is 0 in
CRC-32C mode. -/
def cvuRead (s : State) : State :=
  let c := Nat.repeat cvuStep s.cvu.queue.length s.cvu
  let r := cvuResult c
  emit (.readData (leBytes 4 (r % 2 ^ 32)))
    (modCvu (fun _ => { c with resultHi := BitVec.ofNat 32 (if c.poly then r / 2 ^ 32 else 0) }) s)

end Sys2Proof.Machine
end

