-- ==== Sys2Proof/Machine/Entropy.lean ====
section
/-! DEFINITION. Noise sources, health tests, conditioner, generator, and the host's random bytes
(19_entropy_and_check_values.md R370 to R379). -/

namespace Sys2Proof.Machine

/-! ## Health tests (Table 19-1, R371) -/

/-- The bits of a block in order. -/
def blockBits (b : BitVec 1024) : List Bool := (List.range 1024).map (fun i => b.getLsbD i)

/-- The repetition count after one bit. (DEDUCED: log entry 38) -/
def rctBit (x : NoiseSource) (b : Bool) : NoiseSource :=
  if x.run != 0 && b == x.lastBit then { x with run := x.run + 1 } else { x with lastBit := b, run := 1 }

/-- The source after a block's bits, and whether the repetition count reached 41 in it. -/
def rctBlock (bits : List Bool) (x : NoiseSource) : NoiseSource × Bool :=
  bits.foldl (fun r b => let y := rctBit r.1 b; (y, r.2 || decide (41 ≤ y.run))) (x, false)

/-- The adaptive-proportion test fires: the first bit occurs 800 times or more. -/
def aptFires (bits : List Bool) : Bool :=
  match bits with
  | [] => false
  | b :: _ => decide (800 ≤ (bits.filter (· == b)).length)

/-- The source after a block (R370 to R372), whether the block passed, and whether it reaches the conditioner. (DEDUCED: log entry 38) -/
def testBlock (bits : List Bool) (x : NoiseSource) : NoiseSource × Bool × Bool :=
  let r := rctBlock bits x
  let a := aptFires bits
  let y : NoiseSource := { r.1 with rctFail := if r.2 then sat16 r.1.rctFail else r.1.rctFail
                                    aptFail := if a then sat16 r.1.aptFail else r.1.aptFail }
  let pass := !r.2 && !a
  if y.passed = 4 then (y, pass, pass)
  else if pass then ({ y with passed := y.passed + 1 }, true, false)
  else ({ y with passed := 0 }, false, false)

/-! ## Conditioner and generator (R373 to R376) -/

/-- The generator waits for conditioner outputs: it is not instantiated, or it reseeds. (DEDUCED: log entry 38) -/
def wantsOutputs (s : State) : Bool := !drbgLive s || s.ent.reseeding

/-- A passing block enters the conditioner; every fourth gives an output, kept while the generator waits for it. (DEDUCED: log entry 38) -/
def condition (b : BitVec 1024) (s : State) : State :=
  let bs := s.ent.blocks ++ [b]
  if bs.length < 4 then modEnt (fun e => { e with blocks := bs }) s
  else
    let o := BitVec.ofNat 256 (leNat (sha256 (bs.flatMap (bvBytes 128))))
    modEnt (fun e => { e with blocks := [], outputs := if wantsOutputs s then e.outputs ++ [o] else e.outputs }) s

/-- ENTROPY_BLOCK (R370 to R373). -/
def execEntropyBlock (src : Fin 8) (bits : BitVec 1024) (s : State) : Out :=
  .next <|
    match s.ent.sources[src.val]? with
    | none => s
    | some x =>
      if !securityUp s then s
      else
        let r := testBlock (blockBits bits) x
        let s := modEnt (fun e => { e with sources := updAt (fun _ => r.1) src.val e.sources
                                           sticky := if r.2.1 then e.sticky else setBit e.sticky 0 }) s
        if r.2.2 then condition bits s else s

/-- The entropy input: the first 48 bytes of two conditioner outputs (R374). -/
def entropyInput (s : State) : Bytes := ((s.ent.outputs.take 2).flatMap (bvBytes 32)).take 48

/-- The generator is seeded with two conditioner outputs: its key is in slot 4, and what waited for it is served (R374, R375, R377). -/
def seedDrbg (w : Bytes × Bytes) (s : State) : State :=
  let k : KeySlot := { slot := 4, type := 3, origin := 1, mask := 0x80, nonExport := true, secret := w.1, pub := [], bound := [] }
  serveInternal (fillSlot k (modEnt (fun e => { e with
    outputs := e.outputs.drop 2, ready := true, reseeding := false, requests := 0, drbgV := w.2, reseedCnt := sat e.reseedCnt }) s))

/-- DRBG_INSTANTIATE (R374 to R376). -/
def execDrbgInstantiate (s : State) : Out :=
  .next (if securityUp s && !drbgLive s && decide (2 ≤ s.ent.outputs.length) then seedDrbg (drbgInit (entropyInput s) ((identityDigest s).take 48)) s else s)

/-- DRBG_RESEED (R374). -/
def execDrbgReseed (s : State) : Out :=
  .next (if securityUp s && drbgLive s && s.ent.reseeding && decide (2 ≤ s.ent.outputs.length) then seedDrbg (drbgUpdate (entropyInput s) (drbgState s)) s else s)

/-! ## Host requests (R378, R119, R362) -/

/-- RANDOM_GET's payload is out of range. -/
def randomBad (j : Job) : Bool := !lenIs j 8 || arg j 0 2 == 0 || decide (16320 < arg j 0 2) || !zeroAt j.payload 2 6

/-- RANDOM_GET (0x030A, R378): it waits for the generator, and RANDOM_GET_TIMEOUT ends the wait. -/
def execRandomGet (mb : MbId) (s : State) : Out :=
  .next <| onJob mb 0x030A s fun j =>
    if randomBad j then answer j .badArg s
    else if !drbgGrants 1 5 s then waitJob j 0 s
    else
      let r := drbgTake (arg j 0 2) s
      finish j .ok r.1 r.2

/-- RANDOM_GET_TIMEOUT (R378): a RANDOM_GET that has waited 1 ms, and waits still, ends. (DEDUCED: log entry 38) -/
def execRandomGetTimeout (mb : MbId) (s : State) : Out :=
  .next <| onJob mb 0x030A s fun j =>
    if j.phase != 2 || drbgGrants 1 5 s then s
    else answer j .entropyNotReady (modEnt (fun e => { e with hostWait := sat e.hostWait }) s)

/-- ENTROPY_WAIT_TIMEOUT (R119, R362): a DECODE_OPEN or an HBM_KEY_ROTATE that has waited 1 ms for the generator ends. -/
def execEntropyWaitTimeout (mb : MbId) (s : State) : Out :=
  .next <|
    match s.mbx.jobs.find? (fun j => j.mb == mb.val && j.phase == 2 && (j.opcode == 0x0501 || j.opcode == 0x0309)) with
    | some j => if firmwareRuns s && !drbgGrants 1 (if j.opcode = 0x0501 then 3 else 2) s then answer j .entropyNotReady s else s
    | none => s

end Sys2Proof.Machine
end

