-- ==== Sys2Proof/Machine/HostIf.lean ====
section
/-! DEFINITION. The host's accesses: registers and doorbells in BAR0 (00_scope.md R15 to R17, R435), BAR2 (15_host_interface.md R299, R360),
answers to the module's reads (R300, R436), function-level reset (R301 to R303, R295), and the debug port (22_test_and_telemetry.md R418). -/

namespace Sys2Proof.Machine

/-! ## Requests of the host (R306) -/

/-- A request is refused in RUN for want of T = 1 on the selective stream (R306). -/
def tdiRefuses (s : State) (secure : Bool) : Bool := s.hif.tdi == .run && !secure

/-- A refusal in RUN is counted. -/
def countReject (s : State) : State := modHif (fun h => { h with tdiReject := sat h.tdiReject }) s

/-- A write of the host to BAR0: in RUN it must be secure, and BAR0 is locked in CONFIG_LOCKED (R306). (DEDUCED: log entry 18) -/
def bar0Write (secure : Bool) (s : State) (f : State → State) : State :=
  if !hostReach s then s
  else if tdiRefuses s secure then countReject s
  else if s.hif.tdi == .locked then tdiError s
  else f s

/-- An AER uncorrectable error of a function. -/
def setAer (fn n : Nat) (s : State) : State := modFn fn (fun f => { f with aer := setBit f.aer n }) s

/-- A read completes with Unsupported Request (AER bit 20), or with Completer Abort (bit 15). (PRESUMED: log entry 11) -/
def refuseRead (fn : Nat) (abort : Bool) (s : State) : State :=
  emit (if abort then .bar2Abort else .bar2Unsupported) (setAer fn (if abort then 15 else 20) s)

/-- A read of the host from a BAR of a function. -/
def bar0Read (fn : Nat) (secure : Bool) (s : State) (f : State → State) : State :=
  if !hostReach s then s
  else if tdiRefuses s secure then refuseRead fn false (countReject s)
  else f s

/-- A write to what a lock holds, BAR registers, MSI-X tables and IDE registers: in CONFIG_LOCKED and RUN the TDI enters ERROR (R306).
(DEDUCED: log entry 18) -/
def lockedWrite (s : State) (f : State → State) : State := if s.hif.tdi == .locked || s.hif.tdi == .run then tdiError s else f s

/-- Change the configuration space of a function. -/
def modCfg (fn : Nat) (f : ConfigSpace → ConfigSpace) (s : State) : State := modFn fn (fun x => { x with cfg := f x.cfg }) s

/-- A half of a BAR register: the address bits below its size are hardwired (R297). (PRESUMED: log entry 11) -/
def writeBar (half : Nat) (v : Nat) (c : ConfigSpace) : ConfigSpace :=
  let lo := fun (r : BitVec 64) (low : Nat) (size : Nat) => BitVec.ofNat 64 (r.toNat / 2 ^ 32 * 2 ^ 32 + v / size % (2 ^ 32 / size) * size + low)
  let hi := fun (r : BitVec 64) (mask : Nat) => BitVec.ofNat 64 (v / mask * mask * 2 ^ 32 + r.toNat % 2 ^ 32)
  if half = 0 then { c with bar0 := lo c.bar0 0x4 (2 ^ 24) }
  else if half = 1 then { c with bar0 := hi c.bar0 1 }
  else if half = 2 then { c with bar2 := lo c.bar2 0xC (2 ^ 32) }
  else { c with bar2 := hi c.bar2 (2 ^ 4) }

/-- An access to a block that a core reset holds down is not counted (R395). -/
def downAt (s : State) (fn off : Nat) : Bool := (blockAt fn off).any (fun x => blockDown s x.1)

/-! ## Registers (R15 to R17, R435) -/

/-- A write to a register in BAR0 of a function (R15, R17). -/
def plainWrite (fn off width v : Nat) (s : State) : State :=
  if downAt s fn off then s
  else match blockAt fn off with
  | none => countBad s
  | some (b, o) => if rightWidth b o width true then regWrite b o width v s else countBad s

/-- A write of the host to a place outside BAR0's blocks: the MSI-X table is memory, the others are configuration space. (PRESUMED: log entry 11) -/
def placeWrite (fn : Nat) (secure : Bool) (place : RegPlace) (width v : Nat) (s : State) : State :=
  match place with
  | .bar0 off => bar0Write secure s (plainWrite fn off width v)
  | .barRegister half => if hostReach s then lockedWrite s (modCfg fn (writeBar half.val v)) else s
  | .ideRegister off => if hostReach s then lockedWrite s (modCfg fn (fun c => { c with ide := cellWrite c.ide off (leBytes width v) })) else s
  | .msixTable off =>
    if !hostReach s then s
    else if tdiRefuses s secure then countReject s
    else lockedWrite s (modCfg fn (fun c => if off + width ≤ 16 * c.vectors then { c with msix := cellWrite c.msix off (leBytes width v) } else c))

/-- REGISTER_WRITE (R15, R306): the fields that have no row of their own. -/
def execRegisterWrite (fn : FnId) (secure : Bool) (place : RegPlace) (width : Nat) (v : BitVec 64) (s : State) : Out :=
  .next (placeWrite fn.val secure place width v.toNat s)

/-- BAD_REGISTER_ACCESS (R17): ignored as a write, 0 as a read, and counted; an access that is right is not this row. -/
def execBadRegisterAccess (fn : FnId) (secure : Bool) (off width : Nat) (isWrite : Bool) (s : State) : Out :=
  .next <|
    let count := fun (s : State) => if downAt s fn.val off then s else countBad s
    if rightAccess fn.val off width isWrite then s
    else if isWrite then bar0Write secure s count
    else bar0Read fn.val secure s (fun s => emit (.readData (zeros width)) (count s))

/-- LO_REGISTER_READ (R435). -/
def execLoRegisterRead (secure : Bool) (r : LoReg) (s : State) : Out :=
  .next (bar0Read 0 secure s fun s => emit (.readData (leBytes 4 (loValue r s))) (latchHi r s))

/-- SNAP_CTRL_ARM (R50): a write of 1 to `PRS.SNAP_CTRL.ARM`. -/
def execSnapCtrlArm (secure : Bool) (s : State) : Out := .next (bar0Write secure s armFromRegister)

/-- MAILBOX_GO (R311, R312): mailboxes 0 to 2 from the host, mailbox 3 over SMBus (R315). -/
def execMailboxGo (mb : MbId) (secure : Bool) (s : State) : Out :=
  .next <|
    if mb = 3 then (if smbusAnswers s then mailboxGo 3 s else s)
    else bar0Write secure s (mailboxGo mb.val)

/-- WORK_RING_DOORBELL (R276). -/
def execWorkRingDoorbell (fn : FnId) (secure : Bool) (ring : Nat) (v : BitVec 64) (s : State) : Out :=
  .next (bar0Write secure s fun s => if ownsRings fn.val then workDoorbell fn.val ring v.toNat s else countBad s)

/-- COMPLETION_RING_DOORBELL (R276, R438). -/
def execCompletionRingDoorbell (fn : FnId) (secure : Bool) (ring : Nat) (v : BitVec 64) (s : State) : Out :=
  .next (bar0Write secure s fun s => if ownsRings fn.val then completionDoorbell fn.val ring v.toNat s else countBad s)

/-- EVENT_RING_DOORBELL (R320): PF0's doorbell page is in the control processor complex (R395). -/
def execEventRingDoorbell (secure : Bool) (v : BitVec 64) (s : State) : Out :=
  .next (bar0Write secure s fun s => if blockDown s .mbx then s else eventDoorbell v.toNat s)

/-- CVU_START (R381). -/
def execCvuStart (secure : Bool) (s : State) : Out := .next (bar0Write secure s cvuStart)

/-- CVU_DATA_WRITE (R381). -/
def execCvuDataWrite (secure : Bool) (nbytes : Nat) (v : BitVec 32) (s : State) : Out :=
  .next (bar0Write secure s (cvuData nbytes v.toNat))

/-- CVU_RESULT_READ (R382). -/
def execCvuResultRead (secure : Bool) (s : State) : Out := .next (bar0Read 0 secure s cvuRead)

/-- STANDBY_REQUEST (R407). -/
def execStandbyRequest (secure : Bool) (v : BitVec 32) (s : State) : Out := .next (bar0Write secure s (standbyWrite v.toNat))

/-! ## BAR2 (R299, R360) -/

/-- A BAR2 access is denied outside OWNED_OPEN. -/
def bar2Denied (s : State) : State := modHif (fun h => { h with bar2Deny := sat h.bar2Deny }) s

/-- The device address of a BAR2 offset. -/
def bar2Addr (s : State) (fn off : Nat) : Nat := (get5 s.hif.fns fn).bar2 * 2 ^ 36 + off

/-- A second tree failure among what failed in [a, a+n) has put the memory-integrity source in alarm: the alarm runs at once (R360, R365).
(DEDUCED / DESIGN CHOICE: log entries 21, 75) -/
def integrityAlarm (bad : List MemFail) (a n : Nat) (s : State) : State :=
  if inHbm s a n && (unitsHit 4096 treeTwice bad a n).any (fun p => !(pageOf s p).readOnly) then tamperAlarm 6 s else s

/-- Read device memory for BAR2 or the debug port: Completer Abort under R12 and R13, a Poisoned TLP, or the bytes. (DEDUCED: log entry 21) -/
def deviceRead (a len : Nat) (bad : List MemFail) (s : State) : State :=
  if !devOk s a len then emit .bar2Abort (countBad s)
  else
    let g := checkedRead bad a len s
    emit (if g.2.1 then .bar2Poisoned else .readData g.1) (integrityAlarm bad a len g.2.2)

/-- Write device memory for BAR2 or the debug port: discarded under R12 and R13, and while HBM holds no key. A line
that the write covers is not read, so its MAC is not checked; one that it covers in part is merged, and stays poisoned where its MAC failed.
(DEDUCED: log entry 21) -/
def deviceWrite (a : Nat) (data : Bytes) (bad : List MemFail) (s : State) : State :=
  let n := data.length
  if !devOk s a n then countBad s
  else if !inHbm s a n then (memWrite a data s).2
  else
    let read := bad.filter (fun f => (checkFail f).all (fun x => !coversLine a n (x / 64)))
    let t := integrityAlarm read a n (failReads read a n s)
    if !(unitsHit 1 treeTwice read a n).isEmpty || !hbmReadable s then t
    else
      let t := (memWrite a data t).2
      modMem (fun m => { m with poison := (unitsHit 64 checkFail read a n).foldl (fun p l => insertNat l p) m.poison }) t

/-- BAR2_READ (R299, R306, R360). -/
def execBar2Read (fn : FnId) (off len : Nat) (secure : Bool) (bad : List MemFail) (s : State) : Out :=
  .next (bar0Read fn.val secure s fun s =>
    if !ownedOpen s then refuseRead fn.val false (bar2Denied s)
    else
      let a := bar2Addr s fn.val off
      deviceRead a len bad (if devOk s a len then s else setAer fn.val 15 s))

/-- BAR2_WRITE (R299, R306, R360). BAR2 is not one of the BARs that a lock holds. -/
def execBar2Write (fn : FnId) (off : Nat) (data : Bytes) (secure : Bool) (bad : List MemFail) (s : State) : Out :=
  .next <|
    if !hostReach s then s
    else if tdiRefuses s secure then countReject s
    else if !ownedOpen s then bar2Denied s
    else deviceWrite (bar2Addr s fn.val off) data bad s

/-! ## Answers to the module's reads (R300, R436, R277) -/

/-- The data of a mailbox command, or its read's failure. (DEDUCED: log entry 20) -/
def commandData (j : Job) (sigOk : Bool) (r : Except Status Bytes) (s : State) : State :=
  if j.opcode = 0x0401 then plateStageData j sigOk r s
  else if j.opcode = 0x0502 then weightsLoadData j r s
  else if j.opcode = 0x0503 then draftLoadData j r s
  else if j.opcode = 0x0530 then replayTokens j r s
  else if j.opcode = 0x0703 then correctFirst j r s
  else if j.opcode = 0x0803 then keyLoadData j r s
  else if j.opcode = 0x0C01 then fwStageData j sigOk r s
  else s

/-- A descriptor has been read, or its read has ended in an error (Table 15-5). A poisoned descriptor's bytes are undefined: free values
(notes/assumptions 3). (DEDUCED: log entry 20) -/
def descriptorData (n : Nat) (r : Except Status Bytes) (s : State) : State :=
  match wringAt s n with
  | none => s
  | some w =>
    match r with
    | .ok b => fetched w (fit 64 b) false s
    | .error .dataPoisoned => let d := drawBytes 64 s; fetched w d.1 true d.2
    | .error _ => ringReadFault w s

/-- A mailbox command takes its data once the firmware runs. (DEDUCED: log entry 20) -/
def readReady (s : State) (r : HostRead) : Bool :=
  match r.purpose with
  | .command _ _ _ | .correctSecond _ _ | .replayFields _ _ => firmwareRuns s
  | _ => true

/-- A read's purpose goes on with its data or with the status of its failure. -/
def readDone (p : ReadFor) (r : Except Status Bytes) (s : State) : State :=
  match p with
  | .descriptor w _ => descriptorData w r s
  | .command _ o sig => (jobAt s o).elim s (fun j => commandData j sig r s)
  | .correctSecond _ o => (jobAt s o).elim s (fun j => correctSecond j r s)
  | .replayFields _ o => (jobAt s o).elim s (fun j => replayFields j r s)
  | .decodeInput d => (descAt s d).elim s (fun f => decodeInputData f r s)
  | .hevImport d => hevImportData d r s
  | .rotsumList d => rotsumData d r s
  | .rdmSource d => rdmSourceData d r s
  | .abandoned => s

/-- What a mailbox command does with the part of its data that has been read (R436). -/
def commandEarly (j : Job) : Early :=
  if j.opcode = 0x0401 then plateEarly j
  else if j.opcode = 0x0502 then weightsEarly j
  else if j.opcode = 0x0503 then draftEarly j
  else if j.opcode = 0x0703 then checkEarly j
  else if j.opcode = 0x0803 then keyEarly j
  else if j.opcode = 0x0C01 then fwEarly j
  else noEarly

/-- What a read's purpose does with the part of its data that has come: whether it has ended, and the state. -/
def readEarly (p : ReadFor) : Early := fun b s =>
  match p with
  | .command _ o _ => (jobAt s o).elim (false, s) (fun j => commandEarly j b s)
  | .correctSecond _ o => (jobAt s o).elim (false, s) (fun j => correctEarly j b s)
  | _ => (false, s)

/-- The reads of a function that wait for a tag, or for the function to be ready, are issued as far as its tags go (R293, R300).
(PRESUMED: log entry 11) -/
def issueHeld (fn : Nat) (s : State) : State :=
  (s.hif.reads.filter (fun r => r.fn == fn && !r.issued)).foldl (fun t r =>
    if fnReady t fn && tagFree t fn then
      issueRead r (modHif (fun h => { h with reads := updWhere (·.id == r.id) (fun r => { r with issued := true }) h.reads }) t)
    else t) s

/-- A read is over, and its tag is free. -/
def closeRead (r : HostRead) (s : State) : State := issueHeld r.fn (modHif (fun h => { h with reads := h.reads.filter (·.id != r.id) }) s)

/-- A read's next request goes out, or is held (R293, R300). -/
def nextRead (r : HostRead) (s : State) : State :=
  let r := { r with issued := fnReady s r.fn }
  let s := modHif (fun h => { h with reads := updWhere (·.id == r.id) (fun _ => r) h.reads }) s
  if r.issued then issueRead r s else s

/-- A read takes an answer: a failure ends it, and with its last data its purpose goes on. -/
def takeAnswer (r : HostRead) (a : Arrived) (s : State) : State :=
  match a with
  | .failed st => readDone r.purpose (.error st) (closeRead r s)
  | .data b =>
    let got := r.got ++ b
    if r.purpose == .abandoned || decide (r.len ≤ got.length) then readDone r.purpose (.ok got) (closeRead r s)
    else
      let e := readEarly r.purpose got s
      if e.1 then closeRead r e.2 else nextRead { r with got := got, arrived := none } e.2

/-- A read takes the answer that waited for the firmware. -/
def takeArrived (rid : Nat) (s : State) : State :=
  match s.hif.reads.find? (fun r => r.id == rid) with
  | some r => r.arrived.elim s (fun a => takeAnswer r a s)
  | none => s

/-- The AER bit of an answer (PCI Express: a poisoned TLP 12, a completion timeout 14); other answers have none. (PRESUMED: log entry 11) -/
def aerOf : Status → Option Nat
  | .dataPoisoned => some 12
  | .retryExceeded => some 14
  | _ => none

/-- An error in an answer is counted (R300). -/
def countHostErr (fn : Nat) (st : Status) (s : State) : State :=
  let s := modHif (fun h => { h with hostErr := sat h.hostErr, sticky := setBit h.sticky 2 }) s
  (aerOf st).elim s (fun n => setAer fn n s)

/-- A request of a read has been answered: an error is counted (R300), and the read takes the answer, or keeps it for a command whose firmware does not
run. An answer to a read that no longer stands is discarded; of an abandoned one an error alone counts. -/
def endRead (rid : Nat) (res : Nat → Arrived) (s : State) : State :=
  match s.hif.reads.find? (fun r => r.id == rid) with
  | none => s
  | some r =>
    if !r.issued || r.arrived.isSome then s
    else
      let a := res (nextPiece s r)
      let s := match a with
        | .failed st => countHostErr r.fn st s
        | .data _ => s
      if readReady s r then takeAnswer r a s
      else modHif (fun h => { h with reads := updWhere (·.id == rid) (fun r => { r with arrived := some a }) h.reads }) s

/-- HOST_READ_COMPLETION (R300, R436): Table 15-5. -/
def execHostReadCompletion (rid : Nat) (ans : HostAnswer) (s : State) : Out :=
  .next (endRead rid (fun n => match ans with
    | .data b => .data (fit n b)
    | .poisoned => .failed .dataPoisoned
    | .unsupported => .failed .accessViolation
    | .completerAbort => .failed .accessViolation) s)

/-- HOST_COMPLETION_TIMEOUT (R300). -/
def execHostCompletionTimeout (rid : Nat) (s : State) : Out := .next (endRead rid (fun _ => .failed .retryExceeded) s)

/-! ## Bus Master Enable and D3hot (R300, R302) -/

/-- A function may issue requests again: what it holds goes out in order. -/
def releaseHeld (fn : Nat) (s : State) : State :=
  if !fnReady s fn then s
  else
    let outs := (s.hif.held.filter (·.1 == fn)).map (·.2)
    issueHeld fn (outs.foldl (fun t o => send o t) (modHif (fun h => { h with held := h.held.filter (·.1 != fn) }) s))

/-- BUS_MASTER_ENABLE_SET (R302). -/
def execBusMasterEnableSet (fn : FnId) (s : State) : Out :=
  .next (if !hostReach s then s else releaseHeld fn.val (modFn fn.val (fun f => { f with bme := true }) s))

/-- BUS_MASTER_ENABLE_CLEAR (R300). -/
def execBusMasterEnableClear (fn : FnId) (s : State) : Out :=
  .next (if !hostReach s then s else modFn fn.val (fun f => { f with bme := false }) s)

/-- D3HOT_TRANSITION (R300). -/
def execD3hotTransition (fn : FnId) (enter : Bool) (s : State) : Out :=
  .next <|
    if !hostReach s then s
    else
      let t := modFn fn.val (fun f => { f with d3hot := enter }) s
      if enter then t else releaseHeld fn.val t

/-! ## Function-level reset (R301 to R303, R295) -/

/-- Configuration space returns to its reset values. (DEDUCED / PRESUMED: log entries 11, 23) -/
def resetConfig (fn : Nat) (s : State) : State := modFn fn (fun f => { f with bme := false, d3hot := false, cfg := .ofFn fn }) s

/-- The FLR of a quiesced function (R302): its rings go without completions, and the quiesce ends. A draining ring's destroy completes.
(DEDUCED: log entry 23) -/
def flrQuiesced (fn : Nat) (s : State) : State :=
  let s := dropFnReads fn s
  let s := (s.buf.wrings.filter (fun w => w.fn == fn && w.state == 4)).foldl (fun t w => freeDrained w t) s
  let s := modBuf (fun b => { b with
    wrings := b.wrings.filter (·.fn != fn), crings := b.crings.filter (·.fn != fn), descs := b.descs.filter (·.fn != fn) }) s
  let s := modHif (fun h => { h with held := h.held.filter (·.1 != fn) }) s
  modFn fn (fun f => { f with bar2 := 0, quiesced := false, lastRing := none }) s

/-- An FLR of PF1 to PF4, its configuration space reset (R302). (DEDUCED: log entry 23) -/
def flrFn (fn : Nat) (s : State) : State := if fenced s fn then s else if quiesced s fn then flrQuiesced fn s else fence fn s

/-- An FLR of PF0 (R303, R312): a command that executes runs to its end and its completion is discarded; one that waits is dropped.
(DEDUCED: log entry 23) -/
def flrPf0 (s : State) : State :=
  let box := fun (b : Mailbox) => { b with state := 0, irqEn := false, vector := 0, sticky := 0 }
  let jobs := (s.mbx.jobs.filter (fun j => j.mb == 3 || decide (1 ≤ j.phase))).map (fun j => if j.mb = 3 then j else { j with attached := false })
  let s := modMbx (fun m => { m with
    boxes := { m.boxes with a0 := box m.boxes.a0, a1 := box m.boxes.a1, a2 := box m.boxes.a2 }
    jobs := jobs, ring := none, irqOpen := false, irqPending := false }) s
  modHif (fun h => { h with held := h.held.filter (·.1 != 0) }) s

/-- In CONFIG_LOCKED or RUN a function-level reset moves the TDI to ERROR first (R306). -/
def flrGate (s : State) : State := if s.hif.tdi == .locked || s.hif.tdi == .run then tdiError s else s

/-- An FLR of functions at once: their configuration spaces are reset, so that what the fence leaves for host memory waits for Bus Master Enable
(R302), then the functions. (DEDUCED: log entries 23, 27) -/
def flr (fns : List Nat) (s : State) : State :=
  if !hostReach s then s
  else fns.foldl (fun t fn => if fn = 0 then flrPf0 t else flrFn fn t) (flrGate (fns.foldl (fun t fn => resetConfig fn t) s))

/-- FLR (R302). -/
def execFlr (fn : FnId) (s : State) : Out := .next (flr [fn.val] s)

/-- FLR_PF0 (R303). -/
def execFlrPf0 (s : State) : Out := .next (flr [0] s)

/-- HOT_RESET (R295): an FLR of all five functions at once. -/
def execHotReset (s : State) : Out := .next (flr [1, 2, 3, 4, 0] s)

/-! ## The link (R293 to R295) -/

/-- PCIE_LINK_UP (R294): a rate below 8 GT/s or a width below x4 leaves the link down; 64 GT/s is always in Flit mode (Table 15-1). -/
def execPcieLinkUp (speed : Fin 5) (width : Fin 4) (flit : Bool) (s : State) : Out :=
  .next <|
    if !hostReach s || speed.val = 0 || width.val = 0 then s
    else modHif (fun h => { h with up := true, speed := speed.val, width := width.val, flit := flit || speed.val == 4 }) s

/-- PCIE_LINK_DOWN (R295): nothing else happens. (DEDUCED: log entry 23) -/
def execPcieLinkDown (s : State) : Out :=
  .next (modHif (fun h => { h with up := false, speed := 0, width := 0, flit := false }) s)

/-! ## The debug port (R418) -/

/-- What a write to a PF0 register with a row of its own does besides its plain fields. (DEDUCED: log entry 18) -/
def pf0Extra (off width v : Nat) (s : State) : State :=
  if off = 0x2040 then standbyWrite (v % 2 ^ 32) s
  else if off = 0x3028 && bit v 0 then armFromRegister s
  else if off = 0x4000 && bit v 1 then cvuStart s
  else if off = 0x4018 then cvuData 1 (v % 256) s
  else if off = 0x401C then cvuData 2 (v % 65536) s
  else if off = 0x4020 then cvuData 4 (v % 2 ^ 32) s
  else if (off = 0x10020 || off = 0x14020 || off = 0x18020) && bit v 0 then mailboxGo ((off - 0x10000) / 0x4000) s
  else if off = 0x100000 && width = 8 && !blockDown s .mbx then eventDoorbell v s
  else s

/-- A write to PF0 BAR0 with all its effects. (DEDUCED: log entry 18) -/
def pf0Write (off width v : Nat) (s : State) : State :=
  let t := plainWrite 0 off width v s
  if rightAccess 0 off width true && !downAt s 0 off then pf0Extra off width v t else t

/-- A read of PF0 BAR0 with all its effects. -/
def pf0Read (off width : Nat) (s : State) : State :=
  match blockAt 0 off with
  | none => emit (.readData (zeros width)) (countBad s)
  | some (b, o) =>
    if blockDown s b then emit (.readData (zeros width)) s
    else if !rightWidth b o width false then emit (.readData (zeros width)) (countBad s)
    else if off = 0x4028 then cvuRead s
    else
      let s' := if off = 0x3000 then latchHi .strokeLo s else if off = 0x3030 then latchHi .lastApplyLo s
        else if off = 0x6018 then latchHi .lastSwapLo s else s
      let data := match b with
        | .mbx => windowBytes s (o / 0x4000) (o % 0x4000) width
        | .tlm => tlmBytes s o width
        | .doorEvent => zeros width
        | _ => leBytes 4 (regRead s 0 b o)
      emit (.readData data) { s' with draw := s'.draw + 0x10000 }

/-- The TAP controller after a rising edge of JTAG_TCK (IEEE 1149.1). (PRESUMED: log entry 22) -/
def tapNext (t : TapState) (tms : Bool) : TapState :=
  match t with
  | .testLogicReset => if tms then .testLogicReset else .runTestIdle
  | .runTestIdle | .updateDr | .updateIr => if tms then .selectDr else .runTestIdle
  | .selectDr => if tms then .selectIr else .captureDr
  | .captureDr | .shiftDr => if tms then .exit1Dr else .shiftDr
  | .exit1Dr => if tms then .updateDr else .pauseDr
  | .pauseDr => if tms then .exit2Dr else .pauseDr
  | .exit2Dr => if tms then .updateDr else .shiftDr
  | .selectIr => if tms then .testLogicReset else .captureIr
  | .captureIr | .shiftIr => if tms then .exit1Ir else .shiftIr
  | .exit1Ir => if tms then .updateIr else .pauseIr
  | .pauseIr => if tms then .exit2Ir else .pauseIr
  | .exit2Ir => if tms then .updateIr else .shiftIr

/-- The instruction of a code: all ones BYPASS, IDCODE, the debug access instruction while it is offered; every other code is BYPASS (R418).
(PRESUMED: log entry 22) -/
def tapInstr (s : State) (bits : List Bool) : TapInstr :=
  let v := bits.foldr (fun b n => b2n b + 2 * n) 0
  let all := 2 ^ (Config.tapBits + 2) - 1
  if v = all then .bypass
  else if v = Config.tapIdcode then .idcode
  else if v = Config.tapDebug && debugLive s then .debugAccess
  else .bypass

/-- An edge of JTAG_TCK: what the state it finds does, then the next state. A withdrawn instruction is BYPASS (R418). (PRESUMED: log entry 22) -/
def tapEdge (s : State) (t : TapUnit) (tms tdi : Bool) : TapUnit :=
  let t := if t.instr == TapInstr.debugAccess && !debugLive s then { t with instr := TapInstr.bypass } else t
  let t := match t.state with
    | .testLogicReset => { t with instr := .idcode }
    | .captureDr => { t with shift := if t.instr == TapInstr.idcode then (List.range 32).map (bit (tstReg s 0x008)) else [false] }
    | .captureIr => { t with shift := [true] ++ List.replicate (Config.tapBits + 1) false }
    | .shiftDr | .shiftIr => { t with shift := t.shift.drop 1 ++ [tdi] }
    | .updateIr => { t with instr := tapInstr s t.shift }
    | _ => t
  { t with state := tapNext t.state tms }

/-- JTAG_TDO: driven in Shift-IR and Shift-DR alone, with the low bit of the register (R418, R423). -/
def tapOut (t : TapUnit) : Option Bool := if t.state == .shiftDr || t.state == .shiftIr then t.shift.head? else none

/-- Edges of JTAG_TCK: the TAP, and what JTAG_TDO is after each. -/
def tapEdges (s : State) (edges : List (Bool × Bool)) : List (Option Bool) × TapUnit :=
  edges.foldl (fun a e => let t := tapEdge s a.2 e.1 e.2; (a.1 ++ [tapOut t], t)) ([], s.pins.tap)

/-- DEBUG_BAR0_ACCESS (R418): the debug access instruction reads or writes PF0 BAR0 under R17; beneath it the pins, whose TAP answers in every state.
(DEDUCED: log entry 22) -/
def execDebugBar0Access (port : DebugPort) (width : Nat) (write : Option (BitVec 64)) (s : State) : Out :=
  .next <|
    if !s.rst.railsOn then s
    else match port with
    | .clocks edges =>
      let r := tapEdges s edges
      emit (.jtag r.1) (modPins (fun p => { p with tap := r.2 }) s)
    | .reset => modPins (fun p => { p with tap := {} }) s
    | .bar0 off =>
      if !debugLive s then s
      else match write with
      | some v => pf0Write off width v.toNat s
      | none => pf0Read off width s

/-- DEBUG_MEMORY_ACCESS (R418): under conditions 2 and 3 of R299. (DEDUCED: log entry 22) -/
def execDebugMemoryAccess (a : AddrReads) (len : Nat) (write : Option Bytes) (s : State) : Out :=
  .next <|
    if !s.rst.railsOn || !debugLive s then s
    else match write with
    | some b => deviceWrite a.addr b a.bad s
    | none => deviceRead a.addr len a.bad s

/-- DEBUG_HALT (R418). -/
def execDebugHalt (core : Fin 4) (s : State) : Out :=
  .next (if !s.rst.railsOn || !debugLive s then s else modMbx (fun m => { m with halted := mod4 m.halted core.val (fun _ => true) }) s)

/-- DEBUG_STEP (R418): the model holds no instruction of the firmware; the step is counted. (DEDUCED: log entry 22) -/
def execDebugStep (core : Fin 4) (s : State) : Out :=
  .next <|
    if !s.rst.railsOn || !debugLive s || !get4 s.mbx.halted core.val then s
    else modMbx (fun m => { m with stepped := mod4 m.stepped core.val (· + 1) }) s

/-- The firmware goes on where it stood: commands that ended meanwhile complete, data that came are taken, and what waits for the generator is
served. (DEDUCED: log entries 20, 22) -/
def firmwareResumes (s : State) : State :=
  if firmwareRuns s then
    let s := deliverEnded s
    serveInternal ((s.hif.reads.filter (fun r => r.arrived.isSome)).foldl (fun t r => takeArrived r.id t) s)
  else s

/-- DEBUG_RESUME (R418). -/
def execDebugResume (core : Fin 4) (s : State) : Out :=
  .next <|
    if !s.rst.railsOn || !debugLive s then s
    else firmwareResumes (modMbx (fun m => { m with halted := mod4 m.halted core.val (fun _ => false) }) s)

end Sys2Proof.Machine
end

