-- ==== Sys2Proof/Machine/Lifecycle.lean ====
section
/-! DEFINITION. Lifecycle commands, the zero fill's end, key rotation and its sweep (18_tenancy_and_memory_protection.md R347 to R355,
R361 to R363, R368). -/

namespace Sys2Proof.Machine

/-! ## Lifecycle commands (R350, R351) -/

/-- The 16 bytes of a tamper log entry (Table 18-9). -/
def logEntry (e : TamperEntry) : Bytes := leBytes 1 e.source ++ leBytes 1 e.state ++ zeros 2 ++ leBytes 4 e.count ++ leBytes 8 e.stroke

/-- LIFECYCLE_GET (0x0201, Table 18-3). -/
def execLifecycleGet (mb : MbId) (s : State) : Out :=
  .next <| onNewJob mb 0x0201 s fun j =>
    if !lenIs j 8 || !allZero j.payload then answer j .badArg s
    else finish j .ok (leBytes 1 (reportedState s) ++ leBytes 1 (lifecycleCode s.life.stored) ++ zeros 2 ++ leBytes 4 s.life.ownerSeq ++
      (if s.life.ownerKey.isEmpty then zeros 64 else sha512 s.life.ownerKey) ++ leBytes 4 s.backup.total ++ zeros 4 ++
      fit 256 (s.backup.log.flatMap logEntry)) s

/-- The owned state that a mode byte names. -/
def modeState (m : Nat) : Option Lifecycle := if m = 3 then some .ownedOpen else if m = 4 then some .ownedConfidential else none

/-- An accepted command: the sequence number is consumed, and the tenant is removed (R351, R354). (DEDUCED: log entry 28) -/
def changeState (j : Job) (target : Lifecycle) (seq : Nat) (owner : Bytes) (clearOvl : Bool) (s : State) : State :=
  let r : Removal := { mb := j.mb, order := j.order, target := target, clearOvl := clearOvl, fromCode := reportedState s, owner := owner }
  removeTenant r (modLife (fun l => { l with ownerSeq := seq }) (waitJob j 0 s))

/-- The next sequence number. -/
def nextSeq (s : State) : Nat := (s.life.ownerSeq + 1) % 2 ^ 32

/-- The checks of the signed commands of 4,635 bytes after step 1 (R351 steps 2 to 4): the transition, the signature, the number. -/
def signedCheck (s : State) (j : Job) (op : Nat) (sigOk : Bool) : Option Status :=
  firstFail [
    (!stateAccepts (reportedState s) op, .notPermitted),
    (!sigOk, .signatureInvalid),
    (arg j 4 4 != s.life.ownerSeq, .staleKey)]

/-- OWNER_CLAIM (0x0202, R351). -/
def execOwnerClaim (mb : MbId) (sigOk : Bool) (s : State) : Out :=
  .next <| onNewJob mb 0x0202 s fun j =>
    match modeState (arg j 0 1) with
    | none => answer j .badArg s
    | some m =>
      if !lenIs j 7227 || !zeroAt j.payload 1 7 then answer j .badArg s
      else match firstFail [(!stateAccepts (reportedState s) 0x0202, .notPermitted), (!sigOk, .signatureInvalid)] with
      | some st => answer j st s
      | none => changeState j m 0 (slice j.payload 8 2592) false s

/-- MODE_SET (0x0203, R351). -/
def execModeSet (mb : MbId) (sigOk : Bool) (s : State) : Out :=
  .next <| onNewJob mb 0x0203 s fun j =>
    match modeState (arg j 0 1) with
    | none => answer j .badArg s
    | some m =>
      if !lenIs j 4635 || !zeroAt j.payload 1 3 || lifecycleCode m == reportedState s then answer j .badArg s
      else match signedCheck s j 0x0203 sigOk with
      | some st => answer j st s
      | none => changeState j m (nextSeq s) [] false s

/-- OWNER_RELEASE (0x0204, R351). -/
def execOwnerRelease (mb : MbId) (sigOk : Bool) (s : State) : Out :=
  .next <| onNewJob mb 0x0204 s fun j =>
    if !lenIs j 4635 || !zeroAt j.payload 0 4 then answer j .badArg s
    else match signedCheck s j 0x0204 sigOk with
    | some st => answer j st s
    | none => changeState j .provisioned (nextSeq s) [] false s

/-- RETIRE (0x0205, R349, R351): it clears the overlay with the change of state. (DEDUCED: log entry 30) -/
def execRetire (mb : MbId) (sigOk : Bool) (s : State) : Out :=
  .next <| onNewJob mb 0x0205 s fun j =>
    if !lenIs j 4635 || !zeroAt j.payload 0 4 then answer j .badArg s
    else match signedCheck s j 0x0205 sigOk with
    | some st => answer j st s
    | none => changeState j .retired (nextSeq s) [] s.life.overlay s

/-- TAMPER_UNLOCK (0x0206, R351, R368): the sensors are looked at, the overlay is cleared, then the tenant is removed. (DEDUCED: log entry 30) -/
def execTamperUnlock (m : MbSensors) (sigOk : Bool) (s : State) : Out :=
  .next <| onNewJob m.mb 0x0206 s fun j =>
    let s := modLife (fun l => { l with inAlarm := m.inAlarm }) s
    if !lenIs j 4635 || !zeroAt j.payload 0 4 then answer j .badArg s
    else match signedCheck s j 0x0206 sigOk with
    | some st => answer j st s
    | none =>
      if !s.life.resetSince || !s.life.inAlarm.isEmpty then answer j .tamperLocked s
      else
        let r : Removal := { mb := j.mb, order := j.order, target := s.life.stored, clearOvl := true, fromCode := 6, owner := [] }
        removeTenant r (modLife (fun l => { l with ownerSeq := nextSeq s, overlay := false }) (waitJob j 0 s))

/-! ## The zero fill and HBM training (R353, R393) -/

/-- HBM_TRAINING_DONE (R393): key A is generated and the fill begins, once the generator serves. -/
def execHbmTrainingDone (s : State) : Out :=
  .next (if !securityUp s || s.mpr.trained then s else startFill (modMpr (fun m => { m with trained := true }) s))

/-- HBM_ZERO_FILL_DONE (R353): every line reads 0; a removal that waits for it ends (R354). -/
def execHbmZeroFillDone (s : State) : Out :=
  .next <|
    if !s.mpr.wiping then s
    else
      let s := writePages 0 (hbmSize s / 4096) 0 63 (modMpr (fun m => { m with wiping := false, filled := true, pages := [] }) s)
      let s := modMem (fun m => { m with cells := m.cells.filter (fun c => decide (sramBase ≤ c.1)), poison := [] }) s
      match s.life.removal with
      | some r => endRemoval r s
      | none => s

/-! ## Key rotation (R362, R363) -/

/-- HBM_KEY_ROTATE (0x0309, R362): it waits for the generator, and ENTROPY_WAIT_TIMEOUT ends the wait. (DEDUCED: log entry 39) -/
def execHbmKeyRotate (mb : MbId) (s : State) : Out :=
  .next (onJob mb 0x0309 s (fun j => keyRotate j s))

/-- HBM_SWEEP_DONE (R362). (DEDUCED: log entry 39) -/
def execHbmSweepDone (s : State) : Out :=
  .next <|
    if !s.mpr.sweep then s
    else
      let old := if s.mpr.activeB then 2 else 3
      let s := modMpr (fun m => { m with sweep := false, sweepPct := 100, pages := m.pages.map (toSlot m.activeB) }) s
      postEvent 0x0301 0 old 0 (clearSlots (fun n => n == old) s)

end Sys2Proof.Machine
end

