-- ==== Sys2Proof/Machine/SelfTest.lean ====
section
/-! DEFINITION. Module status and self-tests (22_test_and_telemetry.md R409 to R413, R417). -/

namespace Sys2Proof.Machine

/-! ## Module status -/

/-- Bit f is set for each function of which `p` holds. -/
def fnBits (s : State) (p : FnState → Bool) : Nat := sumNat ((List.range 5).map (fun i => if p (get5 s.hif.fns i) then 2 ^ i else 0))

/-- MODULE_STATUS (0x0102, Table 22-6). -/
def execModuleStatus (mb : MbId) (s : State) : Out :=
  .next <| onNewJob mb 0x0102 s fun j =>
    if !lenIs j 8 || !allZero j.payload then answer j .badArg s
    else finish j .ok (leBytes 1 (reportedState s) ++ leBytes 1 (lifecycleCode s.life.stored) ++ leBytes 2 s.partId.toNat ++ leBytes 4 (cpStatus s) ++
      leBytes 8 s.prs.stroke ++ leBytes 1 (fnBits s (·.fenced)) ++ leBytes 1 (fnBits s (·.quiesced)) ++ leBytes 1 (b2n s.dec.isSome) ++
      leBytes 1 s.ptn.rounds.length ++ leBytes 1 s.hev.ctxs.length ++ leBytes 1 (s.ring.elim 0 (·.state)) ++ leBytes 2 s.tst.last ++
      (list5 s.clk.temps).flatMap (fun t => leBytes 1 (byteOfInt t.tj)) ++ [0] ++ leBytes 2 (powerReading s)) s

/-! ## Self-tests -/

/-- Work or an enabled port stands in the way of a test of blocks or of the pool (R412). -/
def blocksBusy (s : State) : Bool :=
  s.dec.isSome || !s.ptn.rounds.isEmpty || !s.hev.ctxs.isEmpty || s.ring.isSome || !s.rdm.conns.isEmpty || !s.buf.wrings.isEmpty ||
    (list5 s.ports).any (fun p => p.mode != 0)

/-- What a test names is in use (R412). -/
def testBlocked (s : State) (sheets : BitVec 32) (blocks : Nat) : Bool :=
  !disjoint sheets (sheetBusy s) || (blocks != 0 && blocksBusy s)

/-- A command of families 0x04 to 0x0A that has begun and is not over. -/
def workJob (j : Job) : Bool := decide (1 ≤ j.phase ∧ j.phase ≤ 2) && decide (0x04 ≤ j.opcode / 256 ∧ j.opcode / 256 ≤ 0x0A)

/-- A test takes hold of what it tests until SELF_TEST_DONE. A test of blocks ends with BUSY the commands of families 0x04 to 0x0A that run
(R412). (DEDUCED: log entry 40) -/
def startTest (j : Job) (kind : Nat) (sheets : BitVec 32) (blocks : Nat) (s : State) : State :=
  let s := if blocks = 0 then s else dropJobReads (endJobs workJob .busy s)
  waitJob j kind (modTst (fun t => { t with running := some (kind, sheets, blocks) }) s)

/-- The test key of the platen's mask generators enters slot 5 (Table 17-2, R377). (DEDUCED: log entry 36) -/
def seedMasks (s : State) : State :=
  let r := drbgTake 32 s
  fillSlot { slot := 5, type := 3, origin := 1, mask := 0x100, nonExport := true, secret := r.1, pub := [], bound := [] } r.2

/-- BIST_LOGIC (0x0B01, R410, R412): block mask bits 0 to 5 (Table 22-2). A test of the platen takes a seed of the generator, and waits for it
(R377). -/
def execBistLogic (mb : MbId) (s : State) : Out :=
  .next <| onJob mb 0x0B01 s fun j =>
    let sheets := BitVec.ofNat 32 (arg j 0 4)
    if j.phase = 2 && s.tst.running.isSome then s
    else if !lenIs j 8 || arg j 6 2 != 0 || decide (64 ≤ arg j 4 2) then answer j .badArg s
    else if testBlocked s sheets (arg j 4 2) then answer j .notIdle s
    else if !bit (arg j 4 2) 3 then startTest j 1 sheets (arg j 4 2) s
    else if !drbgGrants 1 4 s then waitJob j 0 s
    else startTest j 1 sheets (arg j 4 2) (seedMasks s)

/-- BIST_MEMORY (0x0B02, R411, R412). -/
def execBistMemory (mb : MbId) (s : State) : Out :=
  .next <| onNewJob mb 0x0B02 s fun j =>
    let sheets := BitVec.ofNat 32 (arg j 0 4)
    if !lenIs j 8 || !zeroAt j.payload 5 3 || decide (1 < arg j 4 1) then answer j .badArg s
    else if testBlocked s sheets (arg j 4 1) then answer j .notIdle s
    else startTest j 2 sheets (arg j 4 1) s

/-- HBM_PATTERN_TEST (0x0B03, R413). -/
def execHbmPatternTest (mb : MbId) (s : State) : Out :=
  .next <| onNewJob mb 0x0B03 s fun j =>
    let a := arg j 0 8
    let n := arg j 8 8
    let p := arg j 16 1
    if !lenIs j 24 || !zeroAt j.payload 17 7 || a % 4096 != 0 || n % 4096 != 0 || decide (p < 1) || decide (3 < p) then answer j .badArg s
    else if !inHbm s a n || heldRange s a n then answer j .accessViolation s
    else startTest j 3 0 0 s

/-- The units of a logic test in the completion's order: gravers, then domains of blocks (R410, Table 22-2). -/
def logicUnits (sheets : BitVec 32) (blocks : Nat) : List Nat :=
  (sheetsOf sheets).flatMap graversOf ++ ((List.range 6).filter (fun i => bit blocks i)).map (fun i => if i = 0 then 541 else 544 + i)

/-- A failed test is counted, once for each failing unit. -/
def countFailures (n : Nat) (s : State) : State :=
  if n = 0 then s else modTst (fun t => { t with sticky := setBit t.sticky 0, failCnt := satAdd 32 t.failCnt n }) s

/-- The status of a test that found `n` failures. -/
def testStatus (n : Nat) : Status := if n = 0 then .ok else .bistMismatch

/-- The signatures of a completion. -/
def sigBytes (sigs : List (BitVec 64)) : Bytes := sigs.flatMap (bvBytes 8)

/-- The signatures that differ from the expected ones. -/
def mismatches (sigs want : List (BitVec 64)) : Nat := ((sigs.zip want).filter (fun x => x.1 != x.2)).length

/-- The configuration buffers of the gravers of a mask are cleared (R410). -/
def clearBuffers (m : BitVec 32) (s : State) : State :=
  let clear := fun (v : BitVec 512) => (sheetsOf m).foldl (fun v sh => (graversOf sh).foldl clearBit v) v
  modPla (fun p => { p with activeBuf := clear p.activeBuf, shadowVld := clear p.shadowVld }) s

/-- The pool's words are 0 with good parity (R411). -/
def wipePool (s : State) : State :=
  modMem (fun m => { m with cells := m.cells.filter (fun c => decide (c.1 < poolBase)), parity := m.parity.filter (fun w => decide (w * 8 < poolBase)) }) s

/-- The range of a pattern test has been written with the pattern and with zeros, and reads 0 (R413). (DEDUCED: log entry 40) -/
def clearRange (a n : Nat) (s : State) : State :=
  let s := writeLines a n (writeLines a n s)
  modMem (fun m => { m with cells := cellWipe m.cells a n, poison := m.poison.filter (fun l => !overlaps a n (l * 64) 64) }) s

/-- BIST_LOGIC ends. -/
def logicDone (j : Job) (sheets : BitVec 32) (blocks : Nat) (sigs : List (BitVec 64)) (s : State) : State :=
  let bad := mismatches sigs ((logicUnits sheets blocks).map (Config.misrLogic Config.stepping))
  finish j (testStatus bad) (leBytes 1 Config.stepping.toNat ++ [0] ++ leBytes 2 bad ++ zeros 4 ++ sigBytes sigs)
    (wipeSheets sheets (clearBuffers sheets (countFailures bad s)))

/-- BIST_MEMORY ends. -/
def memoryDone (j : Job) (sheets : BitVec 32) (pool : Nat) (sigs : List (BitVec 64)) (s : State) : State :=
  let want := (banksOf sheets).map (fun _ => Config.misrMemory 0) ++ (if pool = 1 then [Config.misrMemory 1] else [])
  let bad := mismatches sigs want
  let s := wipeSheets sheets (countFailures bad s)
  finish j (testStatus bad) (leBytes 2 bad ++ zeros 6 ++ sigBytes sigs) (if pool = 1 then wipePool s else s)

/-- The address at which a pattern test's read-back is in error: other data, a line MAC, or a tree that fails twice. -/
def errAt : PatternErr → Option Nat
  | .differs a => some a
  | .fails (.check a) => some a
  | .fails (.treeOnce _) => none
  | .fails (.treeTwice a) => some a

/-- What of it the integrity logic finds. -/
def memFail : PatternErr → Option MemFail
  | .differs _ => none
  | .fails f => some f

/-- HBM_PATTERN_TEST ends: `found` is what the read-back finds, its errors rising; each counts for the stack that holds it (R58), and the integrity
logic counts its own (R360). The first failing
address is a free value where none fails (notes/assumptions 3). (DEDUCED: log entry 40) -/
def patternDone (j : Job) (found : List PatternErr) (s : State) : State :=
  let errs := found.filterMap errAt
  let s := failReads (found.filterMap memFail) (arg j 0 8) (arg j 8 8) s
  let perStack := (List.range 12).map (fun k => (errs.filter (fun a => hbmStack s a == k)).length)
  let first := match errs with
    | [] => drawNat s
    | a :: _ => (a, s)
  finish j (testStatus errs.length) (leBytes 8 errs.length ++ leBytes 8 first.1 ++ perStack.flatMap (leBytes 4))
    (clearRange (arg j 0 8) (arg j 8 8) (countFailures (perStack.filter (· != 0)).length first.2))

/-- The operands of SELF_TEST_DONE are what the running test yields: a signature for each unit or bank, or the addresses of the errors in the
tested range. (DEDUCED: log entry 40) -/
def testFits (j : Job) (kind : Nat) (sheets : BitVec 32) (blocks : Nat) (sigs : List (BitVec 64)) (found : List PatternErr) : Bool :=
  if kind = 1 then sigs.length == (logicUnits sheets blocks).length
  else if kind = 2 then sigs.length == (banksOf sheets).length + blocks
  else
    let errs := found.filterMap errAt
    rising errs && errs.all (fun a => decide (arg j 0 8 ≤ a ∧ a < arg j 0 8 + arg j 8 8))

/-- SELF_TEST_DONE (R410 to R413). -/
def execSelfTestDone (mb : MbId) (sigs : List (BitVec 64)) (errs : List PatternErr) (s : State) : Out :=
  .next <|
    match s.tst.running, s.mbx.jobs.find? (fun j => j.mb == mb.val && j.phase == 2 && decide (0x0B01 ≤ j.opcode ∧ j.opcode ≤ 0x0B03)) with
    | some (kind, sheets, blocks), some j =>
      if !firmwareRuns s || !testFits j kind sheets blocks sigs errs then s
      else
        let s := modTst (fun t => { t with running := none }) s
        if kind = 1 then logicDone j sheets blocks sigs s
        else if kind = 2 then memoryDone j sheets blocks sigs s
        else patternDone j errs s
    | _, _ => s

end Sys2Proof.Machine
end

