-- ==== Sys2Proof/Machine/Spdm.lean ====
section
/-! DEFINITION. Confidential attachment: the SPDM responder over DOE, IDE key management and the TDI
(15_host_interface.md R304 to R306; 17_keys_and_attestation.md R330, R331, R342). Errors carry the name of their code. -/

namespace Sys2Proof.Machine

/-! ## SPDM (R304) -/

/-- An SPDM or TDISP error, by the name of its code. (PRESUMED: log entry 24) -/
def spdmError (code : String) (s : State) : State := emit (.spdm code false []) s

/-- A message body that the SPDM standard fixes beyond this spec (notes/assumptions 1). -/
def spdmBody (name : String) (s : State) : Bytes × State := (Config.spdmBody name s.draw, { s with draw := s.draw + 1 })

/-- An answer whose body the standard fixes. -/
def spdmAnswer (name : String) (s : State) : State := let b := spdmBody name s; emit (.spdm name true b.1) b.2

/-- A request before its turn. (PRESUMED: log entry 24) -/
def spdmAt (phase : Nat) (s : State) (f : State → State) : State :=
  if !securityUp s then s else if s.hif.spdmPhase < phase then spdmError "UnexpectedRequest" s else f s

/-- A request that needs the attestation key (R330): ResponseNotReady until it exists, ResetRequired between a tamper zeroisation and the next boot.
(PRESUMED: log entry 24) -/
def withAttest (s : State) (f : KeySlot → State → State) : State :=
  match slotAt s 1 with
  | some k => f k s
  | none => spdmError (if identityGone s then "ResetRequired" else "ResponseNotReady") s

/-- A request whose answer takes `n` requests of the generator, the signature's among them (R377): ResponseNotReady while it does not serve them.
(PRESUMED: log entry 24) -/
def withSign (n : Nat) (s : State) (f : KeySlot → State → State) : State :=
  withAttest s fun k s => if drbgGrants n 3 s then f k s else spdmError "ResponseNotReady" s

/-- An answer of a body signed with the attestation key. -/
def spdmSigned (name : String) (body : Bytes) (k : KeySlot) (s : State) : State :=
  let r := signWith k body s
  emit (.spdm name true (body ++ r.1)) r.2

/-- GET_VERSION (R304): the connection starts again. -/
def execGetVersion (s : State) : Out :=
  .next (spdmAt 0 s fun s => spdmAnswer "VERSION" (modHif (fun h => { h with spdmPhase := 1, spdmSig := false, spdmKem := false }) s))

/-- GET_CAPABILITIES (R304). -/
def execGetCapabilities (s : State) : Out :=
  .next (spdmAt 1 s fun s => spdmAnswer "CAPABILITIES" (modHif (fun h => { h with spdmPhase := max 2 h.spdmPhase }) s))

/-- NEGOTIATE_ALGORITHMS (R304): the module's algorithms, or UnsupportedRequest to a requester that offers none of them. -/
def execNegotiateAlgorithms (offersMlDsa offersMlKem : Bool) (s : State) : Out :=
  .next (spdmAt 2 s fun s =>
    if !offersMlDsa && !offersMlKem then spdmError "UnsupportedRequest" s
    else spdmAnswer "ALGORITHMS" (modHif (fun h => { h with spdmPhase := 3, spdmSig := offersMlDsa, spdmKem := offersMlKem }) s))

/-- GET_DIGESTS (R304): the digest of the certificate chain. -/
def execGetDigests (s : State) : Out :=
  .next (spdmAt 3 s fun s => withAttest s fun _ s => emit (.spdm "DIGESTS" true (sha512 s.kst.chain)) s)

/-- GET_CERTIFICATE (R331): the bytes of CERT_CHAIN_GET. -/
def execGetCertificate (off len : Nat) (s : State) : Out :=
  .next (spdmAt 3 s fun s => withAttest s fun _ s =>
    if s.kst.chain.length ≤ off then spdmError "InvalidRequest" s
    else emit (.spdm "CERTIFICATE" true (slice s.kst.chain off (min len (s.kst.chain.length - off)))) s)

/-- CHALLENGE (R304): a signed response. -/
def execChallenge (nonce : Bytes) (s : State) : Out :=
  .next (spdmAt 3 s fun s =>
    if !s.hif.spdmSig then spdmError "UnsupportedRequest" s
    else withSign 1 s fun k s => let b := spdmBody "CHALLENGE_AUTH" s; spdmSigned "CHALLENGE_AUTH" (b.1 ++ nonce) k b.2)

/-- A measurement block in the DMTF format: index, specification 1, size, then value type with bit 7 for a raw value, value size, value (R342).
(PRESUMED: log entry 24) -/
def measurementBlock (i : Nat) (raw : Bool) (v : Bytes) : Bytes :=
  leBytes 1 i ++ [1] ++ leBytes 2 (3 + v.length) ++ leBytes 1 (128 * b2n raw + (Config.measurementType i).toNat) ++ leBytes 2 v.length ++ v

/-- The measurement blocks of Table 17-8: their number, the length of the record, the record. (PRESUMED: log entry 24) -/
def measurements (nonce : Bytes) (s : State) : Bytes :=
  let r := measurementBlock 1 false (fit 64 s.ctrlFw.runDig) ++ measurementBlock 2 false (fit 64 s.secFw.runDig) ++
    measurementBlock 3 true (leBytes 1 (reportedState s) ++ leBytes 1 (reportFlags s) ++ leBytes 1 s.ctrlFw.counter ++
      leBytes 1 s.secFw.counter ++ leBytes 2 1) ++
    measurementBlock 4 false (s.weights.elim (zeros 64) (·.digest)) ++
    measurementBlock 5 false (sha512 (digestTable (s.pla.store.map (·.digest)))) ++ measurementBlock 6 false (sha512 (reportBody s nonce))
  [6] ++ leBytes 3 r.length ++ r

/-- GET_MEASUREMENTS (R342): the blocks, signed with the attestation key. -/
def execGetMeasurements (nonce : Bytes) (s : State) : Out :=
  .next (spdmAt 3 s fun s =>
    if !s.hif.spdmSig then spdmError "UnsupportedRequest" s
    else withSign 1 s fun k s => spdmSigned "MEASUREMENTS" (measurements nonce s ++ nonce) k s)

/-- KEY_EXCHANGE (R304): a session begins with the shared secret that ML-KEM-1024 encapsulates to the requester's key; one at a time.
(PRESUMED: log entry 24) -/
def execKeyExchange (encapKey : Bytes) (s : State) : Out :=
  .next (spdmAt 3 s fun s =>
    if !s.hif.spdmKem || !s.hif.spdmSig then spdmError "UnsupportedRequest" s
    else if s.hif.session != 0 then spdmError "SessionLimitExceeded" s
    else withSign 2 s fun k s =>
      let r := drbgTake 32 s
      spdmSigned "KEY_EXCHANGE_RSP" (bvBytes 1568 (Config.mlkemEncapCt encapKey r.1)) k
        (modHif (fun h => { h with session := 1, sessKeys := 0 }) r.2))

/-- FINISH (R304). -/
def execFinish (verifyOk : Bool) (s : State) : Out :=
  .next (spdmAt 3 s fun s =>
    if s.hif.session != 1 then spdmError "UnexpectedRequest" s
    else if verifyOk then spdmAnswer "FINISH_RSP" (modHif (fun h => { h with session := 2 }) s)
    else spdmError "DecryptError" (modHif (fun h => { h with session := 0 }) s))

/-- A message of an established session. (PRESUMED: log entry 24) -/
def inSession (s : State) (f : State → State) : State :=
  if !securityUp s then s else if s.hif.session != 2 then spdmError "InvalidSession" s else f s

/-- END_SESSION (R304). -/
def execEndSession (s : State) : Out :=
  .next (inSession s fun s => spdmAnswer "END_SESSION_ACK" (modHif (fun h => { h with session := 0, sessKeys := 0 }) s))

/-- KEY_UPDATE (R304): the session moves to its next keys. -/
def execKeyUpdate (s : State) : Out :=
  .next (inSession s fun s => spdmAnswer "KEY_UPDATE_ACK" (modHif (fun h => { h with sessKeys := h.sessKeys + 1 }) s))

/-- HEARTBEAT (R304). -/
def execHeartbeat (s : State) : Out := .next (inSession s (spdmAnswer "HEARTBEAT_ACK"))

/-! ## IDE (R305) -/

/-- Change a stream: 0 link, 1 selective. -/
def modStream (i : Nat) (f : IdeStream → IdeStream) (s : State) : State :=
  modHif (fun h => if i = 0 then { h with linkIde := f h.linkIde } else { h with selIde := f h.selIde }) s

/-- A stream. -/
def streamOf (s : State) (i : Nat) : IdeStream := if i = 0 then s.hif.linkIde else s.hif.selIde

/-- The slot of an IDE key (Table 17-2): streams, key sets, directions and sub-streams in that order. (DEDUCED: log entry 25) -/
def ideSlot (stream set dir sub : Nat) : Nat := 40 + stream * 12 + set * 6 + dir * 3 + sub

/-- IDE_KM KEY_PROG (R305), inside a secured session: the key enters its slot. -/
def execIdeKmKeyProg (stream : Fin 2) (keySet : Fin 2) (dir : Fin 2) (sub : Fin 3) (key : Bytes) (s : State) : Out :=
  .next (inSession s fun s =>
    let k : KeySlot := { slot := ideSlot stream.val keySet.val dir.val sub.val, type := 3, origin := 2, mask := 8, nonExport := false
                         secret := key, pub := [], bound := [] }
    let t := (keySet.val, dir.val, sub.val)
    spdmAnswer "KP_ACK" (modStream stream.val (fun x => { x with keys := if x.keys.contains t then x.keys else x.keys ++ [t] }) (fillSlot k s)))

/-- Every key of a key set is programmed: two directions of three sub-streams. (DEDUCED: log entry 25) -/
def setComplete (x : IdeStream) (set : Nat) : Bool := (x.keys.filter (fun k => k.1 == set)).length == 6

/-- The key set that K_SET_GO takes into use: the other one of a secure stream, the lowest complete one of an insecure one. (DEDUCED: log entry 25) -/
def nextSet (x : IdeStream) : Option Nat :=
  (if x.secure then [1 - x.keySet] else [0, 1]).find? (setComplete x)

/-- IDE_KM K_SET_GO (R305). (DEDUCED: log entry 25) -/
def execKSetGo (stream : Fin 2) (s : State) : Out :=
  .next (inSession s fun s =>
    match nextSet (streamOf s stream.val) with
    | some n => spdmAnswer "K_GOSTOP_ACK" (modStream stream.val (fun x => { x with secure := true, keySet := n }) s)
    | none => spdmError "InvalidRequest" s)

/-- IDE_INTEGRITY_FAIL (R305, R306): the stream leaves the secure state, and the TDI enters ERROR. (DEDUCED: log entry 25) -/
def execIdeIntegrityFail (stream : Fin 2) (s : State) : Out :=
  .next <|
    if !(streamOf s stream.val).secure then s
    else tdiError (modHif (fun h => { h with sticky := setBit h.sticky 3 }) (modStream stream.val (fun x => { x with secure := false }) s))

/-! ## TDISP (R306) -/

/-- A TDISP request names PF0's interface, or receives INVALID_INTERFACE. (PRESUMED: log entry 24) -/
def tdisp (fn : FnId) (s : State) (f : State → State) : State :=
  if !securityUp s then s else if fn.val != 0 then spdmError "INVALID_INTERFACE" s else f s

/-- LOCK_INTERFACE_REQUEST: accepted only in OWNED_CONFIDENTIAL, with the selective stream secure and no function fenced. -/
def execLockInterfaceRequest (fn : FnId) (s : State) : Out :=
  .next (tdisp fn s fun s =>
    if s.hif.tdi != .unlocked || !ownedConfidential s || !s.hif.selIde.secure || (list5 s.hif.fns).any (·.fenced) then
      spdmError "INVALID_INTERFACE_STATE" s
    else spdmAnswer "LOCK_INTERFACE_RESPONSE" (modHif (fun h => { h with tdi := .locked }) s))

/-- START_INTERFACE_REQUEST. -/
def execStartInterfaceRequest (fn : FnId) (s : State) : Out :=
  .next (tdisp fn s fun s =>
    if s.hif.tdi != .locked then spdmError "INVALID_INTERFACE_STATE" s
    else spdmAnswer "START_INTERFACE_RESPONSE" (modHif (fun h => { h with tdi := .run }) s))

/-- STOP_INTERFACE_REQUEST, from any state; the fences remain. (DEDUCED: log entry 26) -/
def execStopInterfaceRequest (fn : FnId) (s : State) : Out :=
  .next (tdisp fn s fun s => spdmAnswer "STOP_INTERFACE_RESPONSE" (modHif (fun h => { h with tdi := .unlocked }) s))

/-- The interface report: BAR0 of every function is a range of 4,096 pages of 4 KiB from the address in its BAR register, its number as the range's
identifier; BAR2 of none is listed (Table 15-7). Interface flags, message control and device information are 0. (PRESUMED: log entry 24) -/
def interfaceReport (s : State) : Bytes :=
  zeros 12 ++ leBytes 4 5 ++ (List.range 5).flatMap (fun i =>
    leBytes 8 ((get5 s.hif.fns i).cfg.bar0.toNat / 2 ^ 12) ++ leBytes 4 4096 ++ leBytes 4 (i * 2 ^ 16)) ++ zeros 4

/-- GET_DEVICE_INTERFACE_REPORT: in CONFIG_LOCKED and RUN; the report lists every BAR0, and BAR2 as absent. -/
def execGetDeviceInterfaceReport (fn : FnId) (s : State) : Out :=
  .next (tdisp fn s fun s =>
    if s.hif.tdi == .locked || s.hif.tdi == .run then emit (.spdm "DEVICE_INTERFACE_REPORT" true (interfaceReport s)) s
    else spdmError "INVALID_INTERFACE_STATE" s)

end Sys2Proof.Machine
end

