-- ==== Sys2Proof/Machine/Dispatch.lean ====
section
/-! DEFINITION. The dispatcher: one arm for each constructor of Instr, each one direct call of its meaning. -/

namespace Sys2Proof.Machine

def exec (i : Instr) (s : State) : Host.Outcome State Fault Refusal :=
  match i with
  | .registerWrite fn secure off width v => Sys2Proof.Machine.execRegisterWrite fn secure off width v s
  | .badRegisterAccess fn secure off width isWrite => Sys2Proof.Machine.execBadRegisterAccess fn secure off width isWrite s
  | .loRegisterRead secure r => Sys2Proof.Machine.execLoRegisterRead secure r s
  | .snapCtrlArm secure => Sys2Proof.Machine.execSnapCtrlArm secure s
  | .mailboxGo mb secure => Sys2Proof.Machine.execMailboxGo mb secure s
  | .commandDispatch mb => Sys2Proof.Machine.execCommandDispatch mb s
  | .smbusBlockWrite off data pecOk => Sys2Proof.Machine.execSmbusBlockWrite off data pecOk s
  | .smbusProcessCall off count pecOk => Sys2Proof.Machine.execSmbusProcessCall off count pecOk s
  | .identityGet mb => Sys2Proof.Machine.execIdentityGet mb s
  | .moduleStatus mb => Sys2Proof.Machine.execModuleStatus mb s
  | .eventRingSet mb => Sys2Proof.Machine.execEventRingSet mb s
  | .eventRingClear mb => Sys2Proof.Machine.execEventRingClear mb s
  | .lifecycleGet mb => Sys2Proof.Machine.execLifecycleGet mb s
  | .ownerClaim mb sigOk => Sys2Proof.Machine.execOwnerClaim mb sigOk s
  | .modeSet mb sigOk => Sys2Proof.Machine.execModeSet mb sigOk s
  | .ownerRelease mb sigOk => Sys2Proof.Machine.execOwnerRelease mb sigOk s
  | .retire mb sigOk => Sys2Proof.Machine.execRetire mb sigOk s
  | .tamperUnlock mb sigOk => Sys2Proof.Machine.execTamperUnlock mb sigOk s
  | .keyGenerate mb => Sys2Proof.Machine.execKeyGenerate mb s
  | .keyImportWrapped mb => Sys2Proof.Machine.execKeyImportWrapped mb s
  | .keyDestroy mb => Sys2Proof.Machine.execKeyDestroy mb s
  | .keySlotStatus mb => Sys2Proof.Machine.execKeySlotStatus mb s
  | .keyOriginStatement mb => Sys2Proof.Machine.execKeyOriginStatement mb s
  | .attestReport mb => Sys2Proof.Machine.execAttestReport mb s
  | .certChainGet mb => Sys2Proof.Machine.execCertChainGet mb s
  | .plateKeyEnroll mb sigOk => Sys2Proof.Machine.execPlateKeyEnroll mb sigOk s
  | .hbmKeyRotate mb => Sys2Proof.Machine.execHbmKeyRotate mb s
  | .randomGet mb => Sys2Proof.Machine.execRandomGet mb s
  | .randomGetTimeout mb => Sys2Proof.Machine.execRandomGetTimeout mb s
  | .plateStage mb sigOk => Sys2Proof.Machine.execPlateStage mb sigOk s
  | .plateBind mb => Sys2Proof.Machine.execPlateBind mb s
  | .plateUnstage mb => Sys2Proof.Machine.execPlateUnstage mb s
  | .fabricStatus mb => Sys2Proof.Machine.execFabricStatus mb s
  | .decodeOpen mb => Sys2Proof.Machine.execDecodeOpen mb s
  | .weightsLoad mb => Sys2Proof.Machine.execWeightsLoad mb s
  | .draftLoad mb => Sys2Proof.Machine.execDraftLoad mb s
  | .weightsUnload mb => Sys2Proof.Machine.execWeightsUnload mb s
  | .decodeFinish mb => Sys2Proof.Machine.execDecodeFinish mb s
  | .decodeClose mb => Sys2Proof.Machine.execDecodeClose mb s
  | .decodeStatus mb => Sys2Proof.Machine.execDecodeStatus mb s
  | .replayVerify mb sigOk => Sys2Proof.Machine.execReplayVerify mb sigOk s
  | .ringForm mb => Sys2Proof.Machine.execRingForm mb s
  | .ringFormTimeout mb => Sys2Proof.Machine.execRingFormTimeout mb s
  | .ringStatus mb => Sys2Proof.Machine.execRingStatus mb s
  | .ringDissolve mb => Sys2Proof.Machine.execRingDissolve mb s
  | .ringSpareJoin mb => Sys2Proof.Machine.execRingSpareJoin mb s
  | .ringAdmit mb => Sys2Proof.Machine.execRingAdmit mb s
  | .roundOpen mb => Sys2Proof.Machine.execRoundOpen mb s
  | .roundClose mb => Sys2Proof.Machine.execRoundClose mb s
  | .roundCorrect m => Sys2Proof.Machine.execRoundCorrect m s
  | .roundRelease mb => Sys2Proof.Machine.execRoundRelease mb s
  | .roundAbort mb => Sys2Proof.Machine.execRoundAbort mb s
  | .roundStatus mb => Sys2Proof.Machine.execRoundStatus mb s
  | .roundCounts mb => Sys2Proof.Machine.execRoundCounts mb s
  | .roundBitmap mb => Sys2Proof.Machine.execRoundBitmap mb s
  | .hevCtxOpen mb => Sys2Proof.Machine.execHevCtxOpen mb s
  | .hevCtxClose mb => Sys2Proof.Machine.execHevCtxClose mb s
  | .hevKeyLoad mb => Sys2Proof.Machine.execHevKeyLoad mb s
  | .hevKeyDrop mb => Sys2Proof.Machine.execHevKeyDrop mb s
  | .hevCtxStatus mb => Sys2Proof.Machine.execHevCtxStatus mb s
  | .hevBurnishSet mb => Sys2Proof.Machine.execHevBurnishSet mb s
  | .portSet mb => Sys2Proof.Machine.execPortSet mb s
  | .portStatus mb => Sys2Proof.Machine.execPortStatus mb s
  | .macsecSaSet mb => Sys2Proof.Machine.execMacsecSaSet mb s
  | .macsecSaClear mb => Sys2Proof.Machine.execMacsecSaClear mb s
  | .linkRekey mb => Sys2Proof.Machine.execLinkRekey mb s
  | .rdmPdAlloc mb => Sys2Proof.Machine.execRdmPdAlloc mb s
  | .rdmPdFree mb => Sys2Proof.Machine.execRdmPdFree mb s
  | .rdmRegionReg mb => Sys2Proof.Machine.execRdmRegionReg mb s
  | .rdmRegionDereg mb => Sys2Proof.Machine.execRdmRegionDereg mb s
  | .rdmWindowOpen mb => Sys2Proof.Machine.execRdmWindowOpen mb s
  | .rdmWindowRevoke mb => Sys2Proof.Machine.execRdmWindowRevoke mb s
  | .rdmConnOpen mb => Sys2Proof.Machine.execRdmConnOpen mb s
  | .rdmConnClose mb => Sys2Proof.Machine.execRdmConnClose mb s
  | .rdmConnStatus mb => Sys2Proof.Machine.execRdmConnStatus mb s
  | .rdmTrigger mb => Sys2Proof.Machine.execRdmTrigger mb s
  | .wringCreate mb => Sys2Proof.Machine.execWringCreate mb s
  | .wringDestroy mb => Sys2Proof.Machine.execWringDestroy mb s
  | .cringCreate mb => Sys2Proof.Machine.execCringCreate mb s
  | .cringDestroy mb => Sys2Proof.Machine.execCringDestroy mb s
  | .wringStatus mb => Sys2Proof.Machine.execWringStatus mb s
  | .funcQuiesce mb => Sys2Proof.Machine.execFuncQuiesce mb s
  | .bistLogic mb => Sys2Proof.Machine.execBistLogic mb s
  | .bistMemory mb => Sys2Proof.Machine.execBistMemory mb s
  | .hbmPatternTest mb => Sys2Proof.Machine.execHbmPatternTest mb s
  | .snapshotArm mb => Sys2Proof.Machine.execSnapshotArm mb s
  | .snapshotRead mb => Sys2Proof.Machine.execSnapshotRead mb s
  | .fwStage mb sigOk => Sys2Proof.Machine.execFwStage mb sigOk s
  | .fwActivate mb => Sys2Proof.Machine.execFwActivate mb s
  | .fwStatus mb => Sys2Proof.Machine.execFwStatus mb s
  | .rollbackAdvance mb => Sys2Proof.Machine.execRollbackAdvance mb s
  | .workRingDoorbell fn secure ring v => Sys2Proof.Machine.execWorkRingDoorbell fn secure ring v s
  | .completionRingDoorbell fn secure ring v => Sys2Proof.Machine.execCompletionRingDoorbell fn secure ring v s
  | .eventRingDoorbell secure v => Sys2Proof.Machine.execEventRingDoorbell secure v s
  | .descriptorFetch fn => Sys2Proof.Machine.execDescriptorFetch fn s
  | .completionCoalesceExpire cring => Sys2Proof.Machine.execCompletionCoalesceExpire cring s
  | .wringDrainDone wring => Sys2Proof.Machine.execWringDrainDone wring s
  | .decodeInputDescriptor d => Sys2Proof.Machine.execDecodeInputDescriptor d s
  | .decodeOutputDescriptor d => Sys2Proof.Machine.execDecodeOutputDescriptor d s
  | .hevImport d => Sys2Proof.Machine.execHevImport d s
  | .hevExport d => Sys2Proof.Machine.execHevExport d s
  | .hevAdd d => Sys2Proof.Machine.execHevAdd d s
  | .hevSub d => Sys2Proof.Machine.execHevSub d s
  | .hevNeg d => Sys2Proof.Machine.execHevNeg d s
  | .hevAddPlain d => Sys2Proof.Machine.execHevAddPlain d s
  | .hevMulPlain d => Sys2Proof.Machine.execHevMulPlain d s
  | .hevMul d => Sys2Proof.Machine.execHevMul d s
  | .hevRescale d => Sys2Proof.Machine.execHevRescale d s
  | .hevDrop d => Sys2Proof.Machine.execHevDrop d s
  | .hevAutomorph d => Sys2Proof.Machine.execHevAutomorph d s
  | .hevRotsum d => Sys2Proof.Machine.execHevRotsum d s
  | .hevNtt d => Sys2Proof.Machine.execHevNtt d s
  | .hevIntt d => Sys2Proof.Machine.execHevIntt d s
  | .burnish d => Sys2Proof.Machine.execBurnish d s
  | .hevOpBegin d => Sys2Proof.Machine.execHevOpBegin d s
  | .hevOpComplete d ev => Sys2Proof.Machine.execHevOpComplete d ev s
  | .rdmSend d => Sys2Proof.Machine.execRdmSend d s
  | .rdmSendImm d => Sys2Proof.Machine.execRdmSendImm d s
  | .rdmWrite d => Sys2Proof.Machine.execRdmWrite d s
  | .rdmWriteImm d => Sys2Proof.Machine.execRdmWriteImm d s
  | .rdmRead d => Sys2Proof.Machine.execRdmRead d s
  | .rdmReceivePost d => Sys2Proof.Machine.execRdmReceivePost d s
  | .triggeredRequestFire d => Sys2Proof.Machine.execTriggeredRequestFire d s
  | .actionBegin a => Sys2Proof.Machine.execActionBegin a s
  | .actionComplete a upset => Sys2Proof.Machine.execActionComplete a upset s
  | .pressAdvance => Sys2Proof.Machine.execPressAdvance s
  | .idleStroke => Sys2Proof.Machine.execIdleStroke s
  | .pressStall => Sys2Proof.Machine.execPressStall s
  | .snapshotDone => Sys2Proof.Machine.execSnapshotDone s
  | .plateLoadComplete plate poison => Sys2Proof.Machine.execPlateLoadComplete plate poison s
  | .prefillChunk => Sys2Proof.Machine.execPrefillChunk s
  | .verificationStep => Sys2Proof.Machine.execVerificationStep s
  | .stepCommit => Sys2Proof.Machine.execStepCommit s
  | .sessionResume => Sys2Proof.Machine.execSessionResume s
  | .openDigestExchange digests => Sys2Proof.Machine.execOpenDigestExchange digests s
  | .openJoinTimeout member => Sys2Proof.Machine.execOpenJoinTimeout member s
  | .ringFrameReceive port f => Sys2Proof.Machine.execRingFrameReceive port f s
  | .ringDelimiterReceive port d => Sys2Proof.Machine.execRingDelimiterReceive port d s
  | .ringRetxTimeout port => Sys2Proof.Machine.execRingRetxTimeout port s
  | .ringIdleDelimiter port => Sys2Proof.Machine.execRingIdleDelimiter port s
  | .keepaliveSend port => Sys2Proof.Machine.execKeepaliveSend port s
  | .keepaliveReceive port src stroke epoch state => Sys2Proof.Machine.execKeepaliveReceive port src stroke epoch state s
  | .linkSilenceTimeout member port => Sys2Proof.Machine.execLinkSilenceTimeout member port s
  | .progressTimeout member => Sys2Proof.Machine.execProgressTimeout member s
  | .suspicionReceive src x => Sys2Proof.Machine.execSuspicionReceive src x s
  | .selfReportReceive member => Sys2Proof.Machine.execSelfReportReceive member s
  | .stepDigestVote => Sys2Proof.Machine.execStepDigestVote s
  | .viewFrameReceive v => Sys2Proof.Machine.execViewFrameReceive v s
  | .reformTimeout => Sys2Proof.Machine.execReformTimeout s
  | .mirrorRebuildDone first count => Sys2Proof.Machine.execMirrorRebuildDone first count s
  | .spareHandover index => Sys2Proof.Machine.execSpareHandover index s
  | .ringHandshakeInitReceive port h => Sys2Proof.Machine.execRingHandshakeInitReceive port h s
  | .ringHandshakeResponseReceive port h => Sys2Proof.Machine.execRingHandshakeResponseReceive port h s
  | .rekeySwitch port => Sys2Proof.Machine.execRekeySwitch port s
  | .rekeyRetry port => Sys2Proof.Machine.execRekeyRetry port s
  | .portTrainAttempt port ok => Sys2Proof.Machine.execPortTrainAttempt port ok s
  | .portLinkUp port => Sys2Proof.Machine.execPortLinkUp port s
  | .linkDown port reason => Sys2Proof.Machine.execLinkDown port reason s
  | .networkFrameReceive port f => Sys2Proof.Machine.execNetworkFrameReceive port f s
  | .pfcPauseReceive port priority => Sys2Proof.Machine.execPfcPauseReceive port priority s
  | .roceRequestReceive p => Sys2Proof.Machine.execRoceRequestReceive p s
  | .roceAckReceive qpn psn status => Sys2Proof.Machine.execRoceAckReceive qpn psn status s
  | .roceReadResponseReceive qpn psn data last => Sys2Proof.Machine.execRoceReadResponseReceive qpn psn data last s
  | .roceNakReceive qpn psn kind => Sys2Proof.Machine.execRoceNakReceive qpn psn kind s
  | .psnSequenceNakReceive qpn psn => Sys2Proof.Machine.execPsnSequenceNakReceive qpn psn s
  | .rnrNakReceive qpn psn timer => Sys2Proof.Machine.execRnrNakReceive qpn psn timer s
  | .rnrTimerExpire conn => Sys2Proof.Machine.execRnrTimerExpire conn s
  | .ackTimeout conn => Sys2Proof.Machine.execAckTimeout conn s
  | .contextFetchDone conn => Sys2Proof.Machine.execContextFetchDone conn s
  | .cnpReceive qpn => Sys2Proof.Machine.execCnpReceive qpn s
  | .rateIncreaseTimer conn => Sys2Proof.Machine.execRateIncreaseTimer conn s
  | .finalWritePlace conn psn => Sys2Proof.Machine.execFinalWritePlace conn psn s
  | .revokeDone key => Sys2Proof.Machine.execRevokeDone key s
  | .stagingReserve => Sys2Proof.Machine.execStagingReserve s
  | .sliceAdmission id bad => Sys2Proof.Machine.execSliceAdmission id bad s
  | .roundClosed round => Sys2Proof.Machine.execRoundClosed round s
  | .eventIrqCoalesceExpire => Sys2Proof.Machine.execEventIrqCoalesceExpire s
  | .bar2Read fn off len secure mac => Sys2Proof.Machine.execBar2Read fn off len secure mac s
  | .bar2Write fn off data secure mac => Sys2Proof.Machine.execBar2Write fn off data secure mac s
  | .hostReadCompletion rid ans => Sys2Proof.Machine.execHostReadCompletion rid ans s
  | .hostCompletionTimeout rid => Sys2Proof.Machine.execHostCompletionTimeout rid s
  | .flr fn => Sys2Proof.Machine.execFlr fn s
  | .flrPf0 => Sys2Proof.Machine.execFlrPf0 s
  | .hotReset => Sys2Proof.Machine.execHotReset s
  | .busMasterEnableSet fn => Sys2Proof.Machine.execBusMasterEnableSet fn s
  | .getVersion => Sys2Proof.Machine.execGetVersion s
  | .getCapabilities => Sys2Proof.Machine.execGetCapabilities s
  | .negotiateAlgorithms offersMlDsa offersMlKem => Sys2Proof.Machine.execNegotiateAlgorithms offersMlDsa offersMlKem s
  | .getDigests => Sys2Proof.Machine.execGetDigests s
  | .getCertificate off len => Sys2Proof.Machine.execGetCertificate off len s
  | .challenge nonce => Sys2Proof.Machine.execChallenge nonce s
  | .getMeasurements nonce => Sys2Proof.Machine.execGetMeasurements nonce s
  | .keyExchange encapKey => Sys2Proof.Machine.execKeyExchange encapKey s
  | .finish verifyOk => Sys2Proof.Machine.execFinish verifyOk s
  | .endSession => Sys2Proof.Machine.execEndSession s
  | .keyUpdate => Sys2Proof.Machine.execKeyUpdate s
  | .heartbeat => Sys2Proof.Machine.execHeartbeat s
  | .ideKmKeyProg stream keySet dir sub key => Sys2Proof.Machine.execIdeKmKeyProg stream keySet dir sub key s
  | .kSetGo stream => Sys2Proof.Machine.execKSetGo stream s
  | .ideIntegrityFail stream => Sys2Proof.Machine.execIdeIntegrityFail stream s
  | .lockInterfaceRequest fn => Sys2Proof.Machine.execLockInterfaceRequest fn s
  | .startInterfaceRequest fn => Sys2Proof.Machine.execStartInterfaceRequest fn s
  | .stopInterfaceRequest fn => Sys2Proof.Machine.execStopInterfaceRequest fn s
  | .getDeviceInterfaceReport fn => Sys2Proof.Machine.execGetDeviceInterfaceReport fn s
  | .cvuStart secure => Sys2Proof.Machine.execCvuStart secure s
  | .cvuDataWrite secure nbytes v => Sys2Proof.Machine.execCvuDataWrite secure nbytes v s
  | .cvuByteStep => Sys2Proof.Machine.execCvuByteStep s
  | .cvuResultRead secure => Sys2Proof.Machine.execCvuResultRead secure s
  | .standbyRequest secure v => Sys2Proof.Machine.execStandbyRequest secure v s
  | .debugBar0Access off width write => Sys2Proof.Machine.execDebugBar0Access off width write s
  | .debugMemoryAccess addr len write => Sys2Proof.Machine.execDebugMemoryAccess addr len write s
  | .debugHalt core => Sys2Proof.Machine.execDebugHalt core s
  | .debugStep core => Sys2Proof.Machine.execDebugStep core s
  | .debugResume core => Sys2Proof.Machine.execDebugResume core s
  | .powerOn => Sys2Proof.Machine.execPowerOn s
  | .resetNFall => Sys2Proof.Machine.execResetNFall s
  | .coreResetQualify => Sys2Proof.Machine.execCoreResetQualify s
  | .resetStretchRelease => Sys2Proof.Machine.execResetStretchRelease s
  | .systemResetQualify => Sys2Proof.Machine.execSystemResetQualify s
  | .resetNRise carrierHigh => Sys2Proof.Machine.execResetNRise carrierHigh s
  | .optionLoadDone badRecords missing secBootOk secOtherOk => Sys2Proof.Machine.execOptionLoadDone badRecords missing secBootOk secOtherOk s
  | .firmwareReady ctrlBootOk ctrlOtherOk => Sys2Proof.Machine.execFirmwareReady ctrlBootOk ctrlOtherOk s
  | .watchdogExpire core => Sys2Proof.Machine.execWatchdogExpire core s
  | .hbmZeroFillDone => Sys2Proof.Machine.execHbmZeroFillDone s
  | .hbmSweepDone => Sys2Proof.Machine.execHbmSweepDone s
  | .entropyBlock src bits => Sys2Proof.Machine.execEntropyBlock src bits s
  | .drbgInstantiate => Sys2Proof.Machine.execDrbgInstantiate s
  | .drbgReseed => Sys2Proof.Machine.execDrbgReseed s
  | .powerCapDecision avgW => Sys2Proof.Machine.execPowerCapDecision avgW s
  | .fastPowerLimit watts => Sys2Proof.Machine.execFastPowerLimit watts s
  | .thermalSample t0 t1 t2 t3 tio => Sys2Proof.Machine.execThermalSample t0 t1 t2 t3 tio s
  | .thermalTrip die tj => Sys2Proof.Machine.execThermalTrip die tj s
  | .inputUndervoltage => Sys2Proof.Machine.execInputUndervoltage s
  | .inputOvervoltage => Sys2Proof.Machine.execInputOvervoltage s
  | .tamperAlarm source => Sys2Proof.Machine.execTamperAlarm source s
  | .backupTamperLatch source => Sys2Proof.Machine.execBackupTamperLatch source s
  | .backupSupplyLoss => Sys2Proof.Machine.execBackupSupplyLoss s
  | .hbmTrainingDone => Sys2Proof.Machine.execHbmTrainingDone s
  | .pcieLinkUp speed width flit => Sys2Proof.Machine.execPcieLinkUp speed width flit s
  | .pcieLinkDown => Sys2Proof.Machine.execPcieLinkDown s
  | .selfTestDone mb sigs errs => Sys2Proof.Machine.execSelfTestDone mb sigs errs s
  | .entropyWaitTimeout mb => Sys2Proof.Machine.execEntropyWaitTimeout mb s
  | .fastLimitAlertRelease => Sys2Proof.Machine.execFastLimitAlertRelease s
  | .busMasterEnableClear fn => Sys2Proof.Machine.execBusMasterEnableClear fn s
  | .d3hotTransition fn enter => Sys2Proof.Machine.execD3hotTransition fn enter s
  | .pfcPauseExpire port priority => Sys2Proof.Machine.execPfcPauseExpire port priority s

end Sys2Proof.Machine
end

