-- ==== Sys2Proof/Machine/Tick.lean ====
section
/-! DEFINITION. A microsecond of the housekeeping timer (R397, R408). -/

namespace Sys2Proof.Machine

/-- A sweep goes on: SWEEP_PCT never falls, and stays below 100 until the sweep ends; how far it has come is a free value (R362, notes/assumptions 3).
(DEDUCED: log entry 39) -/
def sweepOn (s : State) : State :=
  if s.mpr.sweep then
    modMpr (fun m => { m with sweepPct := max m.sweepPct ((Config.freeCount s.draw 0).toNat % 100) }) { s with draw := s.draw + 1 }
  else s

/-- One microsecond: the timer advances, the dies that run slower than the divisor 4 count it in THROTTLE_US (Table 21-4), and a sweep goes on. -/
def tick (s : State) : State :=
  let s := sweepOn { s with now := s.now + 1 }
  modClk (fun c => { c with dies := map4 c.dies (fun d => if d.div = 0 then d else { d with throttleUs := sat d.throttleUs }) }) s

end Sys2Proof.Machine
end

