-- ==== Sys2Proof/Machine/Protect.lean ====
section
/-! DEFINITION. How HBM holds its lines: versions, nonces, ciphertext, line MACs, counter blocks and the tree over them
(18_tenancy_and_memory_protection.md R357 to R359, R361). State holds the plaintext and the counters; this file gives what stands in the stacks for them.
It is never read back but through a check, whose outcome a row's operand says (notes/assumptions 75). -/

namespace Sys2Proof.Machine

/-! ## Lines (R357, R359, R361) -/

/-- The counters of the page of an HBM address. -/
def metaOf (s : State) (a : Nat) : PageMeta := pageOf s (a / 4096)

/-- The 56-bit version of the line at `a`: MAJOR and MINOR, or bit 55 and the epoch of a read-only region (R357, R359). -/
def lineVersion (s : State) (a : Nat) : Nat :=
  let m := metaOf s a
  if m.readOnly then 2 ^ 55 + m.epoch else m.major * 256 + lineMinor m (a / 64 % 64)

/-- The nonce of a line: its index in 5 bytes, its version in 7 (R357). -/
def lineNonce (s : State) (a : Nat) : Bytes := leBytes 5 (a / 64) ++ leBytes 7 (lineVersion s a)

/-- The key of a page's slot, A or B; none while the slot is empty (R357). -/
def lineKey (s : State) (a : Nat) : Bytes := (slotAt s (if (metaOf s a).slotB then 3 else 2)).elim [] (·.secret)

/-- The plaintext of the line that holds `a`. -/
def linePlain (s : State) (a : Nat) : Bytes := cellRead s.mem.cells (a / 64 * 64) 64

/-- The ciphertext of the line that holds `a` (R357). -/
def storedLine (s : State) (a : Nat) : Bytes := gcmXor (lineKey s a) (lineNonce s a) (linePlain s a)

/-- The line MAC over a ciphertext: the first 7 bytes of the tag, with no associated data (R357). -/
def lineMac (s : State) (a : Nat) (ct : Bytes) : Bytes := (gcmTag (lineKey s a) (lineNonce s a) [] ct).take 7

/-- The metadata word of a line: MINOR in bits 7 to 0, the MAC in bits 63 to 8 (R358). A line of a read-only region has no MINOR (R359). -/
def lineMeta (s : State) (a : Nat) : Bytes :=
  leBytes 1 (if (metaOf s a).readOnly then 0 else lineMinor (metaOf s a) (a / 64 % 64)) ++ lineMac s a (storedLine s a)

/-- A stored line is read: its plaintext, or none when its MAC fails (R360). -/
def openLine (s : State) (a : Nat) (ct mac : Bytes) : Option Bytes :=
  if lineMac s a ct = mac then some (gcmXor (lineKey s a) (lineNonce s a) ct) else none

/-! ## Counter blocks and the tree (R358) -/

/-- The poison map of a page: a bit for each line. -/
def poisonMap (s : State) (p : Nat) : Nat := sumNat ((List.range 64).map (fun l => if s.mem.poison.contains (p * 64 + l) then 2 ^ l else 0))

/-- The fields of a page's counter block: MAJOR, slot bit, read-only flag, poison map; R358 gives no places. (DESIGN CHOICE: log entry 75) -/
def blockFields (s : State) (p : Nat) : Bytes :=
  let m := pageOf s p
  leBytes 8 (m.major + 2 ^ 47 * b2n m.slotB + 2 ^ 48 * b2n m.readOnly) ++ leBytes 8 (poisonMap s p) ++ zeros 41

/-- The MAC of a page's counter block, under its controller. -/
def pageMac (s : State) (p : Nat) : BitVec 56 := Config.blockMac (Config.pageController p) (blockFields s p)

/-- A page's counter block, 64 bytes. (DESIGN CHOICE: log entry 75) -/
def counterBlock (s : State) (p : Nat) : Bytes := blockFields s p ++ bvBytes 7 (pageMac s p)

/-- The MAC of node `i` of a level of a controller's tree: a counter block at level 0, above it a node of its 8 children's MACs. -/
def nodeMac (s : State) (c : Nat) : Nat → Nat → BitVec 56
  | 0, i => pageMac s (Config.controllerPage c i)
  | k + 1, i => Config.blockMac c ((List.range 8).flatMap (fun x => bvBytes 7 (nodeMac s c k (8 * i + x))))

/-- A node of a controller's tree: the MACs of its 8 children. -/
def treeNode (s : State) (c level i : Nat) : Bytes := (List.range 8).flatMap (fun x => bvBytes 7 (nodeMac s c (level - 1) (8 * i + x)))

/-- The on-die root register of a controller: 8 levels of arity 8 cover the 2^24 pages of its 64 GiB. -/
def controllerRoot (s : State) (c : Nat) : BitVec 56 := nodeMac s c 8 0

end Sys2Proof.Machine
end

