-- ==== Sys2Proof/Safety.lean ====
section
/-! DEFINITION. What counts as a safe run: a step that answers a next state, the canonical form of the memories, and when a
command finds its way: the host's accesses, and a mailbox command that has been dispatched. -/

namespace Sys2Proof.Machine

/-- The step does not stop. -/
def goesOn (o : Host.Outcome State Fault Refusal) : Prop := ∃ t, o = .next t

/-- The byte memories (device memory, the telemetry buffer and what it is to hold next, the mailbox windows) are in canonical form: addresses strictly rising, no entry 0. -/
def Memory.wf (s : State) : Bool :=
  cellsWf s.mem.cells && cellsWf s.tst.buffer && cellsWf s.tst.latched && (list4 s.mbx.boxes).all (fun b => cellsWf b.window)

/-- A write of the host to BAR0 is taken: the module has power and no reset holds it, and the TDI neither refuses nor locks (R306). -/
abbrev HostWrites (s : State) (secure : Bool) : Prop :=
  hostReach s = true ∧ ¬(s.hif.tdi = .run ∧ secure = false) ∧ s.hif.tdi ≠ .locked

/-- A read of the host from BAR0 is answered (R306). -/
abbrev HostReads (s : State) (secure : Bool) : Prop := hostReach s = true ∧ ¬(s.hif.tdi = .run ∧ secure = false)

/-- Command `j` of mailbox `mb` and opcode `op` has been dispatched, and waits for nothing (R314). -/
abbrev Begun (s : State) (mb : MbId) (op : Nat) (j : Job) : Prop := runJob s mb op = some j ∧ j.phase = 1

/-- Every work, ring and object of the tenant is gone, with its plates, weights and MACsec SAs (R354 steps 1 to 5). -/
abbrev TenantGone (s : State) : Prop :=
  s.dec = none ∧ s.ptn.rounds = [] ∧ s.ptn.staged = [] ∧ s.hev.ctxs = [] ∧ s.ring = none ∧
  s.rdm.pds = [] ∧ s.rdm.regions = [] ∧ s.rdm.windows = [] ∧ s.rdm.conns = [] ∧
  s.buf.wrings = [] ∧ s.buf.crings = [] ∧ s.buf.descs = [] ∧ s.prs.actions = [] ∧ s.prs.data = [] ∧
  s.pla.store = [] ∧ s.pla.grants = [] ∧ s.weights = none ∧ s.mpr.filled = false ∧
  (∀ p ∈ list5 s.ports, p.txSa = [] ∧ p.rxSa = []) ∧ (∀ p ∈ list4 s.life.plateKeys, p = [])

end Sys2Proof.Machine
end

