-- ==== Sys2Proof/Certificates/Slice0/Obligations.lean ====
section
/-! DEFINITION. The statements of this row, for the provers: the block as a whole, then its commands family by family. Each command's
statement says when it completes, what state it then leaves, and, by the record equation, that nothing else changes. `answer j st` and
`finish j st payload` are the completion of a mailbox command, and CommandCompletion says what they do. -/

open Sys2Proof Sys2Proof.Machine

/-- `t` is `s` but for the generator's working state (its key in slot 4, V, and its count of requests) and the contents of key slots (R374). -/
def drewBytes (s t : State) : Prop :=
  { t with ent := { t.ent with requests := s.ent.requests, reseeding := s.ent.reseeding, drbgV := s.ent.drbgV }
           kst := { t.kst with slots := s.kst.slots } } = s

/-- `t` is `s` but for the generator's working state. -/
def drewOnly (s t : State) : Prop := (∀ n, n ≠ 4 → slotAt t n = slotAt s n) ∧ drewBytes s t

/-- `t` is `s` but for what reads and writes of HBM count: counter blocks, tree walks, cache misses and re-encrypted pages (R361, R369). -/
def countedHbm (s t : State) : Prop :=
  { t with mpr := { t.mpr with pages := s.mpr.pages, walks := s.mpr.walks, treeMiss := s.mpr.treeMiss, reencrypt := s.mpr.reencrypt
                               sticky := t.mpr.sticky &&& ~~~(8#32) ||| s.mpr.sticky &&& 8#32 } } = s

/-! ## The block as a whole -/

/-- A step with a command at the front of the queue runs that command on the state with the queue's rest. -/
def Obligations.StepRunsFrontCommand : Prop :=
  ∀ (c : Instr) (rest : List Instr) (s : State), step { s with pending := c :: rest } = exec c { s with pending := rest }

/-- On an empty queue one microsecond of the housekeeping timer passes (the model's choice, notes/assumptions 5): every die whose divisor is
not 4 counts it in THROTTLE_US (Table 21-4), a sweep's SWEEP_PCT does not fall and does not reach 100 (R362), and nothing else changes. -/
def Obligations.EmptyQueueTicks : Prop :=
  ∀ s : State, s.pending = [] → ∃ t, step s = .next t ∧ t.now = s.now + 1 ∧
    (∀ i < 4, get4 t.clk.dies i = if (get4 s.clk.dies i).div = 0 then get4 s.clk.dies i else
      { get4 s.clk.dies i with throttleUs := min ((get4 s.clk.dies i).throttleUs + 1) (2 ^ 32 - 1) }) ∧
    (s.mpr.sweep = true → s.mpr.sweepPct ≤ t.mpr.sweepPct ∧ (s.mpr.sweepPct < 100 → t.mpr.sweepPct < 100) ∧ t.draw = s.draw + 1) ∧
    (s.mpr.sweep = false → t.mpr.sweepPct = s.mpr.sweepPct ∧ t.draw = s.draw) ∧
    { t with now := s.now, draw := s.draw, clk := { t.clk with dies := s.clk.dies }, mpr := { t.mpr with sweepPct := s.mpr.sweepPct } } = s

/-- The model's choice, a rule of no chapter (notes/assumptions 4): every command answers a next state in every state, whether or not what it needs is
there, and leaves the commands that wait as they are. -/
def Obligations.EveryCommandGoesOn : Prop :=
  ∀ (c : Instr) (s : State), ∃ t, exec c s = .next t ∧ t.pending = s.pending

/-- R325: the anti-rollback counters never fall, whatever step the module takes. -/
def Obligations.RollbackCountersNeverFall : Prop :=
  ∀ s t : State, step s = .next t → s.ctrlFw.counter ≤ t.ctrlFw.counter ∧ s.secFw.counter ≤ t.secFw.counter

/-- R22, R349, R18: the counter of decision proofs never falls, an identity seed that RETIRE has blown stays blown, what the module has sent it
never takes back, and its part number never changes. -/
def Obligations.NothingTakenBack : Prop :=
  ∀ s t : State, step s = .next t → s.kst.serial ≤ t.kst.serial ∧ (s.kst.seedBlown = true → t.kst.seedBlown = true) ∧ s.out <+: t.out ∧
    t.partId = s.partId

/-- Every step keeps the canonical form of device memory, the telemetry buffer and the mailbox windows. -/
def Obligations.StepKeepsMemoriesCanonical : Prop :=
  ∀ s t : State, Memory.wf s = true → step s = .next t → Memory.wf t = true

/-- The memories are in canonical form at reset. -/
def Obligations.ResetMemoriesCanonical : Prop := Memory.wf State.reset = true

/-- R39, R40: the module stroke counter stays within its 48 bits. R320: the event sequence counter stays within its 32. -/
def Obligations.CountersStayInWidth : Prop :=
  ∀ s t : State, step s = .next t → (s.prs.stroke < 2 ^ 48 → t.prs.stroke < 2 ^ 48) ∧ (s.mbx.seq < 2 ^ 32 → t.mbx.seq < 2 ^ 32)

/-- The state right after a power-on reset, where the spec gives values: registers at the reset values of their tables, every store empty, no
work open, the mailboxes idle, the TDI unlocked, the module PROVISIONED. That this state is the end of RESET_N low, with option load
running, is the model's choice (notes/assumptions 6). -/
def Obligations.ResetValues : Prop :=
  let s := State.reset
  (s.prs.stroke = 0 ∧ s.prs.limitMs = 50 ∧ s.prs.stallDomain = 0x3FF ∧ s.prs.sticky = 0 ∧ s.prs.actions = [] ∧ s.prs.data = []) ∧
  (s.clk.capW = 1650 ∧ s.clk.sticky = 0 ∧ s.clk.dies.a0.div = 0 ∧ s.clk.temps.a0.tj = -128 ∧ s.clk.temps.a4.tjMax = -128) ∧
  (s.pla.loadRate = 3 ∧ s.pla.store = [] ∧ s.pla.grants = [] ∧ s.pla.activeBuf = 0 ∧ s.pla.shadowVld = 0) ∧
  (s.cvu.poly = true ∧ s.cvu.queue = [] ∧ s.cvu.fold = 0 ∧ s.ent.ready = false ∧ s.ent.sources = List.replicate 8 {}) ∧
  (s.kst.slots = [] ∧ s.mpr.sweepRate = 4 ∧ s.mpr.filled = false ∧ s.mpr.epoch = 0 ∧ s.mem.cells = [] ∧ s.mem.held = []) ∧
  (s.hif.tdi = .unlocked ∧ s.hif.up = false ∧ s.hif.session = 0 ∧ (list5 s.hif.fns).all (fun f => !f.fenced && !f.quiesced && f.bar2 == 0)) ∧
  ((list4 s.mbx.boxes).all (fun b => b.state == 0 && !b.irqEn && b.sticky == 0) ∧ s.mbx.fwReady = false ∧ s.mbx.ring = none ∧ s.mbx.seq = 0) ∧
  (s.buf.ringShare = 4 ∧ s.buf.channels = List.replicate 40 { low := 16, high := 48, borrow := 64, guar := 64 } ∧ s.buf.wrings = [] ∧ s.buf.crings = []) ∧
  (s.ptn.stageMib = 64 ∧ s.ptn.rounds = [] ∧ s.hev.ctxs = [] ∧ s.rdm.aiGbps = 5 ∧ s.rdm.gShift = 4 ∧ s.rdm.conns = [] ∧ s.rdm.windows = []) ∧
  (s.weights = none ∧ s.dec = none ∧ s.ring = none ∧ (list5 s.ports).all (fun p => p.mode == 0 && !p.up && p.optOff)) ∧
  (s.tst.seq = 0 ∧ s.tst.last = 0xFFFF ∧ s.tst.failCnt = 0 ∧ s.rst.last = 1 ∧ s.rst.powerOn = true ∧ s.life.stored = .provisioned ∧ s.pending = [])

/-! ## Registers, mailboxes, SMBus -/

/-- REGISTER_WRITE (R15): a write of the host to `CLK.CAP` and `PRS.LIMIT` puts the nearer limit into the shadow; bits written 1 to a sticky register of
any block clear it; a register that its table locks (`PRS.SNAP_AT`, `CVU.CTRL` and `FOLD`, `PLA.LOAD_RATE`, `MPR.SWEEP_RATE`, `BUF.RING_SHARE` and
`CH_CFG`, `PTN.CTRL`, `RDM.CTRL`) takes its value while nothing locks it, and else stands with CFG_REJECT set; `HIF.BAR2_BASE` is written in OWNED_OPEN
only; the identity registers ignore it. In CONFIG_LOCKED or RUN a write to a BAR register or to the registers of IDE takes the TDI to ERROR (R306).
The model's choices in it: notes/assumptions 11, 18. -/
def Obligations.HostRegisterWrites : Prop :=
  (∀ (s : State) (secure : Bool) (v : BitVec 64), HostWrites s secure →
    let w := fun (fn : FnId) (off : Nat) => exec (.registerWrite fn secure (.bar0 off) 4 v) s
    let n := v.toNat
    let clear := fun (k : Nat) (x : BitVec 32) => x &&& ~~~(BitVec.ofNat 32 (n % 2 ^ k))
    w 0 0x2008 = .next { s with clk := { s.clk with capShadow := some (max 900 (min 1650 (n % 2048))) } } ∧
    w 0 0x3010 = .next { s with prs := { s.prs with limitShadow := some (max 1 (min 1000 (n % 1024))) } } ∧
    w 0 0x3020 = .next { s with prs := if s.prs.snapPending then { s.prs with sticky := s.prs.sticky ||| 1 }
                                      else { s.prs with snapAt := s.prs.snapAt / 2 ^ 32 * 2 ^ 32 + n % 2 ^ 32 } } ∧
    w 0 0x3024 = .next { s with prs := if s.prs.snapPending then { s.prs with sticky := s.prs.sticky ||| 1 }
                                      else { s.prs with snapAt := n % 2 ^ 16 * 2 ^ 32 + s.prs.snapAt % 2 ^ 32 } } ∧
    w 0 0x4000 = .next { s with cvu := if s.cvu.queue = [] then { s.cvu with poly := v.getLsbD 0 } else { s.cvu with sticky := s.cvu.sticky ||| 1 } } ∧
    (s.cvu.queue ≠ [] → w 0 0x4010 = .next { s with cvu := { s.cvu with sticky := s.cvu.sticky ||| 1 } }) ∧
    (s.cvu.queue = [] → ∃ f : BitVec 64, f.toNat = s.cvu.fold.toNat / 2 ^ 32 * 2 ^ 32 + n % 2 ^ 32 ∧
      w 0 0x4010 = .next { s with cvu := { s.cvu with fold := f } }) ∧
    w 0 0x6014 = .next { s with pla := if loading s then { s.pla with sticky := s.pla.sticky ||| 1 }
                                      else { s.pla with loadRate := min 3 (n % 8) } } ∧
    (∀ i < 5, ownedOpen s = true → ∃ t, w 0 (0x7020 + 4 * i) = .next t ∧ (get5 t.hif.fns i).bar2 = n % 4096 ∧
      (∀ k < 5, k ≠ i → get5 t.hif.fns k = get5 s.hif.fns k) ∧ { t with hif := { t.hif with fns := s.hif.fns } } = s) ∧
    (∀ i < 5, ownedOpen s = false → w 0 (0x7020 + 4 * i) = .next s) ∧
    w 0 0xB008 = .next { s with mpr := if s.mpr.sweep || s.mpr.wiping then { s.mpr with sticky := s.mpr.sticky ||| 1 }
                                      else { s.mpr with sweepRate := min 8 (n % 16) } } ∧
    w 0 0xC008 = .next { s with buf := if (List.range 5).any (fun p => (get5 s.ports p).mode == 2) then { s.buf with sticky := s.buf.sticky ||| 1 }
                                      else { s.buf with ringShare := max 2 (min 8 (n % 16)) } } ∧
    (∀ c < 40, w 0 (0xC100 + 16 * c) =
      if (get5 s.ports (c / 8)).up then .next { s with buf := { s.buf with sticky := s.buf.sticky ||| 1 } }
      else if chInvalid n then .next { s with buf := { s.buf with sticky := s.buf.sticky ||| 32 } }
      else .next { s with buf := { s.buf with channels := updAt (fun x => { x with
        low := n / 2 ^ 24 % 256, high := n / 2 ^ 16 % 256, borrow := n / 2 ^ 8 % 256, guar := n % 256 }) c s.buf.channels } }) ∧
    w 2 0x1008 = .next { s with ptn := if s.ptn.rounds = [] then { s.ptn with stageMib := max 16 (min 128 (n % 256)) }
                                      else { s.ptn with sticky := s.ptn.sticky ||| 1 } } ∧
    w 4 0x2008 = .next { s with rdm := if s.rdm.conns = [] then { s.rdm with aiGbps := max 1 (n / 2 ^ 8 % 256), gShift := max 1 (min 8 (n % 16)) }
                                      else { s.rdm with sticky := s.rdm.sticky ||| 1 } } ∧
    w 0 0x1000 = .next { s with rst := { s.rst with
      powerOn := s.rst.powerOn && !v.getLsbD 0, systemSeen := s.rst.systemSeen && !v.getLsbD 1, coreSeen := s.rst.coreSeen && !v.getLsbD 2 } } ∧
    w 0 0x100C = .next { s with rst := { s.rst with shortPulse := s.rst.shortPulse && !v.getLsbD 0, optBad := s.rst.optBad && !v.getLsbD 1 } } ∧
    w 0 0x2004 = .next { s with clk := { s.clk with sticky := clear 7 s.clk.sticky } } ∧
    w 0 0x300C = .next { s with prs := { s.prs with sticky := clear 4 s.prs.sticky } } ∧
    w 0 0x4008 = .next { s with cvu := { s.cvu with sticky := clear 2 s.cvu.sticky } } ∧
    w 0 0x5004 = .next { s with ent := { s.ent with sticky := clear 1 s.ent.sticky } } ∧
    w 0 0x6004 = .next { s with pla := { s.pla with sticky := clear 5 s.pla.sticky } } ∧
    w 0 0x7004 = .next { s with hif := { s.hif with sticky := clear 5 s.hif.sticky } } ∧
    w 0 0xA004 = .next { s with kst := { s.kst with sticky := clear 3 s.kst.sticky } } ∧
    w 0 0xB004 = .next { s with mpr := { s.mpr with sticky := clear 4 s.mpr.sticky } } ∧
    w 0 0xC004 = .next { s with buf := { s.buf with sticky := clear 6 s.buf.sticky } } ∧
    w 0 0xD004 = .next { s with tst := { s.tst with sticky := clear 1 s.tst.sticky } } ∧
    w 2 0x1004 = .next { s with ptn := { s.ptn with sticky := clear 4 s.ptn.sticky } } ∧
    w 3 0x1004 = .next { s with hev := { s.hev with sticky := clear 5 s.hev.sticky } } ∧
    w 4 0x2004 = .next { s with rdm := { s.rdm with sticky := clear 5 s.rdm.sticky } } ∧
    (∀ p < 5, w 4 (0x1004 + 0x100 * p) = .next { s with ports := mod5 s.ports p (fun x => { x with sticky := clear 5 x.sticky }) }) ∧
    (∀ m < 4, m ≠ 3 → s.rst.optLoad = false → s.rst.inReset = false → w 0 (0x10028 + 0x4000 * m) =
      .next { s with mbx := { s.mbx with boxes := mod4 s.mbx.boxes m (fun b => { b with sticky := clear 3 b.sticky }) } }) ∧
    (∀ k < 1024, w 0 (4 * k) = .next s)) ∧
  (∀ (s : State) (fn : FnId) (secure : Bool) (half : Fin 4) (off width : Nat) (v : BitVec 64), hostReach s = true →
    s.hif.tdi = .locked ∨ s.hif.tdi = .run →
    (∃ t, exec (.registerWrite fn secure (.barRegister half) width v) s = .next t ∧ t.hif.tdi = .error) ∧
    (∃ t, exec (.registerWrite fn secure (.ideRegister off) width v) s = .next t ∧ t.hif.tdi = .error))

/-- BAD_REGISTER_ACCESS (R17; uncounted in a block that a core reset holds down, R395), LO_REGISTER_READ (R435) and SNAP_CTRL_ARM (R50).
The model's choices in it: notes/assumptions 18, 19. -/
def Obligations.HostRegisterAccesses : Prop :=
  (∀ (s : State) (fn : FnId) (secure : Bool) (off width : Nat), rightAccess fn.val off width true = false → HostWrites s secure →
    exec (.badRegisterAccess fn secure off width true) s = .next (if downAt s fn.val off then s else
      { s with hif := { s.hif with badAccess := min (s.hif.badAccess + 1) (2 ^ 32 - 1), sticky := s.hif.sticky ||| 2 } })) ∧
  (∀ (s : State) (fn : FnId) (secure : Bool) (off width : Nat), rightAccess fn.val off width false = false → HostReads s secure →
    exec (.badRegisterAccess fn secure off width false) s = .next (if downAt s fn.val off then { s with out := s.out ++ [.readData (zeros width)] } else
      { s with hif := { s.hif with badAccess := min (s.hif.badAccess + 1) (2 ^ 32 - 1), sticky := s.hif.sticky ||| 2 }
               out := s.out ++ [.readData (zeros width)] })) ∧
  (∀ (s : State) (secure : Bool), HostReads s secure →
    exec (.loRegisterRead secure .strokeLo) s =
      .next { s with prs := { s.prs with strokeHi := s.prs.stroke / 2 ^ 32 }, out := s.out ++ [.readData (leBytes 4 (s.prs.stroke % 2 ^ 32))] } ∧
    exec (.loRegisterRead secure .lastApplyLo) s =
      .next { s with prs := { s.prs with lastApplyHi := s.prs.lastApply / 2 ^ 32 }, out := s.out ++ [.readData (leBytes 4 (s.prs.lastApply % 2 ^ 32))] } ∧
    exec (.loRegisterRead secure .lastSwapLo) s =
      .next { s with pla := { s.pla with lastSwapHi := s.pla.lastSwap / 2 ^ 32 }, out := s.out ++ [.readData (leBytes 4 (s.pla.lastSwap % 2 ^ 32))] } ∧
    exec (.loRegisterRead secure .keyStreamLo) s =
      .next { s with hev := { s.hev with streamHi := s.hev.keyStream / 2 ^ 32 }, out := s.out ++ [.readData (leBytes 4 (s.hev.keyStream % 2 ^ 32))] }) ∧
  (∀ (s : State) (secure : Bool), HostWrites s secure → s.prs.snapPending = false → s.prs.stroke < s.prs.snapAt →
    (confidential s = true → ∀ u, s.prs.snapTime = some u → u + 1000000 ≤ s.now) →
    exec (.snapCtrlArm secure) s = .next { s with prs := { s.prs with snapPending := true, snapTarget := s.prs.snapAt } })

/-- CommandCompletion (R312): a completed command leaves the list, and its mailbox is DONE with the status, the length, the sequence number and the
payload in its window; a self-test's status is kept for MODULE_STATUS (R417); no other mailbox, and no block but MBX, HIF (a held message) and the module's outputs, changes, where FLAGS.EVENT
is 0.
The model's choices in it: notes/assumptions 16. -/
def Obligations.CommandCompletion : Prop :=
  ∀ (j : Job) (st : Status) (payload : Bytes) (s : State), Memory.wf s = true → j.attached = true → j.mb < 4 → j.flags % 2 = 0 →
    payload.length ≤ 16320 →
    let t := finish j st payload s
    let b := get4 t.mbx.boxes j.mb
    t.mbx.jobs = s.mbx.jobs.filter (fun x => x.order != j.order) ∧ b.state = 2 ∧
    cellRead b.window 0x0C 2 = leBytes 2 (statusCode st) ∧
    cellRead b.window 0x10 4 = leBytes 4 payload.length ∧
    cellRead b.window 0x14 4 = leBytes 4 (get4 s.mbx.boxes j.mb).serial ∧
    cellRead b.window 0x40 payload.length = payload ∧
    (∀ i < 4, i ≠ j.mb → get4 t.mbx.boxes i = get4 s.mbx.boxes i) ∧
    t.tst = (if 0x0B01 ≤ j.opcode ∧ j.opcode ≤ 0x0B03 then { s.tst with last := statusCode st } else s.tst) ∧
    { t with mbx := s.mbx, tst := s.tst, out := s.out, hif := { t.hif with held := s.hif.held } } = s

/-- MAILBOX_GO and COMMAND_DISPATCH (R311 to R314): a GO to a mailbox that is not BUSY makes it BUSY, counts SERIAL, and takes the header and the
payload as a waiting command; a waiting command whose turn it is begins. A command that the checks refuse, at its GO or where something that runs alone
holds them back when it begins, completes with the check's status.
The model's choices in it: notes/assumptions 16. -/
def Obligations.MailboxCommandsBegin : Prop :=
  (∀ (s : State) (mb : MbId) (secure : Bool), (mb ≠ 3 → HostWrites s secure) → (mb = 3 → smbusAnswers s = true) →
    s.rst.optLoad = false → s.rst.inReset = false → (get4 s.mbx.boxes mb.val).state ≠ 1 → s.mbx.recovery = false → s.mbx.fwReady = true →
    let hdr := windowBytes s mb.val 0 32
    let j : Job := { mb := mb.val, order := s.mbx.nextOrder, head := hdr, opcode := field hdr 0 2, flags := field hdr 2 2, tag := field hdr 4 4,
                     payload := windowBytes s mb.val 0x40 (min (field hdr 8 4) 16320), phase := 0, attached := true,
                     subject := 0, applied := 0, bad := [], data := [], ended := none }
    let t : State := { s with mbx := { s.mbx with
      boxes := mod4 s.mbx.boxes mb.val (fun b => { b with state := 1, serial := (b.serial + 1) % 2 ^ 32 })
      nextOrder := s.mbx.nextOrder + 1, jobs := s.mbx.jobs ++ [j] } }
    (judgesNow s = false ∨ commandCheck s j = none → exec (.mailboxGo mb secure) s = .next t) ∧
    (∀ st, judgesNow s = true → commandCheck s j = some st → exec (.mailboxGo mb secure) s = .next (answer j st t))) ∧
  (∀ (s : State) (mb : MbId) (j : Job), s.mbx.jobs.find? (fun x => x.mb == mb.val && x.phase == 0) = some j →
    firmwareRuns s = true → mayBegin s j = true →
    (∀ st, commandCheck s j = some st → exec (.commandDispatch mb) s = .next (answer j st s)) ∧
    (commandCheck s j = none → workBlocked s j.opcode = false → exec (.commandDispatch mb) s = .next { s with mbx := { s.mbx with
      jobs := s.mbx.jobs.map (fun x => if x.order == j.order then { x with phase := 1 } else x) } }))

/-- SMBUS_BLOCK_WRITE and SMBUS_PROCESS_CALL (R315): payload bytes go into mailbox 3's window, a word with GO set is the mailbox's GO, a write past
0x3FFF is discarded whole, and a process call answers the window's bytes; a failed PEC is answered by a NACK and nothing else. The module's address
is 0x58 with the strapped bits, and it answers at no other (R424).
The model's choices in it: notes/assumptions 17. -/
def Obligations.SmbusTransactions : Prop :=
  let at' := fun (s : State) (off : BitVec 16) => (⟨BitVec.ofNat 7 (0x58 + s.rst.strapAddr), off⟩ : SmbPlace)
  let answers := fun (s : State) => s.rst.strapAddr < 8 ∧ smbusAnswers s = true
  (∀ (s : State) (off : BitVec 16) (data : Bytes), answers s → data.length ≤ 30 → 0x40 ≤ off.toNat →
    off.toNat + data.length ≤ 0x4000 → (get4 s.mbx.boxes 3).state ≠ 1 →
    ∃ t, exec (.smbusBlockWrite (at' s off) data true) s = .next t ∧
      (get4 t.mbx.boxes 3).window = cellWrite (get4 s.mbx.boxes 3).window off.toNat data ∧
      { t with mbx := { t.mbx with boxes := mod4 t.mbx.boxes 3 (fun b =>
        { b with window := (get4 s.mbx.boxes 3).window, fresh := (get4 s.mbx.boxes 3).fresh }) } } = s) ∧
  (∀ (s : State) (b0 b1 b2 b3 : Byte), answers s → (get4 s.mbx.boxes 3).state ≠ 1 → b0.getLsbD 0 = true →
    exec (.smbusBlockWrite (at' s 0x20) [b0, b1, b2, b3] true) s =
      .next (mailboxGo 3 (modBox 3 (fun b => { b with irqEn := b2.getLsbD 6, vector := b2.toNat % 64 }) s))) ∧
  (∀ (s : State) (off : BitVec 16) (data : Bytes), answers s → 0x4000 < off.toNat + data.length →
    exec (.smbusBlockWrite (at' s off) data true) s = .next s) ∧
  (∀ (s : State) (off : BitVec 16) (count : Nat), answers s → count ≤ 32 →
    exec (.smbusProcessCall (at' s off) count true) s = .next { s with out := s.out ++ [.readData (windowBytes s 3 off.toNat count)] }) ∧
  (∀ (s : State) (off : BitVec 16) (data : Bytes) (count : Nat), answers s →
    exec (.smbusBlockWrite (at' s off) data false) s = .next { s with out := s.out ++ [.smbusNack] } ∧
    exec (.smbusProcessCall (at' s off) count false) s = .next { s with out := s.out ++ [.smbusNack] }) ∧
  (∀ (s : State) (p : SmbPlace) (data : Bytes) (count : Nat) (pecOk : Bool), p.addr.toNat ≠ 0x58 + s.rst.strapAddr →
    exec (.smbusBlockWrite p data pecOk) s = .next s ∧ exec (.smbusProcessCall p count pecOk) s = .next s)

/-- CVU_START, CVU_DATA_WRITE, CVU_BYTE_STEP, CVU_RESULT_READ (R381, R382): a write queues its steps in the order of the writes, at most 16, or is ignored
whole with OVERRUN; START loads the initial register, and a byte goes into the selected CRC, in the register that reset leaves if
there was no START; a read of RESULT_LO waits for the queue, answers the low half of the register XOR the final value, latches the
high half, 0 for CRC-32C, and disturbs nothing. -/
def Obligations.CheckValueUnit : Prop :=
  State.reset.cvu.reg = crc64Init 0 ∧ State.reset.cvu.queue = [] ∧
  (∀ (s : State) (secure : Bool), HostWrites s secure →
    exec (.cvuStart secure) s = .next { s with cvu :=
      if s.cvu.queue.length < 16 then { s.cvu with queue := s.cvu.queue ++ [.start] } else { s.cvu with sticky := s.cvu.sticky ||| 2 } }) ∧
  (∀ (s : State) (secure : Bool) (n : Nat) (v : BitVec 32), HostWrites s secure →
    exec (.cvuDataWrite secure n v) s = .next { s with cvu :=
      if s.cvu.queue.length + n ≤ 16 then { s.cvu with queue := s.cvu.queue ++ (leBytes n v.toNat).map CvuStep.byte }
      else { s.cvu with sticky := s.cvu.sticky ||| 2 } }) ∧
  (∀ (s : State) (q : List CvuStep), s.cvu.queue = .start :: q →
    exec .cvuByteStep s = .next { s with cvu := { s.cvu with
      queue := q, reg := if s.cvu.poly then crc64Init s.cvu.fold else (crc32Init s.cvu.fold).zeroExtend 64 } }) ∧
  (∀ (s : State) (q : List CvuStep) (b : Byte), s.cvu.queue = .byte b :: q →
    exec .cvuByteStep s = .next { s with cvu := { s.cvu with
      queue := q, reg := if s.cvu.poly then crc64Byte s.cvu.reg b else (crc32Byte (s.cvu.reg.extractLsb' 0 32) b).zeroExtend 64 } }) ∧
  (∀ (s : State) (secure : Bool), HostReads s secure → s.cvu.queue = [] →
    exec (.cvuResultRead secure) s = .next { s with
      cvu := { s.cvu with resultHi := if s.cvu.poly then (~~~s.cvu.reg).extractLsb' 32 32 else 0 }
      out := s.out ++ [.readData (leBytes 4 ((~~~s.cvu.reg).extractLsb' 0 32).toNat)] }) ∧
  (∀ (s t : State) (secure : Bool), HostReads s secure → s.cvu.queue ≠ [] → exec .cvuByteStep s = .next t →
    exec (.cvuResultRead secure) s = exec (.cvuResultRead secure) t)

/-! ## Power, clocks and temperature -/

/-- STANDBY_REQUEST (R407): with nothing open the rails go off and the module is in Standby, and what the backup domain, the fuses and the
non-volatile stores hold stands; a wrong key, or work in the way, only sets its sticky bit.
The model's choices in it: notes/assumptions 34. -/
def Obligations.StandbyRequested : Prop :=
  (∀ (s : State) (secure : Bool), HostWrites s secure → standbyBlocked s = false → ∃ t,
    exec (.standbyRequest secure 0x53544259) s = .next t ∧ t.rst.standby = true ∧ t.rst.railsOn = false ∧ t.pins.pwrGood = false ∧
    t.kst.slots = [] ∧ t.mem = State.reset.mem ∧ t.weights = none ∧ t.pla.store = [] ∧
    t.backup = s.backup ∧ t.life.stored = s.life.stored ∧ t.life.ownerKey = s.life.ownerKey ∧ t.kst.serial = s.kst.serial ∧
    t.ctrlFw.counter = s.ctrlFw.counter ∧ t.secFw.counter = s.secFw.counter ∧ t.out = s.out) ∧
  (∀ (s : State) (secure : Bool) (v : BitVec 32), HostWrites s secure → (v ≠ 0x53544259 ∨ standbyBlocked s = true) →
    exec (.standbyRequest secure v) s = .next { s with clk := { s.clk with sticky := s.clk.sticky ||| 32 } })

/-- POWER_CAP_DECISION, THERMAL_SAMPLE (R401, R403, R404): an average above the cap asks for one step slower, with
STICKY.CAP when there is none; ten at or below 7/8 of it ask for one step faster; a die at 105 °C or more, or any die while the I/O die is there, asks
for ÷8, and THERM_N is driven low; a die at 95 °C or more asks for one step slower, once in 1 ms, and one that is cooler for no other; any two dies
more than 30 °C apart raise the difference alarm, and both ask for ÷8.
The model's choices in it: notes/assumptions 8, 45. -/
def Obligations.PowerAndTemperature : Prop :=
  (∀ (s : State) (avgW : Nat), clocksUp s = true → ∃ t, exec (.powerCapDecision avgW) s = .next t ∧
    (s.clk.capW < avgW → t.clk.capReq = min 3 (s.clk.capReq + 1) ∧
      t.clk.sticky = if s.clk.capReq = 3 then s.clk.sticky ||| 2 else s.clk.sticky) ∧
    (avgW ≤ s.clk.capW → t.clk.sticky = s.clk.sticky ∧
      t.clk.capReq = if 8 * avgW ≤ 7 * s.clk.capW ∧ 9 ≤ s.clk.lowRun then s.clk.capReq - 1 else s.clk.capReq) ∧
    t.clk.lowRun = (if 8 * avgW ≤ 7 * s.clk.capW then s.clk.lowRun + 1 else 0) ∧
    { t with draw := s.draw
             clk := { t.clk with lowRun := s.clk.lowRun, capReq := s.clk.capReq, sticky := s.clk.sticky
                                 vinMv := s.clk.vinMv, pwrW := s.clk.pwrW, pwrAvg := s.clk.pwrAvg } } = s) ∧
  (∀ (s : State) (t0 t1 t2 t3 tio : Int), clocksUp s = true → ∃ t, exec (.thermalSample t0 t1 t2 t3 tio) s = .next t ∧
    let tj := fun (i : Nat) => [t0, t1, t2, t3, tio].getD i 0
    (∀ i < 5, (get5 t.clk.temps i).tj = max (-128) (min 127 (tj i)) ∧
      (get5 t.clk.temps i).tjMax = max (get5 s.clk.temps i).tjMax (max (-128) (min 127 (tj i)))) ∧
    (t.clk.thermHot = true ↔ ∃ i < 5, 105 ≤ tj i) ∧
    (∀ i < 4, let d := get4 s.clk.dies i
      let e := get4 t.clk.dies i
      (105 ≤ tj i ∨ 105 ≤ tio → e.therm = 3) ∧
      (95 ≤ tj i → tj i < 105 → tio < 105 → e.therm = if 9 ≤ d.sinceStep ∧ d.therm < 3 then d.therm + 1 else d.therm) ∧
      (tj i < 95 → tio < 105 → e.therm = if tj i ≤ 90 ∧ 99 ≤ d.coolRun ∧ 9 ≤ d.sinceStep then d.therm - 1 else d.therm)) ∧
    (∀ i < 4, ∀ j < 4, tj i - tj j > 30 → t.clk.diffAlarm = true ∧ t.clk.sticky.getLsbD 3 = true ∧
      (get4 t.clk.dies i).diffReq = true ∧ (get4 t.clk.dies j).diffReq = true) ∧
    ((∀ i < 4, ∀ j < 4, tj i - tj j ≤ 30) → s.clk.diffAlarm = false → t.clk.diffAlarm = false) ∧
    t.clk.capReq = s.clk.capReq ∧ t.clk.capW = s.clk.capW ∧ { t with clk := s.clk } = s)

/-- FAST_POWER_LIMIT, FAST_LIMIT_ALERT_RELEASE (R398, R401, R402): above 2,000 W all four dies are asked for ÷8 (code 3), FAST_LIMIT is set and ALERT_N driven low until
its release; the next boundary applies the request, whenever the last change was; and R401's decisions then step the request down again. That the
request is the cap controller's, which its count of low averages does not restart for, is the model's reading (notes/assumptions 45). -/
def Obligations.FastLimitAsksEveryDie : Prop :=
  (∀ (s : State) (watts : Nat), clocksUp s = true → 2000 < watts →
    let u : State := { s with
      pins := { s.pins with alertFast := true }
      clk := { s.clk with capReq := 3, dies := map4 s.clk.dies (fun d => { d with urgent := true })
                          sticky := s.clk.sticky ||| 16, pwrW := min watts 2047 } }
    exec (.fastPowerLimit watts) s = .next u ∧
    (∀ i < 4, (get4 s.clk.dies i).therm ≤ 3 → (get4 (applyDivisors u).2.clk.dies i).div = 3) ∧
    (∀ avgW lowRun, 9 ≤ lowRun → 8 * avgW ≤ 7 * s.clk.capW →
      ∃ t, exec (.powerCapDecision avgW) { u with clk := { u.clk with lowRun := lowRun } } = .next t ∧ t.clk.capReq = 2)) ∧
  (∀ s : State, exec .fastLimitAlertRelease s = .next { s with pins := { s.pins with alertFast := false } })

/-! ## Reset and boot -/

/-- POWER_ON (R385, R389, R405), RESET_N_FALL, RESET_STRETCH_RELEASE, RESET_N_RISE (R386, R387, R391): a power-on holds RESET_N low and clears
all but the non-volatile stores and the backup domain (in any state: the model's choice, notes/assumptions 33); the line's end after a qualified reset begins option load and, but for a core reset, counts
it; a pulse that never qualified only sets SHORT_PULSE.
The model's choices in it: notes/assumptions 6, 31, 32, 33, 35. -/
def Obligations.PowerAndResetLine : Prop :=
  (∀ s : State, ∃ t, exec .powerOn s = .next t ∧
    t = { State.reset with
      now := s.now, draw := t.draw, partId := s.partId, out := s.out, pending := s.pending
      rst := { State.reset.rst with level := .powerOn, inReset := true, moduleLow := true, railsOn := true, standby := false, optLoad := false
                                    powerOn := true, coreSeen := false, systemSeen := false, last := s.rst.last, carrierLow := s.rst.carrierLow
                                    strapAddr := s.rst.strapAddr, strapFast := s.rst.strapFast, optRestarts := 0, cores := 0 }
      clk := { State.reset.clk with sticky := if s.backup.trip then 64 else 0 }
      kst := { State.reset.kst with seedBlown := s.kst.seedBlown, serial := s.kst.serial }
      life := { s.life with resetSince := true, removal := none, overlay := s.life.overlay || s.life.removal.any (·.clearOvl) }
      ctrlFw := t.ctrlFw, secFw := t.secFw, backup := { s.backup with trip := false } } ∧
    s.ctrlFw.counter ≤ t.ctrlFw.counter ∧ s.secFw.counter ≤ t.secFw.counter ∧
    ((∀ j ∈ s.mbx.jobs, j.opcode ≠ 0x0C01 ∧ j.opcode ≠ 0x0C04) → t.ctrlFw = s.ctrlFw ∧ t.secFw = s.secFw ∧ t.draw = s.draw)) ∧
  (∀ s : State, exec .resetNFall s = .next { s with rst := { s.rst with carrierLow := true } }) ∧
  (∀ s : State, exec .resetStretchRelease s = .next { s with rst := { s.rst with moduleLow := false } }) ∧
  (∀ s : State, s.rst.carrierLow = true → s.rst.moduleLow = false → s.rst.railsOn = true → s.rst.inReset = false →
    exec (.resetNRise true) s = .next { s with rst := { s.rst with carrierLow := false, shortPulse := true } }) ∧
  (∀ (s : State) (byCarrier : Bool), s.rst.carrierLow = byCarrier → s.rst.moduleLow = false → s.rst.railsOn = true → s.rst.inReset = true →
    ∃ t, exec (.resetNRise byCarrier) s = .next t ∧ t.rst.optLoad = true ∧ t.rst.inReset = false ∧ t.rst.carrierLow = false ∧
      t.backup.resetCount = (if s.rst.level = .core then s.backup.resetCount else min (s.backup.resetCount + 1) (2 ^ 32 - 1)) ∧
      { t with rst := s.rst, backup := { t.backup with resetCount := s.backup.resetCount } } = s)

/-- CORE_RESET_QUALIFY and SYSTEM_RESET_QUALIFY (R386, R387, Table 20-2): a core reset ends all work, zeroises the keys of ring links, and keeps HBM,
every other key, the weights, the plate store, the lifecycle, the divisors and the non-volatile stores, rollback counters among them (an advance that it
meets keeps the bits blown so far, R394); a system reset, at 2 ms of a low period, loses the volatile stores too.
The model's choices in it: notes/assumptions 31, 32, 35. -/
def Obligations.ResetsQualify : Prop :=
  (∀ s : State, s.rst.standby = false → s.rst.railsOn = true → s.rst.carrierLow = true → s.rst.inReset = false → s.rst.optLoad = false →
    s.life.removal = none → ∃ t, exec .coreResetQualify s = .next t ∧ t.rst.level = .core ∧ t.rst.inReset = true ∧ t.rst.moduleLow = true ∧
    t.rst.cores = s.rst.cores + 1 ∧ t.prs.stroke = 0 ∧ t.prs.actions = [] ∧ t.prs.data = [] ∧ t.dec = none ∧ t.ptn.rounds = [] ∧ t.hev.ctxs = [] ∧
    t.rdm.conns = [] ∧ t.rdm.windows = [] ∧ t.ring = none ∧ t.buf.wrings = [] ∧ t.buf.crings = [] ∧ t.mbx.jobs = [] ∧ t.mbx.fwReady = false ∧
    (s.ring = none → t.mpr = s.mpr ∧ t.mbx.seq = s.mbx.seq ∧ t.mbx.ring = s.mbx.ring ∧
      ∀ a, cellGet t.mem.cells a = if a < sramBase then cellGet s.mem.cells a else 0) ∧
    t.weights = s.weights ∧ t.pla.store = s.pla.store ∧ t.life = s.life ∧ t.clk.dies = s.clk.dies ∧ t.clk.capW = s.clk.capW ∧
    t.kst.serial = s.kst.serial ∧ (∀ n, n < 8 ∨ 27 < n → slotAt t n = slotAt s n) ∧ (∀ n, 8 ≤ n → n ≤ 23 → slotAt t n = none) ∧
    t.backup = s.backup ∧ t.mpr.filled = s.mpr.filled ∧ s.ctrlFw.counter ≤ t.ctrlFw.counter ∧ s.secFw.counter ≤ t.secFw.counter ∧
    ((∀ j ∈ s.mbx.jobs, j.opcode ≠ 0x0C01 ∧ j.opcode ≠ 0x0C04) → t.ctrlFw = s.ctrlFw ∧ t.secFw = s.secFw)) ∧
  (∀ s : State, s.rst.railsOn = true → s.rst.carrierLow = true → s.rst.inReset = true → s.rst.cores ≠ 0 → s.rst.level = .core ∨ s.rst.level = .system →
    ∃ t, exec .systemResetQualify s = .next t ∧ t.rst.level = .system ∧ t.rst.inReset = true ∧ t.mem = State.reset.mem ∧ t.mpr = State.reset.mpr ∧
    t.weights = none ∧ t.pla = State.reset.pla ∧ t.kst.slots = [] ∧ t.mbx.ring = none ∧ t.mbx.seq = 0 ∧ t.prs = State.reset.prs ∧
    t.hif = State.reset.hif ∧ t.life.stored = s.life.stored ∧ t.life.ownerKey = s.life.ownerKey ∧ t.life.plateKeys = s.life.plateKeys ∧
    t.kst.serial = s.kst.serial ∧ t.kst.seedBlown = s.kst.seedBlown ∧ t.ctrlFw = s.ctrlFw ∧ t.secFw = s.secFw ∧ t.backup = s.backup)

/-- OPTION_LOAD_DONE (R18, R380, R389, R329): option load ends, IDS becomes valid, the cause is recorded, bad records are counted and the first good
one of each type is used; after a reset that is
not a core one, the identity key stands in slot 0; a missing record stops boot with ALERT_N low.
The model's choices in it: notes/assumptions 33. -/
def Obligations.OptionLoadEnds : Prop :=
  ∀ (s : State) (records : List OptRecord) (missing ok1 ok2 : Bool), s.rst.railsOn = true → s.rst.optLoad = true → s.rst.inReset = false →
    let good := fun (r : OptRecord) => crc64 (BitVec.ofNat 64 r.addr) r.data == r.crc
    let bad := (records.filter (fun r => !good r)).length
    ∃ t, exec (.optionLoadDone records missing ok1 ok2) s = .next t ∧
    (∀ k, t.rst.options.find? (fun r => r.type == k) = records.find? (fun r => good r && r.type == k)) ∧ t.idsOk = true ∧ t.rst.optLoad = false ∧
    t.rst.last = lastCode s.rst.level ∧ t.rst.optBadCnt = min (s.rst.optBadCnt + bad) (2 ^ 32 - 1) ∧
    (s.rst.optBad = true ∨ bad ≠ 0 → t.rst.optBad = true) ∧
    t.rst.coreCnt = (if s.rst.level = .core then min (s.rst.coreCnt + s.rst.cores) (2 ^ 32 - 1) else s.rst.coreCnt) ∧
    (missing = true → t.rst.bootStopped = true ∧ t.pins.alertBoot = true) ∧
    (missing = false → s.rst.level ≠ .core → s.rst.bootStopped = false → s.kst.seedBlown = false →
      (slotAt t 0).map (·.secret) = some (bvBytes 32 Config.identitySeed)) ∧
    (s.rst.level = .core → missing = false → { t with idsOk := s.idsOk, rst := s.rst } = s) ∧
    t.mem = s.mem ∧ t.prs = s.prs ∧ t.clk = s.clk ∧ t.ports = s.ports

/-- FIRMWARE_READY, WATCHDOG_EXPIRE, ROLLBACK_ADVANCE (R308, R309, R324, R325, R425): the boot slot that passes its checks runs, FW_READY is set and the
console carries boot progress at the strapped rate; with
neither slot valid the module is in recovery; a watchdog that expires clears FW_READY and drives ALERT_N low; a counter moves up to the value
asked for, and never down.
The model's choices in it: notes/assumptions 33, 35. -/
def Obligations.FirmwareRuns : Prop :=
  (∀ (s : State) (other : Bool), s.rst.railsOn = true → s.rst.optLoad = false → s.rst.inReset = false → s.rst.bootStopped = false →
    s.mbx.fwReady = false → s.mbx.wdog = false → s.mbx.recovery = false → fwBootable s.ctrlFw s.ctrlFw.boot true = true → s.mbx.fallbackEv = [] →
    ∃ t, exec (.firmwareReady true other) s = .next t ∧ t.mbx = { s.mbx with fwReady := true } ∧
      t.ctrlFw.running = s.ctrlFw.boot ∧ t.ctrlFw.boot = s.ctrlFw.boot ∧ t.ctrlFw.counter = s.ctrlFw.counter ∧
      t.ctrlFw.runVer = (fwSlot s.ctrlFw s.ctrlFw.boot).version ∧ t.out = s.out ++ [.bootProgress] ∧
      t.pins = { s.pins with uart := some (if s.rst.strapFast then 115200 else 921600) } ∧
      { t with ctrlFw := s.ctrlFw, mbx := s.mbx, out := s.out, pins := s.pins } = s) ∧
  (∀ s : State, s.rst.railsOn = true → s.rst.optLoad = false → s.rst.inReset = false → s.rst.bootStopped = false →
    s.mbx.fwReady = false → s.mbx.wdog = false → s.mbx.recovery = false →
    exec (.firmwareReady false false) s = .next { s with mbx := { s.mbx with recovery := true } }) ∧
  (∀ (s : State) (core : Fin 4), s.rst.railsOn = true → s.mbx.fwReady = true → get4 s.mbx.halted core.val = false →
    exec (.watchdogExpire core) s = .next { s with pins := { s.pins with alertWdog := true }
                                                   mbx := { s.mbx with wdog := true, fwReady := false } }) ∧
  (∀ (s : State) (mb : MbId) (j : Job), Begun s mb 0x0C04 j → j.payload.length = 8 → zeroAt j.payload 1 3 = true → field j.payload 6 2 = 0 →
    field j.payload 4 2 ≤ 64 →
    (field j.payload 0 1 = 1 → field j.payload 4 2 ≤ s.ctrlFw.runSvn → exec (.rollbackAdvance mb) s =
      .next (answer j .ok { s with ctrlFw := { s.ctrlFw with counter := max s.ctrlFw.counter (field j.payload 4 2) } })) ∧
    (field j.payload 0 1 = 2 → field j.payload 4 2 ≤ s.secFw.runSvn → exec (.rollbackAdvance mb) s =
      .next (answer j .ok { s with secFw := { s.secFw with counter := max s.secFw.counter (field j.payload 4 2) } })))

/-- FW_STAGE, FW_ACTIVATE, FW_STATUS (R323, R324): a stage whose image lies in the host's memory asks for it; an accepted image stands STAGED in the
slot that does not run; a length out of range is refused, and a staged slot is emptied (which component's is a free choice of the module, notes/assumptions
3); FW_ACTIVATE makes a staged slot the boot slot; FW_STATUS changes nothing.
The model's choices in it: notes/assumptions 35. -/
def Obligations.FirmwareSlots : Prop :=
  (∀ (s : State) (mb : MbId) (j : Job) (sig : Bool), Begun s mb 0x0C01 j → j.payload.length = 16 → field j.payload 0 8 < 2 ^ 63 →
    fwLenBad (field j.payload 8 8) = false → fnReady s 0 = true →
    ∀ bad, exec (.fwStage ⟨mb, bad⟩ sig) s = .next (modJob j.order (fun x => { x with phase := 2 })
      (hostReadHead 0 (field j.payload 0 8) (field j.payload 8 8) 256 (.command mb.val j.order sig)
        (modJob j.order (fun x => { x with bad := bad }) s)))) ∧
  (∀ (s : State) (mb : MbId) (j : Job) (sig : Bool), Begun s mb 0x0C01 j → j.payload.length = 16 → badAddr (field j.payload 0 8) = false →
    fwLenBad (field j.payload 8 8) = true → ∃ c, (c = 1 ∨ c = 2) ∧ ∀ bad, ∃ t, exec (.fwStage ⟨mb, bad⟩ sig) s = .next (answer j .badArg t) ∧
      (fwSlot (compOf t c) (idleSlot (compOf s c))).state = 0) ∧
  (∀ (s : State) (mb : MbId) (j : Job) (a n : Nat), Begun s mb 0x0C01 j → j.payload.length = 16 → field j.payload 0 8 = 2 ^ 63 + a → a < 2 ^ 48 →
    field j.payload 8 8 = n → fwLenBad n = false → inHbm s a n = true → devOk s a n = true → poisonedAt s a n = false →
    let img := cellRead s.mem.cells a n
    fwHeaderBad img n = false → slice img 0x20 64 = bvBytes 64 Config.cehornFirmwareDigest →
    (compOf s (field img 6 1)).counter ≤ field img 0x0C 2 → s.mbx.recovery = false →
    ∃ t, exec (.fwStage ⟨mb, []⟩ true) s = .next (finish j .ok (leBytes 1 (field img 6 1) ++ leBytes 1 (idleSlot (compOf s (field img 6 1))) ++ zeros 2 ++
        leBytes 4 (field img 8 4) ++ leBytes 2 (field img 0x0C 2) ++ zeros 6 ++ fwDigestOf img) t) ∧
      fwSlot (compOf t (field img 6 1)) (idleSlot (compOf s (field img 6 1))) = ⟨1, field img 8 4, field img 0x0C 2, fwDigestOf img⟩ ∧
      (compOf t (field img 6 1)).boot = (compOf s (field img 6 1)).boot ∧
      countedHbm s { t with ctrlFw := s.ctrlFw, secFw := s.secFw, mbx := { t.mbx with jobs := s.mbx.jobs } }) ∧
  (∀ (s : State) (mb : MbId) (j : Job), Begun s mb 0x0C02 j → j.payload.length = 8 → zeroAt j.payload 1 7 = true →
    (field j.payload 0 1 = 1 → (fwSlot s.ctrlFw (1 - s.ctrlFw.running)).state = 1 → exec (.fwActivate mb) s =
      .next (answer j .ok { s with ctrlFw := { s.ctrlFw with boot := 1 - s.ctrlFw.running } })) ∧
    (field j.payload 0 1 = 2 → (fwSlot s.secFw (1 - s.secFw.running)).state = 1 → exec (.fwActivate mb) s =
      .next (answer j .ok { s with secFw := { s.secFw with boot := 1 - s.secFw.running } }))) ∧
  (∀ (s : State) (mb : MbId) (j : Job), Begun s mb 0x0C03 j → j.payload = zeros 8 →
    exec (.fwStatus mb) s = .next (finish j .ok (fwStatusOf s.ctrlFw ++ fwStatusOf s.secFw) s))

/-- INPUT_UNDERVOLTAGE, INPUT_OVERVOLTAGE, THERMAL_TRIP, BACKUP_TAMPER_LATCH, BACKUP_SUPPLY_LOSS (R366, R391, R400, R405, R428): the rails go off
with PWR_GOOD low, a trip is latched, and the backup domain keeps what it holds until its own supply goes.
The model's choices in it: notes/assumptions 34. -/
def Obligations.PowerLost : Prop :=
  (∀ s : State, s.rst.railsOn = true → ∃ t, exec .inputUndervoltage s = .next t ∧ exec .inputOvervoltage s = .next t ∧ t.rst.railsOn = false ∧
    t.rst.standby = false ∧ t.pins.pwrGood = false ∧ t.kst.slots = [] ∧ t.mem = State.reset.mem ∧ t.dec = none ∧ t.mbx.jobs = [] ∧
    t.backup = s.backup ∧ t.life.stored = s.life.stored ∧ t.kst.serial = s.kst.serial ∧ t.ctrlFw.counter = s.ctrlFw.counter) ∧
  (∀ (s : State) (die : Fin 5) (tj : Int), s.rst.railsOn = true → 115 ≤ tj → ∃ t, exec (.thermalTrip die tj) s = .next t ∧
    t.rst.railsOn = false ∧ t.pins.pwrGood = false ∧ t.kst.slots = [] ∧ t.backup = { s.backup with trip := true } ∧ t.life.stored = s.life.stored) ∧
  (∀ (s : State) (source : Nat), s.rst.railsOn = false → exec (.backupTamperLatch source) s =
    .next { s with backup := { s.backup with latched := insertNat source s.backup.latched } }) ∧
  (∀ s : State, s.rst.railsOn = false → s.rst.standby = false → exec .backupSupplyLoss s =
    .next { s with backup := { resetCount := 0, log := [], total := 0, latched := insertNat 7 s.backup.latched, trip := false } })

/-- TAMPER_ALARM (R365 to R368): an alarm of a module that runs is logged, empties the key store, HBM, SRAM and all work, sets the overlay and
drives ALERT_N low; in RETIRED it is only logged.
The model's choices in it: notes/assumptions 29. -/
def Obligations.TamperResponse : Prop :=
  (∀ (s : State) (source : Nat), s.rst.railsOn = true → s.life.stored ≠ .retired → s.life.removal = none → s.mbx.fwReady = true → ∃ t,
    exec (.tamperAlarm source) s = .next t ∧ t.life.overlay = true ∧ t.life.stored = s.life.stored ∧ t.life.resetSince = false ∧
    t.pins.alertTamper = true ∧ t.kst.slots = [] ∧ t.hif.linkIde = {} ∧ t.hif.selIde = {} ∧
    t.mpr.filled = false ∧ t.mpr.wiping = false ∧ t.weights = none ∧ t.pla.store = [] ∧
    ((∀ r, s.mbx.ring = some r → r.hbm = false ∧ r.tail < 2 ^ 63) → t.mem.cells = []) ∧ t.mem.poison = [] ∧ t.mem.parity = [] ∧
    t.dec = none ∧ t.ptn.rounds = [] ∧ t.hev.ctxs = [] ∧ t.rdm.conns = [] ∧ t.ring = none ∧ t.buf.wrings = [] ∧ t.buf.descs = [] ∧
    (∀ p ∈ list5 t.ports, p.txSa = [] ∧ p.rxSa = []) ∧
    t.backup.log.head? = some ⟨source, reportedState s, s.backup.resetCount, s.prs.stroke⟩ ∧ t.backup.total = min (s.backup.total + 1) (2 ^ 32 - 1) ∧
    t.life.ownerKey = s.life.ownerKey ∧ t.ctrlFw.counter = s.ctrlFw.counter ∧ t.rst = s.rst) ∧
  (∀ (s : State) (source : Nat), s.rst.railsOn = true → s.life.stored = .retired → ∃ t, exec (.tamperAlarm source) s = .next t ∧
    t.backup.log.head? = some ⟨source, reportedState s, s.backup.resetCount, s.prs.stroke⟩ ∧ t.life.overlay = s.life.overlay ∧
    { t with backup := s.backup, life := { t.life with resetSince := s.life.resetSince, inAlarm := s.life.inAlarm } } = s)

/-! ## Events and status -/

/-- The event's post, EVENT_RING_SET, EVENT_RING_CLEAR, EVENT_RING_DOORBELL, EVENT_IRQ_COALESCE_EXPIRE (R306, R319 to R321, R425, Table 16-6): every event
takes the next sequence number; with no ring, or a full one, it is lost and counted; a family that the mask leaves out is dropped, unless it is fatal;
else its 32 bytes go to the next place of the ring, the producer index to the tail, and one message is sent unless the interval after the last one is
open; from FW_READY on the console says its code and number. In RUN the requests carry T = 1. A ring that obeys R274 is set with both indices 0; clearing
leaves none; the doorbell moves the consumer index no further than the producer; the interval's end sends the message that waited.
The model's choices in it: notes/assumptions 3, 11, 58. -/
def Obligations.EventRingCommands : Prop :=
  (∀ (code sev a0 a1 : Nat) (s : State),
     let next := { s.mbx with seq := (s.mbx.seq + 1) % 2 ^ 32 }
     let lost := { s with mbx := { next with overrun := true, lost := min (s.mbx.lost + 1) (2 ^ 32 - 1) } }
     (s.mbx.ring = none → postEvent code sev a0 a1 s = lost) ∧
     (∀ r, s.mbx.ring = some r →
       let used := (r.producer + 2 ^ 32 - r.consumer) % 2 ^ 32
       (sev ≠ 3 → r.mask.getLsbD (code / 256) = false → postEvent code sev a0 a1 s = { s with mbx := next }) ∧
       ((sev = 3 ∨ r.mask.getLsbD (code / 256) = true) → used = 2 ^ r.k → postEvent code sev a0 a1 s = lost) ∧
       ((sev = 3 ∨ r.mask.getLsbD (code / 256) = true) → used ≠ 2 ^ r.k → r.hbm = false → decodeAddr r.tail = .host r.tail → fnReady s 0 = true →
         r.vector ≠ 0xFFFF →
         let p := (r.producer + 1) % 2 ^ 32
         postEvent code sev a0 a1 s = { s with
           mbx := { next with ring := some { r with producer := p }, irqOpen := true, irqPending := s.mbx.irqPending || s.mbx.irqOpen }
           out := s.out ++ onBus s (.hostWrite 0 (r.base + 32 * (r.producer % 2 ^ r.k))
               (leBytes 2 code ++ leBytes 1 sev ++ [0] ++ leBytes 4 s.mbx.seq ++ leBytes 8 s.prs.stroke ++ leBytes 8 a0 ++ leBytes 8 a1)) ++
             onBus s (.hostWrite 0 r.tail (leBytes 4 p ++ zeros 4)) ++ (if s.mbx.irqOpen then [] else onBus s (.msix 0 r.vector)) ++
             (if s.mbx.fwReady then [.console code s.mbx.seq] else []) }))) ∧
  (∀ (s : State) (mb : MbId) (j : Job), runJob s mb 0x0110 = some j → s.mbx.ring = none → s.mbx.fallbackEv = [] → j.payload.length = 32 →
    field j.payload 0 1 ≤ 1 → zeroAt j.payload 4 4 = true → 4 ≤ field j.payload 1 1 → field j.payload 1 1 ≤ 16 →
    (field j.payload 2 2 ≤ 63 ∨ field j.payload 2 2 = 0xFFFF) →
    ringBaseBad s (field j.payload 0 1) (field j.payload 8 8) (32 * 2 ^ field j.payload 1 1) = false →
    tailBad s (field j.payload 16 8) = false → field j.payload 24 8 < 2 ^ 13 → field j.payload 24 8 % 2 = 0 →
    let r : EventRing := { hbm := field j.payload 0 1 == 1, k := field j.payload 1 1, vector := field j.payload 2 2,
                           base := if field j.payload 0 1 = 1 then field j.payload 8 8 % 2 ^ 48 else field j.payload 8 8,
                           tail := field j.payload 16 8, mask := BitVec.ofNat 64 (field j.payload 24 8), producer := 0, consumer := 0 }
    exec (.eventRingSet mb) s = .next (answer j .ok { s with mbx := { s.mbx with ring := some r } })) ∧
  (∀ (s : State) (mb : MbId) (j : Job), runJob s mb 0x0111 = some j → j.payload = zeros 8 → exec (.eventRingClear mb) s =
    .next (answer j .ok { s with mbx := { s.mbx with ring := none, irqOpen := false, irqPending := false } })) ∧
  (∀ (s : State) (secure : Bool) (v : BitVec 64) (r : EventRing), HostWrites s secure → s.rst.optLoad = false → s.rst.inReset = false →
    s.mbx.ring = some r → (v.toNat % 2 ^ 32 + 2 ^ 32 - r.consumer) % 2 ^ 32 ≤ (r.producer + 2 ^ 32 - r.consumer) % 2 ^ 32 →
    exec (.eventRingDoorbell secure v) s = .next { s with mbx := { s.mbx with ring := some { r with consumer := v.toNat % 2 ^ 32 } } }) ∧
  (∀ (s : State) (r : EventRing), s.mbx.ring = some r → s.mbx.irqPending = true → fnReady s 0 = true → exec .eventIrqCoalesceExpire s =
    .next { s with mbx := { s.mbx with irqPending := false }, out := s.out ++ onBus s (.msix 0 r.vector) }) ∧
  (∀ s : State, s.mbx.irqPending = false → exec .eventIrqCoalesceExpire s = .next { s with mbx := { s.mbx with irqOpen := false } })

/-- IDENTITY_GET, MODULE_STATUS, LIFECYCLE_GET, FABRIC_STATUS (Tables 17-4, 22-6, 18-3, 3-7): each completes with the bytes of its table, and
changes nothing. -/
def Obligations.StatusCommands : Prop :=
  (∀ (s : State) (mb : MbId) (j : Job) (k : KeySlot), Begun s mb 0x0101 j → j.payload = zeros 8 → slotAt s 0 = some k → ∃ p,
    exec (.identityGet mb) s = .next (finish j .ok p s) ∧ slice p 0 2 = leBytes 2 s.partId.toNat ∧ slice p 2 1 = leBytes 1 (reportedState s) ∧
    slice p 3 1 = [0] ∧ slice p 4 4 = leBytes 4 s.backup.resetCount ∧ slice p 8 64 = sha512 k.pub ∧ p.drop 72 = k.pub) ∧
  (∀ (s : State) (mb : MbId) (j : Job), Begun s mb 0x0102 j → j.payload = zeros 8 → ∃ p,
    exec (.moduleStatus mb) s = .next (finish j .ok p s) ∧ p.length = 32 ∧ slice p 0 1 = leBytes 1 (reportedState s) ∧
    slice p 1 1 = leBytes 1 (lifecycleCode s.life.stored) ∧ slice p 2 2 = leBytes 2 s.partId.toNat ∧ slice p 4 4 = leBytes 4 (cpStatus s) ∧
    slice p 8 8 = leBytes 8 s.prs.stroke ∧
    (∀ f < 8, (field p 16 1).testBit f = (decide (f < 5) && (get5 s.hif.fns f).fenced)) ∧
    (∀ f < 8, (field p 17 1).testBit f = (decide (f < 5) && (get5 s.hif.fns f).quiesced)) ∧ slice p 18 1 = leBytes 1 (b2n s.dec.isSome) ∧
    slice p 19 1 = leBytes 1 s.ptn.rounds.length ∧ slice p 20 1 = leBytes 1 s.hev.ctxs.length ∧
    slice p 21 1 = leBytes 1 (s.ring.elim 0 (fun r => r.state)) ∧ slice p 22 2 = leBytes 2 s.tst.last ∧
    (∀ i < 5, slice p (24 + i) 1 = bvBytes 1 (BitVec.ofInt 8 (get5 s.clk.temps i).tj)) ∧ slice p 29 1 = [0] ∧
    slice p 30 2 = leBytes 2 (powerReading s)) ∧
  (∀ (s : State) (mb : MbId) (j : Job), Begun s mb 0x0201 j → j.payload = zeros 8 → ∃ p,
    exec (.lifecycleGet mb) s = .next (finish j .ok p s) ∧ p.length = 336 ∧ slice p 0 1 = leBytes 1 (reportedState s) ∧
    slice p 1 1 = leBytes 1 (lifecycleCode s.life.stored) ∧ slice p 2 2 = [0, 0] ∧ slice p 4 4 = leBytes 4 s.life.ownerSeq ∧
    slice p 8 64 = (if s.life.ownerKey = [] then zeros 64 else sha512 s.life.ownerKey) ∧ slice p 72 4 = leBytes 4 s.backup.total ∧
    slice p 76 4 = zeros 4 ∧ slice p 80 256 = fit 256 (s.backup.log.flatMap logEntry)) ∧
  (∀ (s : State) (mb : MbId) (j : Job), Begun s mb 0x0404 j → j.payload = [] → ∃ p,
    exec (.fabricStatus mb) s = .next (finish j .ok p s) ∧ p.length = 84 ∧ slice p 0 4 = leBytes 4 (~~~(sheetBusy s ||| testSheets s)).toNat ∧
    slice p 4 4 = leBytes 4 (sheetTwin s).toNat ∧ slice p 8 4 = leBytes 4 s.pla.store.length ∧
    slice p 12 8 = leBytes 8 (s.pla.store.map (fun x => x.image.length)).sum ∧
    ∀ i < 32, slice p (20 + 2 * i) 2 = leBytes 2 (freeBanks s i))

/-! ## Lifecycle -/

/-- OWNER_CLAIM, MODE_SET, OWNER_RELEASE, RETIRE, TAMPER_UNLOCK (R347 to R351, R354, R368): a command whose signature and sequence number are right
consumes the number and removes the tenant; the new state is written when the zero fill ends. Every key but the identity key is gone. An unlock while a
source is in alarm, or with no reset since, is refused.
The model's choices in it: notes/assumptions 28, 30. -/
def Obligations.LifecycleChanges : Prop :=
  let removed := fun (s t : State) (j : Job) (target : Lifecycle) (owner : Bytes) (clearOvl : Bool) =>
    t.life.removal = some { mb := j.mb, order := j.order, target := target, clearOvl := clearOvl, fromCode := reportedState s, owner := owner } ∧
    TenantGone t ∧ (∀ k ∈ t.kst.slots, k.slot = 0) ∧ t.hif.linkIde = {} ∧ t.hif.selIde = {} ∧
    t.life.stored = s.life.stored ∧ t.life.ownerKey = s.life.ownerKey ∧ t.life.enrolCount = 0 ∧
    t.ctrlFw = s.ctrlFw ∧ t.secFw = s.secFw ∧ t.backup = s.backup ∧ t.rst = s.rst ∧ t.clk = s.clk ∧ t.now = s.now
  (∀ (s : State) (mb : MbId) (j : Job) (m : Lifecycle), Begun s mb 0x0202 j → s.life.stored = .provisioned → s.life.overlay = false →
    j.payload.length = 7227 → modeState (field j.payload 0 1) = some m → zeroAt j.payload 1 7 = true →
    ∃ t, exec (.ownerClaim mb true) s = .next t ∧ removed s t j m (slice j.payload 8 2592) false ∧ t.life.ownerSeq = 0) ∧
  (∀ (s : State) (mb : MbId) (j : Job) (m : Lifecycle), Begun s mb 0x0203 j → ownedOpen s = true ∨ ownedConfidential s = true →
    j.payload.length = 4635 → modeState (field j.payload 0 1) = some m → m ≠ s.life.stored → zeroAt j.payload 1 3 = true →
    field j.payload 4 4 = s.life.ownerSeq →
    ∃ t, exec (.modeSet mb true) s = .next t ∧ removed s t j m [] false ∧ t.life.ownerSeq = (s.life.ownerSeq + 1) % 2 ^ 32) ∧
  (∀ (s : State) (mb : MbId) (j : Job), Begun s mb 0x0204 j → ownedOpen s = true ∨ ownedConfidential s = true →
    j.payload.length = 4635 → zeroAt j.payload 0 4 = true → field j.payload 4 4 = s.life.ownerSeq →
    ∃ t, exec (.ownerRelease mb true) s = .next t ∧ removed s t j .provisioned [] false ∧ t.life.ownerSeq = (s.life.ownerSeq + 1) % 2 ^ 32) ∧
  (∀ (s : State) (mb : MbId) (j : Job), Begun s mb 0x0205 j → s.life.stored ≠ .manufacture → s.life.stored ≠ .retired →
    j.payload.length = 4635 → zeroAt j.payload 0 4 = true → field j.payload 4 4 = s.life.ownerSeq →
    ∃ t, exec (.retire mb true) s = .next t ∧ removed s t j .retired [] s.life.overlay ∧ t.life.ownerSeq = (s.life.ownerSeq + 1) % 2 ^ 32) ∧
  (∀ (s : State) (mb : MbId) (j : Job) (inAlarm : List Nat), Begun s mb 0x0206 j → s.life.overlay = true →
    j.payload.length = 4635 → zeroAt j.payload 0 4 = true → field j.payload 4 4 = s.life.ownerSeq →
    (s.life.resetSince = true → inAlarm = [] → ∃ t, exec (.tamperUnlock ⟨mb, inAlarm⟩ true) s = .next t ∧
      removed s t j s.life.stored [] true ∧ t.life.overlay = false ∧ t.life.ownerSeq = (s.life.ownerSeq + 1) % 2 ^ 32) ∧
    (s.life.resetSince = false ∨ inAlarm ≠ [] → exec (.tamperUnlock ⟨mb, inAlarm⟩ true) s =
      .next (answer j .tamperLocked { s with life := { s.life with inAlarm := inAlarm } })))

/-- HBM_TRAINING_DONE, HBM_ZERO_FILL_DONE, HBM_KEY_ROTATE, HBM_SWEEP_DONE (R353, R354, R362, R393): the fill starts under a fresh key A; its end
leaves every line readable and 0, and finishes the removal that waits for it; a rotation makes a fresh key active, and the end of its sweep
destroys the old one.
The model's choices in it: notes/assumptions 16, 39, 75. -/
def Obligations.MemoryKeys : Prop :=
  (∀ s : State, securityUp s = true → s.mpr.trained = false → s.mpr.filled = false → s.mpr.wiping = false → s.life.overlay = false →
    s.rst.inReset = false → s.rst.optLoad = false → drbgServes s = true → ∃ t,
    exec .hbmTrainingDone s = .next t ∧ t.mpr = { s.mpr with trained := true, wiping := true, activeB := false, epoch := 0, pages := [] } ∧
    (slotAt t 2).map (fun k => (k.type, k.origin, k.secret)) = some (3, 1, (drbgTake 32 s).1) ∧
    (∀ n, n ≠ 2 → n ≠ 4 → slotAt t n = slotAt s n) ∧ drewBytes s { t with mpr := s.mpr }) ∧
  (∀ s : State, s.mpr.wiping = true → s.life.removal = none → ∃ t, exec .hbmZeroFillDone s = .next t ∧
    t.mpr.wiping = false ∧ t.mpr.filled = true ∧ t.mem.poison = [] ∧
    (∀ p < hbmSize s / 4096, pageOf t p = { page := p, count := 1, major := 0, slotB := s.mpr.activeB, readOnly := false, epoch := 0,
                                            common := 1, minors := [] }) ∧
    (∀ a, cellGet t.mem.cells a = if a < sramBase then 0 else cellGet s.mem.cells a) ∧
    countedHbm s { t with mpr := { t.mpr with wiping := s.mpr.wiping, filled := s.mpr.filled }
                          mem := { t.mem with cells := s.mem.cells, poison := s.mem.poison } }) ∧
  (∀ (s : State) (r : Removal), s.mpr.wiping = true → s.life.removal = some r → ∃ t, exec .hbmZeroFillDone s = .next t ∧
    t.mpr.filled = true ∧ t.mpr.wiping = false ∧ t.life.removal = none ∧ t.life.stored = r.target ∧ t.hif.tdi = .unlocked ∧
    t.life.ownerKey = (if r.target = .retired ∨ (r.target = .provisioned ∧ r.fromCode ≠ 6) then []
      else if r.owner = [] then s.life.ownerKey else r.owner) ∧
    t.life.ownerSeq = (if r.target = .retired ∨ (r.target = .provisioned ∧ r.fromCode ≠ 6) then 0 else s.life.ownerSeq) ∧
    (r.target = .retired → t.kst.seedBlown = true) ∧
    (∀ j, jobAt s r.order = some j → (firmwareRuns s = true → jobAt t r.order = none) ∧
      (firmwareRuns s = false → (jobAt t r.order).map (·.ended) = some (some ⟨none, .ok, []⟩)))) ∧
  (∀ (s : State) (mb : MbId) (j : Job), runJob s mb 0x0309 = some j → j.payload = zeros 8 → s.mpr.sweep = false → s.mpr.wiping = false →
    s.mpr.filled = true → drbgServes s = true → ∃ t, exec (.hbmKeyRotate mb) s = .next (answer j .ok t) ∧
    t.mpr = { s.mpr with activeB := !s.mpr.activeB, sweep := true, sweepPct := 0 } ∧
    (slotAt t (if s.mpr.activeB then 2 else 3)).map (fun k => (k.type, k.secret)) = some (3, (drbgTake 32 s).1) ∧
    (∀ n, n ≠ (if s.mpr.activeB then 2 else 3) → n ≠ 4 → slotAt t n = slotAt s n) ∧ drewBytes s { t with mpr := s.mpr }) ∧
  (∀ s : State, s.mpr.sweep = true → let old := if s.mpr.activeB then 2 else 3
    exec .hbmSweepDone s = .next (postEvent 0x0301 0 old 0 { s with
      mpr := { s.mpr with sweep := false, sweepPct := 100, pages := s.mpr.pages.map (toSlot s.mpr.activeB) }
      kst := { s.kst with slots := s.kst.slots.filter (fun k => k.slot != old) } }))

/-- R357: what stands in the stacks for a line: the AES-256-GCM encryption of its 64 bytes under the key of its page's slot, A or B, with no associated data
and the nonce of its line index in 5 bytes and its version in 7, beside the first 7 bytes of the tag; the version of a written line is
MAJOR * 256 + MINOR, whose bit 55 is 0. What stands there opens to the plaintext again, and with any other MAC to nothing. -/
def Obligations.HbmLinesAsStored : Prop :=
  ∀ (s : State) (a : Nat) (k : KeySlot), slotAt s (if (pageOf s (a / 4096)).slotB then 3 else 2) = some k →
    let m := pageOf s (a / 4096)
    let written := m.major * 256 + lineMinor m (a / 64 % 64)
    let version := if m.readOnly then 2 ^ 55 + m.epoch else written
    let plain := cellRead s.mem.cells (a / 64 * 64) 64
    let sealed := gcmSeal k.secret (leBytes 5 (a / 64) ++ leBytes 7 version) [] plain
    storedLine s a = sealed.1 ∧ lineMac s a (storedLine s a) = sealed.2.take 7 ∧
    (m.major < 2 ^ 47 → lineMinor m (a / 64 % 64) < 256 → written < 2 ^ 55 ∧ written / 256 = m.major ∧ written % 256 = lineMinor m (a / 64 % 64)) ∧
    openLine s a (storedLine s a) (lineMac s a (storedLine s a)) = some plain ∧
    (∀ mac, mac ≠ lineMac s a (storedLine s a) → openLine s a (storedLine s a) mac = none)

/-! ## Keys and attestation -/

/-- KEY_GENERATE, KEY_IMPORT_WRAPPED, KEY_DESTROY, KEY_SLOT_STATUS, PLATE_KEY_ENROLL (R335 to R339, R343, Table 17-5).
The model's choices in it: notes/assumptions 1, 36. -/
def Obligations.KeyCommands : Prop :=
  (∀ (s : State) (mb : MbId) (j : Job) (n : Nat), Begun s mb 0x0301 j → j.payload = 1 :: zeros 7 → freeTenant s = some n →
    (s.kst.slots.filter (fun k => bit k.mask 6)).length < 8 → drbgServes s = true → ∃ t p k,
    exec (.keyGenerate mb) s = .next (finish j .ok p t) ∧ slotAt t n = some k ∧ k.type = 1 ∧ k.origin = 1 ∧ k.mask = 0x40 ∧ k.nonExport = true ∧
    k.pub = bvBytes 1568 (Config.mlkemPub k.secret) ∧ p = leBytes 2 n ++ zeros 6 ++ sha512 k.pub ++ k.pub ∧
    k.secret = (drbgTake 64 s).1 ∧ (∀ m, m ≠ n → m ≠ 4 → slotAt t m = slotAt s m) ∧ drewBytes s t) ∧
  (∀ (s : State) (mb : MbId) (j : Job) (n : Nat) (k : KeySlot) (key : Bytes), Begun s mb 0x0302 j → j.payload.length = 1760 →
    wrapBad j.payload = false → slotAt s (field j.payload 8 2) = some k → bit k.mask 6 = true → attestReady s = true →
    slice j.payload 0x10 64 = attestDigest s → unwrap k j.payload = some key → freeTenant s = some n → ∃ t,
    exec (.keyImportWrapped mb) s = .next (finish j .ok (leBytes 2 n ++ zeros 6) t) ∧
    slotAt t n = some { slot := n, type := 3, origin := 2, mask := field j.payload 6 2, nonExport := false, secret := key, pub := []
                        bound := slice j.payload 0x50 64 } ∧
    (∀ m, m ≠ n → slotAt t m = slotAt s m) ∧ { t with kst := { t.kst with slots := s.kst.slots } } = s) ∧
  (∀ (s : State) (mb : MbId) (j : Job), Begun s mb 0x0303 j → j.payload.length = 8 → zeroAt j.payload 2 6 = true → 64 ≤ field j.payload 0 2 →
    field j.payload 0 2 ≤ 255 → (slotAt s (field j.payload 0 2)).isSome = true → slotInUse s (field j.payload 0 2) = false →
    exec (.keyDestroy mb) s = .next (answer j .ok { s with kst := { s.kst with
      slots := s.kst.slots.filter (fun k => k.slot != field j.payload 0 2) } })) ∧
  (∀ (s : State) (mb : MbId) (j : Job), Begun s mb 0x0304 j → j.payload.length = 8 → zeroAt j.payload 2 6 = true → 64 ≤ field j.payload 0 2 →
    field j.payload 0 2 ≤ 255 → ∃ p, exec (.keySlotStatus mb) s = .next (finish j .ok p s) ∧
    (slotAt s (field j.payload 0 2) = none → p = zeros 72) ∧
    (∀ k, slotAt s (field j.payload 0 2) = some k → slice p 0 4 = [1] ++ leBytes 1 k.type ++ leBytes 1 k.origin ++ leBytes 1 (b2n k.nonExport) ∧
      slice p 4 2 = leBytes 2 k.mask ∧ p.drop 8 = keyDigest k)) ∧
  (∀ (s : State) (mb : MbId) (j : Job), Begun s mb 0x0308 j → j.payload.length = 7227 → field j.payload 0 1 ≤ 3 → field j.payload 1 1 ≤ 1 →
    field j.payload 2 2 = 0 → (field j.payload 1 1 = 0 → zeroAt j.payload 8 2592 = true) → s.life.ownerKey ≠ [] → field j.payload 4 4 = s.life.enrolCount →
    s.pla.store.all (fun p => p.signer != sha512 (get4 s.life.plateKeys (field j.payload 0 1))) = true →
    exec (.plateKeyEnroll mb true) s = .next (answer j .ok { s with life := { s.life with
      plateKeys := mod4 s.life.plateKeys (field j.payload 0 1) (fun _ => if field j.payload 1 1 = 1 then slice j.payload 8 2592 else [])
      enrolCount := (s.life.enrolCount + 1) % 2 ^ 32 } }))

/-- KEY_ORIGIN_STATEMENT, ATTEST_REPORT, CERT_CHAIN_GET (R331, R340, R341): the signed records carry the nonce and what the module holds, and cost
one request of the generator; the chain is read in pieces.
The model's choices in it: notes/assumptions 1, 36. -/
def Obligations.AttestationCommands : Prop :=
  (∀ (s : State) (mb : MbId) (j : Job) (k id : KeySlot), Begun s mb 0x0305 j → j.payload.length = 40 → zeroAt j.payload 2 6 = true →
    64 ≤ field j.payload 0 2 → field j.payload 0 2 ≤ 255 → slotAt s (field j.payload 0 2) = some k → k.type ≠ 3 → slotAt s 0 = some id →
    drbgGrants 1 3 s = true → ∃ t p, exec (.keyOriginStatement mb) s = .next (finish j .ok p t) ∧
    slice p 0 4 = leBytes 4 0x4F4B584F ∧ slice p 6 2 = leBytes 2 k.slot ∧ slice p 32 32 = slice j.payload 8 32 ∧ slice p 64 64 = keyDigest k ∧
    slice p 128 64 = identityDigest s ∧ slice p 192 4627 = bvBytes 4627 (Config.mldsaSign id.secret (p.take 192) (drbgTake 32 s).1) ∧
    drewOnly s t) ∧
  (∀ (s : State) (mb : MbId) (j : Job) (k : KeySlot), Begun s mb 0x0306 j → j.payload.length = 32 → slotAt s 1 = some k → drbgGrants 1 3 s = true →
    ∃ t p, exec (.attestReport mb) s = .next (finish j .ok p t) ∧ slice p 0 4 = leBytes 4 0x5241584F ∧ slice p 8 1 = leBytes 1 (reportedState s) ∧
    slice p 10 2 = leBytes 2 s.partId.toNat ∧ slice p 12 1 = leBytes 1 s.ctrlFw.counter ∧ slice p 13 1 = leBytes 1 s.secFw.counter ∧
    slice p 32 32 = j.payload ∧ slice p 64 64 = identityDigest s ∧ slice p 128 64 = attestDigest s ∧
    drewOnly s t) ∧
  (∀ (s : State) (mb : MbId) (j : Job), Begun s mb 0x0307 j → j.payload.length = 8 → 1 ≤ field j.payload 4 4 → field j.payload 4 4 ≤ 16312 →
    attestReady s = true → field j.payload 0 4 < s.kst.chain.length →
    exec (.certChainGet mb) s = .next (finish j .ok (leBytes 4 s.kst.chain.length ++ zeros 4 ++
      slice s.kst.chain (field j.payload 0 4) (field j.payload 4 4)) s))

/-! ## Entropy -/

/-- ENTROPY_BLOCK, DRBG_INSTANTIATE, DRBG_RESEED (R370 to R376), RANDOM_GET, RANDOM_GET_TIMEOUT, ENTROPY_WAIT_TIMEOUT (R377, R378, R119): a
block's health tests are counted for its source; four passing blocks finish the start-up test, and a failure restarts it; two outputs of the
conditioner seed the generator, with the identity digest's first 48 bytes at instantiation, and what waited for it is served; a random
command gets what CTR_DRBG yields, in one request of the generator, and one that has waited 1 ms ends with ENTROPY_NOT_READY.
The model's choices in it: notes/assumptions 38. -/
def Obligations.EntropyAndRandomBytes : Prop :=
  (∀ (s : State) (src : Fin 8) (bits : BitVec 1024) (x : NoiseSource), securityUp s = true → s.ent.sources[src.val]? = some x →
    let fails := (rctBlock (blockBits bits) x).2 || aptFires (blockBits bits)
    ∃ t y, exec (.entropyBlock src bits) s = .next t ∧ t.ent.sources[src.val]? = some y ∧
    y.rctFail = (if (rctBlock (blockBits bits) x).2 then min (x.rctFail + 1) 65535 else x.rctFail) ∧
    y.aptFail = (if aptFires (blockBits bits) then min (x.aptFail + 1) 65535 else x.aptFail) ∧
    y.passed = (if x.passed = 4 then 4 else if fails then 0 else x.passed + 1) ∧
    t.ent.sticky = (if fails then s.ent.sticky ||| 1 else s.ent.sticky) ∧
    (∀ i, i ≠ src.val → t.ent.sources[i]? = s.ent.sources[i]?) ∧ { t with ent := s.ent } = s) ∧
  (∀ s : State, securityUp s = true → drbgLive s = false → 2 ≤ s.ent.outputs.length → ∃ t, exec .drbgInstantiate s = .next t ∧
    drbgLive t = true ∧ t.ent.ready = true ∧ t.ent.outputs = s.ent.outputs.drop 2 ∧ t.ent.reseedCnt = min (s.ent.reseedCnt + 1) (2 ^ 32 - 1) ∧
    ∃ u, t = serveInternal u ∧ drbgState u = drbgInit (entropyInput s) ((identityDigest s).take 48) ∧ u.ent.requests = 0 ∧ u.ent.reseeding = false ∧
      (∀ n, n ≠ 4 → slotAt u n = slotAt s n) ∧ { u with ent := s.ent, kst := { u.kst with slots := s.kst.slots } } = s) ∧
  (∀ s : State, securityUp s = true → drbgLive s = true → s.ent.reseeding = true → 2 ≤ s.ent.outputs.length → ∃ t, exec .drbgReseed s = .next t ∧
    drbgLive t = true ∧ t.ent.ready = true ∧ t.ent.outputs = s.ent.outputs.drop 2 ∧ t.ent.reseedCnt = min (s.ent.reseedCnt + 1) (2 ^ 32 - 1) ∧
    ∃ u, t = serveInternal u ∧ drbgState u = drbgUpdate (entropyInput s) (drbgState s) ∧ u.ent.requests = 0 ∧ u.ent.reseeding = false ∧
      (∀ n, n ≠ 4 → slotAt u n = slotAt s n) ∧ { u with ent := s.ent, kst := { u.kst with slots := s.kst.slots } } = s) ∧
  (∀ (s : State) (mb : MbId) (j : Job), runJob s mb 0x030A = some j → j.payload.length = 8 → 1 ≤ field j.payload 0 2 → field j.payload 0 2 ≤ 16320 →
    zeroAt j.payload 2 6 = true → drbgGrants 1 5 s = true →
    let r := drbgGenerate (field j.payload 0 2) (drbgState s)
    r.1.length = field j.payload 0 2 ∧ ∃ t, exec (.randomGet mb) s = .next (finish j .ok r.1 t) ∧ drbgState t = r.2 ∧
      t.ent = { s.ent with requests := s.ent.requests + 1, reseeding := s.ent.reseeding || decide (49152 ≤ s.ent.requests + 1), drbgV := r.2.2 } ∧
      drewOnly s t) ∧
  (∀ (s : State) (mb : MbId) (j : Job), runJob s mb 0x030A = some j → j.phase = 2 → drbgGrants 1 5 s = false → exec (.randomGetTimeout mb) s =
      .next (answer j .entropyNotReady { s with ent := { s.ent with hostWait := min (s.ent.hostWait + 1) (2 ^ 32 - 1) } })) ∧
  (∀ (s : State) (mb : MbId) (j : Job), firmwareRuns s = true →
    s.mbx.jobs.find? (fun x => x.mb == mb.val && x.phase == 2 && (x.opcode == 0x0501 || x.opcode == 0x0309)) = some j →
    drbgGrants 1 (if j.opcode = 0x0501 then 3 else 2) s = false → exec (.entropyWaitTimeout mb) s = .next (answer j .entropyNotReady s))

/-! ## Test and telemetry -/

/-- SNAPSHOT_ARM, SNAPSHOT_READ, SNAPSHOT_DONE (R50, R414, R416): a snapshot of a stroke to come is armed; the buffer is read in pieces; a
latched snapshot fills the buffer, and its end is an event.
The model's choices in it: notes/assumptions 9, 41, 42. -/
def Obligations.Snapshots : Prop :=
  (∀ (s : State) (mb : MbId) (j : Job), Begun s mb 0x0B04 j → j.payload.length = 8 → s.prs.snapPending = false → s.prs.stroke < field j.payload 0 8 →
    (confidential s = true → ∀ u, s.prs.snapTime = some u → u + 1000000 ≤ s.now) → exec (.snapshotArm mb) s =
      .next (answer j .ok { s with prs := { s.prs with snapAt := field j.payload 0 8, snapPending := true, snapTarget := field j.payload 0 8 } })) ∧
  (∀ (s : State) (mb : MbId) (j : Job), Begun s mb 0x0B05 j → j.payload.length = 8 → 1 ≤ field j.payload 4 4 → field j.payload 4 4 ≤ 16312 →
    field j.payload 0 4 < 0x10000 → s.prs.snapLatched = false → ∃ p, exec (.snapshotRead mb) s =
      .next (finish j .ok p { s with draw := s.draw + 0x10000 }) ∧ p.length = min (field j.payload 4 4) (0x10000 - field j.payload 0 4) ∧
      ∀ i < p.length, (field j.payload 0 4 + i < 8 ∨ 12 ≤ field j.payload 0 4 + i) → p[i]? = some (cellGet s.tst.buffer (field j.payload 0 4 + i))) ∧
  (∀ s : State, s.prs.snapLatched = true → exec .snapshotDone s = .next (postEvent 0x0B01 0 s.prs.snapTarget 0 { s with
    tst := { s.tst with buffer := s.tst.latched, latched := [], seq := (s.tst.seq + 1) % 2 ^ 32 }
    prs := { s.prs with snapPending := false, snapLatched := false, snapDone := true } }))

/-- BIST_LOGIC, BIST_MEMORY, HBM_PATTERN_TEST, SELF_TEST_DONE (R377, R410 to R413): a test of what nothing uses takes hold of it, and one
of the platen seeds the test key of its mask generators; a test of blocks ends the commands of families 0x04 to 0x0A with BUSY; a logic test ends with its signatures, and the gravers it tested are wiped.
The model's choices in it: notes/assumptions 36, 40. -/
def Obligations.SelfTests : Prop :=
  (∀ (s : State) (mb : MbId) (j : Job), Begun s mb 0x0B01 j → j.payload.length = 8 → field j.payload 6 2 = 0 → field j.payload 4 2 < 64 →
    testBlocked s (BitVec.ofNat 32 (field j.payload 0 4)) (field j.payload 4 2) = false →
    let held := fun (s : State) =>
      let t := if field j.payload 4 2 = 0 then s else dropJobReads (endJobs workJob .busy s)
      waitJob j 1 { t with tst := { t.tst with
      running := some (1, BitVec.ofNat 32 (field j.payload 0 4), field j.payload 4 2) } }
    (bit (field j.payload 4 2) 3 = false → exec (.bistLogic mb) s = .next (held s)) ∧
    (bit (field j.payload 4 2) 3 = true → drbgGrants 1 4 s = true → ∃ t, exec (.bistLogic mb) s = .next (held t) ∧
      (slotAt t 5).map (fun k => (k.type, k.origin, k.mask, k.secret)) = some (3, 1, 0x100, (drbgTake 32 s).1) ∧
      (∀ n, n ≠ 4 → n ≠ 5 → slotAt t n = slotAt s n) ∧ drewBytes s t)) ∧
  (∀ (s : State) (mb : MbId) (j : Job), Begun s mb 0x0B02 j → j.payload.length = 8 → zeroAt j.payload 5 3 = true → field j.payload 4 1 ≤ 1 →
    testBlocked s (BitVec.ofNat 32 (field j.payload 0 4)) (field j.payload 4 1) = false →
    let t := if field j.payload 4 1 = 0 then s else dropJobReads (endJobs workJob .busy s)
    exec (.bistMemory mb) s = .next (waitJob j 2 { t with tst := { t.tst with
      running := some (2, BitVec.ofNat 32 (field j.payload 0 4), field j.payload 4 1) } })) ∧
  (∀ (s : State) (mb : MbId) (j : Job), Begun s mb 0x0B03 j → j.payload.length = 24 → zeroAt j.payload 17 7 = true → field j.payload 0 8 % 4096 = 0 →
    field j.payload 8 8 % 4096 = 0 → 1 ≤ field j.payload 16 1 → field j.payload 16 1 ≤ 3 → inHbm s (field j.payload 0 8) (field j.payload 8 8) = true →
    heldRange s (field j.payload 0 8) (field j.payload 8 8) = false →
    exec (.hbmPatternTest mb) s = .next (waitJob j 3 { s with tst := { s.tst with running := some (3, 0, 0) } })) ∧
  (∀ (s : State) (mb : MbId) (j : Job) (sheets : BitVec 32) (sigs : List (BitVec 64)), firmwareRuns s = true →
    s.tst.running = some (1, sheets, 0) →
    s.mbx.jobs.find? (fun x => x.mb == mb.val && x.phase == 2 && decide (0x0B01 ≤ x.opcode ∧ x.opcode ≤ 0x0B03)) = some j →
    sigs.length = (logicUnits sheets 0).length →
    let bad := mismatches sigs ((logicUnits sheets 0).map (Config.misrLogic Config.stepping))
    ∃ t, exec (.selfTestDone mb sigs []) s = .next (finish j (if bad = 0 then .ok else .bistMismatch)
        (leBytes 1 Config.stepping.toNat ++ [0] ++ leBytes 2 bad ++ zeros 4 ++ sigs.flatMap (bvBytes 8)) t) ∧
      t.tst.running = none ∧
      t.tst.failCnt = (if bad = 0 then s.tst.failCnt else min (s.tst.failCnt + bad) (2 ^ 32 - 1)) ∧
      (∀ g < 512, sheets.getLsbD (g / 16) = true → t.pla.activeBuf.getLsbD g = false ∧
        ∀ a < graverBytes, cellGet t.mem.cells (sramBase + g * graverBytes + a) = 0) ∧
      (∀ g < 512, sheets.getLsbD (g / 16) = false → t.pla.activeBuf.getLsbD g = s.pla.activeBuf.getLsbD g ∧
        ∀ a < graverBytes, cellGet t.mem.cells (sramBase + g * graverBytes + a) = cellGet s.mem.cells (sramBase + g * graverBytes + a)) ∧
      (∀ a < sramBase, cellGet t.mem.cells a = cellGet s.mem.cells a) ∧
      { t with tst := s.tst, pla := { t.pla with activeBuf := s.pla.activeBuf, shadowVld := s.pla.shadowVld }, mem := s.mem } = s)

/-! ## Plates -/

/-- PLATE_STAGE, PLATE_BIND, PLATE_UNSTAGE (R59 to R67): an image that passes its checks joins the plate store under a new handle; a bind of a plate
that fits sets its swap; a plate that nothing uses leaves the store.
The model's choices in it: notes/assumptions 46, 75. -/
def Obligations.PlateCommands : Prop :=
  (∀ (s : State) (mb : MbId) (j : Job) (a n : Nat), Begun s mb 0x0401 j → j.payload.length = 16 → field j.payload 12 4 = 0 →
    field j.payload 0 8 = 2 ^ 63 + a → a < 2 ^ 48 → field j.payload 8 4 = n → imageLengthBad n = false → inHbm s a n = true → devOk s a n = true →
    poisonedAt s a n = false → let img := cellRead s.mem.cells a n
    stageReason s img n = none → stageLayoutBad img = false → s.pla.store.length < 64 → storeUsed s + n ≤ 0x40000000 → ∃ h p,
    ∃ t, exec (.plateStage ⟨mb, []⟩ true) s = .next (finish j .ok (leBytes 4 h ++ zeros 4 ++ plateDigest img) t) ∧
    t.pla.store = s.pla.store ++ [p] ∧ countedHbm s { t with draw := s.draw, pla := { t.pla with store := s.pla.store } } ∧ p.handle = h ∧ p.image = img ∧ p.kind = field img 0x10 1 ∧ p.sheets = field img 0x11 1 ∧ p.span = field img 0x18 4 ∧
    h ≠ 0 ∧ h < 2 ^ 32 ∧ plateAt s h = none) ∧
  (∀ (s : State) (mb : MbId) (j : Job) (sig : Bool), Begun s mb 0x0401 j → j.payload.length = 16 → field j.payload 12 4 = 0 →
    field j.payload 0 8 < 2 ^ 63 → imageLengthBad (field j.payload 8 4) = false → fnReady s 0 = true →
    ∀ bad, exec (.plateStage ⟨mb, bad⟩ sig) s = .next (waitJob j j.subject
      (hostReadReq 0 (field j.payload 0 8) (field j.payload 8 4) (.command mb.val j.order sig) (modJob j.order (fun x => { x with bad := bad }) s)))) ∧
  (∀ (s : State) (mb : MbId) (j : Job) (w : Work) (p : Plate) (g : Grant), Begun s mb 0x0402 j → j.payload.length = 24 → field j.payload 12 4 = 0 →
    workOf s (field j.payload 0 4) = some w → plateAt s (field j.payload 4 4) = some p → grantOf s w = some g →
    let m := BitVec.ofNat 32 (field j.payload 8 4)
    let full := fullMask g.twin m
    let S := if field j.payload 16 8 = 0 then sessionStroke s w + 2 else field j.payload 16 8
    bindMaskBad g p m = false → bindReason s w g.twin p = none → s.pla.swaps.all (fun x => disjoint x.mask full) = true →
    sessionStroke s w + 1 < S → oldPlateBusy s w full S = false →
    exec (.plateBind mb) s = .next (finish j .ok (leBytes 8 S) { s with pla := { s.pla with swaps := s.pla.swaps ++ [
      { work := w, plate := p.handle, mask := full, stroke := S, start := sessionStroke s w + 1, loading := false, loaded := false }] } })) ∧
  (∀ (s : State) (mb : MbId) (j : Job), Begun s mb 0x0403 j → j.payload.length = 8 → field j.payload 4 4 = 0 →
    (plateAt s (field j.payload 0 4)).isSome = true → plateInUse s (field j.payload 0 4) = false →
    ∃ t, exec (.plateUnstage mb) s = .next (answer j .ok t) ∧ t.pla.store = s.pla.store.filter (fun p => p.handle != field j.payload 0 4) ∧
      countedHbm s { t with pla := { t.pla with store := s.pla.store } })

/-! ## Decode sessions -/

/-- DECODE_OPEN (R117 to R121, R45, R69): an open that passes its checks, with the sheets, banks and HBM it needs, creates the session OPENED at session
stroke 0 under a new handle; in a ring it sends the digest of its payload to every other member, and waits for theirs.
The model's choices in it: notes/assumptions 47, 48. -/
def Obligations.DecodeOpens : Prop :=
  ∀ (s : State) (mb : MbId) (j : Job), runJob s mb 0x0501 = some j → guardSet s = false → s.dec = none →
    let p := j.payload
    let ring := field p 0 4
    let internal := bit (field p 4 4) 1
    let room := (grant .decode (BitVec.ofNat 32 (field p 8 4)) (bit (field p 4 4) 0) (field p 0x10 8) s).bind
      (placeStretch (if ring = 0 then field p 0x1A 2 else s.ring.elim 0 (·.blocks)) (ring != 0))
    192 ≤ p.length → p.length = 192 + field p 0x18 2 → openBad s p = false → quiesced s 1 = false →
    s.weights.any (fun x => x.digest == slice p 0x20 64) = true → (ring ≠ 0 → (ringOf s ring).any ringServes = true) → room.isSome = true →
    (internal = true → drbgGrants 1 3 s = true) →
    ∃ t h d u, room = some u ∧ exec (.decodeOpen mb) s = .next (finish j .ok (leBytes 4 h ++ leBytes 4 (capacity t d)) t) ∧ t.dec = some d ∧
      d.handle = h ∧ h ≠ 0 ∧ d.ring = ring ∧ d.state = 1 ∧ d.base = s.prs.stroke ∧ d.sheets = BitVec.ofNat 32 (field p 8 4) ∧
      d.inputCnt = field p 0xC 4 ∧ d.sampling = slice p 0x80 32 ∧ d.hostField = p.drop 0xC0 ∧ d.outputs = [] ∧ d.inputs = [] ∧
      d.opensSeen = (ring == 0) ∧ d.seed = (if internal then (drbgTake 32 u).1 else slice p 0x60 32) ∧ t.pla = u.pla ∧ t.mem.held = u.mem.held ∧
      (ring = 0 → ∃ v, drewOnly s v ∧ countedHbm v { t with dec := v.dec, draw := v.draw, pla := v.pla, mem := v.mem }) ∧
      (ring ≠ 0 → ∃ v, v.ring = s.ring.map freshRing ∧ t = controlAll (.openDigest (BitVec.ofNat 512 (leNat (sha512 d.openBytes)))) v)

/-- DECODE_FINISH, DECODE_CLOSE, DECODE_STATUS (R45, R114, R124, R131): a finish stops an idle session at once with no proof, a running one at the
boundary that follows, and leaves a stopped one as it is; a close releases the session's sheets, banks and HBM, wiped; the status says where the
session is.
The model's choices in it: notes/assumptions 48, 50. -/
def Obligations.DecodeSessionCommands : Prop :=
  (∀ (s : State) (mb : MbId) (j : Job) (d : Session), Begun s mb 0x0510 j → j.payload.length = 8 → field j.payload 4 4 = 0 → s.dec = some d →
    d.handle = field j.payload 0 4 →
    (d.state = 1 ∨ d.state = 2 → ∃ t x, exec (.decodeFinish mb) s = .next (answer j .ok t) ∧ t.dec = some x ∧ x.state = 6 ∧ x.stop = 4 ∧
      x.frozen = sessionStroke s .decode ∧ x.outputs = d.outputs ∧ t.kst = s.kst) ∧
    (d.state = 3 ∨ d.state = 4 ∨ d.state = 5 →
      (atBoundary s = false → exec (.decodeFinish mb) s = .next (answer j .ok { s with dec := some { d with finishReq := true } })) ∧
      (atBoundary s = true → ∃ t x, exec (.decodeFinish mb) s = .next (answer j .ok t) ∧ t.dec = some x ∧ x.state = 6 ∧ x.stop = 4 ∧
        x.outputs = d.outputs ∧ x.steps = d.steps)) ∧
    (d.state = 6 → exec (.decodeFinish mb) s = .next (answer j .ok s))) ∧
  (∀ (s : State) (mb : MbId) (j : Job) (d : Session), Begun s mb 0x0511 j → j.payload.length = 8 → field j.payload 4 4 = 0 → s.dec = some d →
    d.handle = field j.payload 0 4 → (shownState d = 1 ∨ shownState d = 2 ∨ shownState d = 6) →
    let mine := fun (h : Held) => match h.owner with
      | .stretch _ | .counterproof _ | .mirror _ | .draftKv => true
      | _ => false
    let within := fun (h : Held) (a : Nat) => h.base ≤ a ∧ a < h.base + h.len
    ∃ t, exec (.decodeClose mb) s = .next (answer j .ok t) ∧ t.dec = none ∧ grantOf t .decode = none ∧
      (∀ a ∈ t.prs.actions, a.work ≠ .decode) ∧ (∀ x ∈ t.prs.data, x.work ≠ .decode) ∧ t.mem.held = s.mem.held.filter (fun h => !mine h) ∧
      (d.outDescs = [] →
        (∀ h ∈ s.mem.held, mine h = true → ∀ a, within h a → cellGet t.mem.cells a = 0) ∧
        (∀ a < sramBase, (∀ h ∈ s.mem.held, mine h = true → ¬within h a) → cellGet t.mem.cells a = cellGet s.mem.cells a) ∧
        (d.ring = 0 → (∀ i < 5, (get5 s.buf.shares i).fragments = []) →
          countedHbm s { t with
                   dec := s.dec, mem := s.mem
                   prs := { t.prs with actions := s.prs.actions, data := s.prs.data, checks := s.prs.checks }
                   pla := { t.pla with swaps := s.pla.swaps, active := s.pla.active, loose := s.pla.loose, grants := s.pla.grants
                                       shadowVld := s.pla.shadowVld, accums := s.pla.accums } }))) ∧
  (∀ (s : State) (mb : MbId) (j : Job) (d : Session), Begun s mb 0x0512 j → j.payload.length = 8 → field j.payload 4 4 = 0 → s.dec = some d →
    d.handle = field j.payload 0 4 → exec (.decodeStatus mb) s = .next (finish j .ok (leBytes 1 (shownState d) ++ leBytes 1 d.stop ++ zeros 2 ++
      leBytes 4 d.outputs.length ++ leBytes 8 d.steps ++ leBytes 8 (sessionStroke s .decode)) s))

/-- WEIGHTS_LOAD, DRAFT_LOAD, WEIGHTS_UNLOAD (R115, R116, R122, R344, R345): an image in HBM whose chunks all verify under the slot's key becomes the
resident set, or the draft; one in the host's memory is asked for; an unload leaves none, and wipes its place.
The model's choices in it: notes/assumptions 37. -/
def Obligations.WeightsAndDrafts : Prop :=
  let placed := fun (s : State) (a : Nat) => ∃ h ∈ s.mem.held, h.owner = .weights ∧ h.base ≤ a ∧ a < h.base + h.len
  (∀ (s : State) (mb : MbId) (j : Job) (k : KeySlot) (a n : Nat) (plain digest : Bytes), Begun s mb 0x0502 j → j.payload.length = 24 →
    zeroAt j.payload 18 6 = true → field j.payload 0 8 = 2 ^ 63 + a → a < 2 ^ 48 → field j.payload 8 8 = n → s.dec = none →
    slotAt s (field j.payload 16 2) = some k → bit k.mask 4 = true → inHbm s a n = true → devOk s a n = true → poisonedAt s a n = false →
    weightsJudged k (cellRead s.mem.cells a n) n s = some (.ok plain digest) →
    let base := (placeHbm plain.length (dropWeights s)).1.getD 0
    let epoch := (s.mpr.epoch + 1) % 2 ^ 32
    ∃ t, exec (.weightsLoad ⟨mb, []⟩) s = .next (finish j .ok digest t) ∧ t.weights = some ⟨digest, plain, base, epoch⟩ ∧ t.mpr.epoch = epoch ∧
      t.mem.held = s.mem.held.filter (fun h => h.owner != .weights) ++ [⟨base, plain.length, .weights⟩] ∧
      (∀ x, cellGet t.mem.cells x = 0 ∨ cellGet t.mem.cells x = cellGet s.mem.cells x) ∧
      (∀ x, ¬placed s x → ¬placed t x → cellGet t.mem.cells x = cellGet s.mem.cells x) ∧
      countedHbm s { t with weights := s.weights, draw := s.draw, mem := s.mem, mpr := { t.mpr with epoch := s.mpr.epoch } }) ∧
  (∀ (s : State) (mb : MbId) (bad : List MemFail) (j : Job), Begun s mb 0x0502 j → j.payload.length = 24 → zeroAt j.payload 18 6 = true → field j.payload 0 8 < 2 ^ 63 →
    s.dec = none → (slotFor s (field j.payload 16 2) 4).isSome = true →
    exec (.weightsLoad ⟨mb, bad⟩) s = .next (waitJob j j.subject (hostReadHead 0 (field j.payload 0 8) (field j.payload 8 8) 64
      (.command j.mb j.order true) (modJob j.order (fun x => { x with bad := bad }) s)))) ∧
  (∀ (s : State) (mb : MbId) (j : Job) (d : Session) (k : KeySlot) (a n : Nat) (plain digest : Bytes), Begun s mb 0x0503 j → j.payload.length = 24 →
    field j.payload 6 2 = 0 → field j.payload 8 8 = 2 ^ 63 + a → a < 2 ^ 48 → field j.payload 16 8 = n → s.dec = some d →
    d.handle = field j.payload 0 4 → d.state = 1 → slotAt s (field j.payload 4 2) = some k → bit k.mask 4 = true → inHbm s a n = true →
    devOk s a n = true → poisonedAt s a n = false → draftJudged d k (cellRead s.mem.cells a n) n s = some (.ok plain digest) →
    (placeHbm (draftWindowBytes (shapeOf plain)) (dropDraft s)).1.isSome = true →
    ∃ t x, exec (.draftLoad ⟨mb, []⟩) s = .next (finish j .ok digest t) ∧ t.dec = some x ∧ x.draft = plain ∧ x.draftDig = digest ∧ x.handle = d.handle ∧
      x.outputs = d.outputs ∧ t.weights = s.weights ∧ t.prs.stroke = s.prs.stroke ∧ t.life = s.life ∧ t.kst = s.kst) ∧
  (∀ (s : State) (mb : MbId) (j : Job), Begun s mb 0x0504 j → j.payload = zeros 8 → s.dec = none → ∃ t,
    exec (.weightsUnload mb) s = .next (answer j .ok t) ∧ t.weights = none ∧ t.mem.held = s.mem.held.filter (fun h => h.owner != .weights) ∧
      (∀ x, placed s x → cellGet t.mem.cells x = 0) ∧ (∀ x, ¬placed s x → cellGet t.mem.cells x = cellGet s.mem.cells x) ∧
      countedHbm s { t with weights := s.weights, mem := s.mem })

/-- REPLAY_VERIFY (R30, R31): a proof of another arithmetic edition, or of other weights, is answered without a run; a proof whose input tokens and host
fields match their digests begins its run on the session, from the proof's seed and sampling.
The model's choices in it: notes/assumptions 51. -/
def Obligations.ReplayVerified : Prop :=
  ∀ (s : State) (mb : MbId) (j : Job) (d : Session), Begun s mb 0x0530 j → j.payload.length = 14944 → field j.payload 4 4 = 0 →
    field j.payload 0x1C 4 = 0 → badAddr (field j.payload 8 8) = false → badAddr (field j.payload 0x10 8) = false →
    s.dec = some d → d.handle = field j.payload 0 4 → replayRefused d = false →
    let pf := slice j.payload 0xA40 12320
    field pf 0 4 = 0x4650584F → field pf 4 2 = 1 → field pf 0xC 4 = 0x3020 → sha512 (slice j.payload 0x20 2592) = slice pf 0x1DC0 64 →
    (field pf 6 2 ≠ 1 → exec (.replayVerify ⟨mb, []⟩ true) s = .next (finish j .ok (3 :: zeros 15) s)) ∧
    (field pf 6 2 = 1 → s.weights.all (fun x => x.digest != slice pf 0xE0 64) = true →
      exec (.replayVerify ⟨mb, []⟩ true) s = .next (finish j .ok (4 :: zeros 15) s)) ∧
    (∀ a b : Nat, field pf 6 2 = 1 → s.weights.any (fun x => x.digest == slice pf 0xE0 64) = true → d.finishReq = false →
      let n := 4 * field pf 0x260 4
      let m := field j.payload 0x18 4
      let toks := (List.range (field pf 0x260 4)).map (fun i => field (cellRead s.mem.cells a n) (4 * i) 4)
      field j.payload 8 8 = 2 ^ 63 + a → a < 2 ^ 48 → field j.payload 0x10 8 = 2 ^ 63 + b → b < 2 ^ 48 →
      inHbm s a n = true → devOk s a n = true → poisonedAt s a n = false → inHbm s b m = true → devOk s b m = true → poisonedAt s b m = false →
      sha512 (cellRead s.mem.cells a n) = slice pf 0x160 64 → sha512 (cellRead s.mem.cells b m) = slice pf 0x1A0 64 →
      (∀ x ∈ toks, x < s.weights.elim 0 (fun w => (shapeOf w.bytes).vocab)) →
      (field pf 0x264 4 = 0 → ∃ t x, exec (.replayVerify ⟨mb, []⟩ true) s = .next t ∧ t.dec = some x ∧ x.state = 6 ∧ x.outputs = d.outputs ∧
        t.kst.serial = s.kst.serial) ∧
      (field pf 0x264 4 ≠ 0 → toks ≠ [] → toks.length ≤ capacity s d →
      ∃ t x, exec (.replayVerify ⟨mb, []⟩ true) s = .next t ∧ t.dec = some x ∧ x.inputs = toks ∧ x.inputCnt = toks.length ∧ x.chunks = 0 ∧
        x.pendStep = none ∧ x.seed = slice pf 0x220 32 ∧ x.sampling = slice pf 0x240 32 ∧ x.rp.isSome = true ∧ (d.state = 1 → x.state = 1) ∧
        (∀ y ∈ t.prs.actions, y.work ≠ .decode) ∧ t.kst = s.kst ∧ t.mem = s.mem ∧ t.weights = s.weights ∧ t.prs.stroke = s.prs.stroke))

/-- DECODE_INPUT_DESCRIPTOR and DECODE_OUTPUT_DESCRIPTOR (R126, R133, R134): tokens in device memory join the input, and a READY session leaves READY
with them; those in the host's memory are asked for; an output descriptor is posted behind the others, or after a stop completes at once: with the
stop where that completion is owed, else with zero tokens.
The model's choices in it: notes/assumptions 50. -/
def Obligations.DecodeDescriptors : Prop :=
  (∀ (s : State) (n : Nat) (f : FDesc) (d : Session) (a : Nat), descAt s n = some f → f.taken = false → f.fn = 1 → field f.bytes 0 1 = 0x10 →
    inputReading s = false → decodeDescBad s f.bytes 0x10 = false → s.dec = some d → prefilled d = false →
    let cnt := field f.bytes 0x10 4
    field f.bytes 8 8 = 2 ^ 63 + a → inHbm s a (4 * cnt) = true → devOk s a (4 * cnt) = true → poisonedAt s a (4 * cnt) = false →
    let toks := (List.range cnt).map (fun i => field (cellRead s.mem.cells a (4 * cnt)) (4 * i) 4)
    (∀ x ∈ toks, x < s.weights.elim 0 (fun w => (shapeOf w.bytes).vocab)) → d.inputs.length + cnt ≤ d.inputCnt →
    ∃ t u x, exec (.decodeInputDescriptor ⟨n, []⟩) s = .next t ∧ countedHbm s u ∧ t.dec = some x ∧ x.inputs = d.inputs ++ toks ∧ (d.state = 2 → x.state ≠ 2) ∧
      (d.state ≠ 2 → t = doneInput f .ok cnt d.inputs.length (takeDesc n { u with dec := some { d with inputs := d.inputs ++ toks } }))) ∧
  (∀ (s : State) (n : Nat) (bad : List MemFail) (f : FDesc), descAt s n = some f → f.taken = false → f.fn = 1 → field f.bytes 0 1 = 0x10 →
    inputReading s = false → decodeDescBad s f.bytes 0x10 = false → s.dec.any prefilled = false → field f.bytes 8 8 < 2 ^ 63 →
    exec (.decodeInputDescriptor ⟨n, bad⟩) s = .next (hostReadReq 1 (field f.bytes 8 8) (4 * field f.bytes 0x10 4) (.decodeInput n) (takeDesc n s))) ∧
  (∀ (s : State) (n : Nat) (f : FDesc) (d : Session), descAt s n = some f → f.taken = false → f.fn = 1 → field f.bytes 0 1 = 0x11 →
    decodeDescBad s f.bytes 0x11 = false →
    (∀ a, field f.bytes 8 8 = 2 ^ 63 + a → devOk s a (4 * field f.bytes 0x10 4) = true) → s.dec = some d →
    let o : OutDesc := { desc := n, stream := field f.bytes 1 1 % 2 == 1, addr := field f.bytes 8 8, capacity := field f.bytes 0x10 4, written := 0,
                         firstPos := 0, tag := field f.bytes 0x18 8 }
    (d.state ≠ 6 ∨ d.signWait = true → exec (.decodeOutputDescriptor n) s = .next (takeDesc n { s with dec := some { d with outDescs := d.outDescs ++ [o] } })) ∧
    (d.state = 6 → d.signWait = false →
      (d.owed = false → exec (.decodeOutputDescriptor n) s = .next (doneOut o .ok 0 0 0 (takeDesc n s))) ∧
      (d.owed = true → exec (.decodeOutputDescriptor n) s =
        .next (modDec (fun x => { x with owed := false }) (doneOut o d.cause d.stop d.signer d.serial (takeDesc n s))))))

/-- PREFILL_CHUNK, VERIFICATION_STEP, STEP_COMMIT, SESSION_RESUME (R110, R123, R125, R127 to R132): at a boundary the next chunk or step begins and its
plates are invoked; a commit stores its KV, its outputs and its next root together, or ends the session where its KV cannot be stored; a stop found in
the step stops the session; a parked session goes on at its session stroke.
The model's choices in it: notes/assumptions 48, 49. -/
def Obligations.StepsRun : Prop :=
  (∀ (s : State) (d : Session) (w : Resident), s.dec = some d → s.weights = some w → mayCommit s = false → mayStep s d 3 = true →
    decodePoisoned s = false → ∃ t x, exec .prefillChunk s = .next t ∧ t.dec = some x ∧ t.weights = s.weights ∧ x.outputs = d.outputs ∧
      ((x.pendStep = some (computeChunk s d w.bytes) ∧ x.invoked = d.resumeAt ∧ x.base = d.base ∧ x.chunks = d.chunks) ∨
        (x.pendStep = none ∧ (x.chunks = d.chunks + 1 ∨ x.state = 6)))) ∧
  (∀ (s : State) (d : Session) (w : Resident), s.dec = some d → s.weights = some w → mayStep s d 4 = true → decodePoisoned s = false →
    ∃ t x, exec .verificationStep s = .next t ∧ t.dec = some x ∧ x.pendStep = some (computeStep s d w.bytes) ∧ x.invoked = d.resumeAt ∧
      x.base = d.base ∧ x.outputs = d.outputs ∧ x.steps = d.steps ∧ t.mem = s.mem ∧ t.prs.stroke = s.prs.stroke ∧
      t.weights = s.weights ∧ t.kst.serial = s.kst.serial) ∧
  (∀ (s : State) (d : Session) (p : PendingStep), s.dec = some d → d.pendStep = some p → mayCommit s = true →
    ∃ t x, exec .stepCommit s = .next t ∧ t.dec = some x ∧ x.pendStep = none ∧
      (storeStuck (commitWrites s d p) s = true → x.state = 6 ∧ x.outputs = d.outputs) ∧
      (storeStuck (commitWrites s d p) s = false →
        (p.chunk = true → x.chunks = d.chunks + 1 ∧ x.outputs = d.outputs ∧ x.steps = d.steps) ∧
        (p.chunk = false → x.outputs = d.outputs ++ p.path ∧ x.steps = d.steps + 1 ∧ x.root = p.nextRoot ∧
          (p.stop ≠ 0 → x.state = 6 ∧ x.stop = p.stop)) ∧
        (d.outDescs = [] → x.state ≠ 6 → ∀ a, cellGet t.mem.cells a = cellGet (storeRows (commitWrites s d p) s).mem.cells a))) ∧
  (∀ (s : State) (d : Session), s.dec = some d → d.state = 5 → d.finishReq = false → parkWhy s d d.parkedIn = false →
    exec .sessionResume s = .next { s with dec := some { d with state := d.parkedIn, base := (s.prs.stroke : Int) - d.frozen } })

/-! ## Actions and the press -/

/-- ACTION_BEGIN, ACTION_COMPLETE (R34, R35, R42 to R44, R52): an action of a work in motion whose inputs are present begins, and holds what it has read;
at its end each of its outputs is present under its name at the present session stroke, with the bytes that its plate's steps give, and the action has
left; an output whose name is present already is a fault of the engine.
The model's choices in it: notes/assumptions 43. -/
def Obligations.ActionsRun : Prop :=
  (∀ (s : State) (a : Nat) (bad : List MemFail) (x : Action), s.prs.actions.find? (fun y => y.id == a) = some x → mayStart s x = true →
    (x.inputs.filterMap (datumAt s x)).all (fun d => !d.poison) = true → (actionReads bad x x.reads s).2.1 = false →
    ∃ t, exec (.actionBegin ⟨a, bad⟩) s = .next t ∧
    t.prs.actions = s.prs.actions.map (fun y => if y.id == a then
      { y with running := true, consumed := (x.inputs.filterMap (datumAt s x)).map (·.bytes) ++ (actionReads bad x x.reads s).1
               poisoned := false } else y) ∧
    (∀ y n, (y.work ≠ x.work ∨ n ∉ x.inputs) → datumAt t y n = datumAt s y n) ∧
    (x.reads = [] → x.exch = none →
      { t with prs := { t.prs with actions := s.prs.actions, data := s.prs.data }, buf := { t.buf with shares := s.buf.shares }, ports := s.ports } = s)) ∧
  (∀ (s : State) (a : Nat) (upset : List (Nat × Bytes)) (x : Action), s.prs.actions.find? (fun y => y.id == a) = some x → x.running = true →
    x.sends = false → x.trigger = none → x.exch = none → (x.outputs.map (fun o => { o.1 with stroke := 0 })).Nodup →
    (∀ o ∈ x.outputs, datumAt s x { o.1 with stroke := sessionStroke s x.work } = none) → ∃ t,
    exec (.actionComplete a upset) s = .next t ∧ t.prs.actions = s.prs.actions.filter (fun y => y.id != a) ∧
    (∀ o ∈ x.outputs, o.2.1 ≠ 0 → ∃ d, datumAt t x { o.1 with stroke := sessionStroke s x.work } = some d ∧ d.readers = o.2.1 ∧
      d.poison = x.poisoned ∧ d.bytes = published (workedOut s x) upset o) ∧
    (∀ b < sramBase, cellGet t.mem.cells b = cellGet s.mem.cells b) ∧ (512 ≤ x.unit → t.mem = s.mem) ∧
    { t with prs := { t.prs with actions := s.prs.actions, data := s.prs.data, checks := s.prs.checks }, mem := s.mem
             pla := { t.pla with accums := s.pla.accums, accOvf := s.pla.accOvf } } = s) ∧
  (∀ (s : State) (a : Nat) (upset : List (Nat × Bytes)) (x : Action) (o : DatumName × Nat × Nat), s.prs.actions.find? (fun y => y.id == a) = some x →
    x.running = true → x.sends = false → x.exch = none → o ∈ x.outputs →
    (datumAt s x { o.1 with stroke := sessionStroke s x.work }).isSome = true → ∃ t, exec (.actionComplete a upset) s = .next t ∧
    (∀ d, t.dec = some d → d.state = 6) ∧ (∀ c ∈ t.hev.ctxs, c.faulted = true) ∧ t.prs.stroke = s.prs.stroke)

/-- PRESS_ADVANCE and IDLE_STROKE (R36 to R38, R40, R49, R72, R73): with every participating domain retired, or none participating, and the halves of every
twin work agreeing, the stroke counter advances by one, pending shadow values apply, and each domain that took part counts the stroke; at half
its range, with nothing open, the counter goes back to 0. Halves of a decode session that disagree are counted, and its step begins again.
The model's choices in it: notes/assumptions 42. -/
def Obligations.PressAdvances : Prop :=
  (∀ s : State, s.rst.railsOn = true → s.rst.inReset = false → s.rst.optLoad = false → decodeHolds s = false →
    participants s ≠ [] → (∀ d ∈ participants s, unretired s d = false) →
    twinDiffers s = [] → (guardSet s = true → somethingOpen s = true) → exhausted s = false → ∃ t, exec .pressAdvance s = .next t ∧
    t.prs.stroke = s.prs.stroke + 1 ∧ t.prs.stalled = false ∧ t.prs.advances = min (s.prs.advances + 1) (2 ^ 64 - 1) ∧
    (rising (s.prs.retired.map (·.1)) = true → ∀ d, mapGet t.prs.retired d = if d ∈ participants s then min (mapGet s.prs.retired d + 1) (2 ^ 64 - 1)
      else mapGet s.prs.retired d) ∧
    t.prs.limitMs = s.prs.limitShadow.getD s.prs.limitMs ∧ t.prs.limitShadow = none ∧ t.clk.capW = s.clk.capShadow.getD s.clk.capW ∧
    t.clk.capShadow = none ∧ t.life = s.life ∧ t.rst = s.rst ∧ t.weights = s.weights) ∧
  (∀ (s : State) (d : Session), s.rst.railsOn = true → s.rst.inReset = false → s.rst.optLoad = false → decodeHolds s = false →
    participants s ≠ [] → (∀ n ∈ participants s, unretired s n = false) →
    twinDiffers s = [.decode] → s.dec = some d → d.twinRetry = false → ∃ t x, exec .pressAdvance s = .next t ∧ t.prs.stroke = s.prs.stroke ∧
    t.pla = { s.pla with sticky := s.pla.sticky ||| 16, twinCnt := min (s.pla.twinCnt + 1) (2 ^ 32 - 1) } ∧ t.dec = some x ∧ x.pendStep = none ∧
    x.twinRetry = true ∧ x.outputs = d.outputs ∧ (∀ y ∈ t.prs.actions, y.work ≠ .decode)) ∧
  (∀ s : State, s.rst.railsOn = true → s.rst.inReset = false → s.rst.optLoad = false → decodeHolds s = false →
    participants s = [] → twinDiffers s = [] →
    (guardSet s = true → somethingOpen s = true) → exhausted s = false → ∃ t, exec .idleStroke s = .next t ∧ t.prs.stroke = s.prs.stroke + 1 ∧
    t.prs.retired = s.prs.retired ∧ t.prs.limitMs = s.prs.limitShadow.getD s.prs.limitMs ∧ t.clk.capW = s.clk.capShadow.getD s.clk.capW ∧ t.clk.idle = true ∧
    t.life = s.life ∧ t.rst = s.rst ∧ t.weights = s.weights) ∧
  (∀ s : State, s.rst.railsOn = true → s.rst.inReset = false → s.rst.optLoad = false → decodeHolds s = false →
    participants s = [] → twinDiffers s = [] → guardSet s = true → somethingOpen s = false →
    ∃ t, exec .idleStroke s = .next t ∧ t.prs.stroke = 0 ∧ t.prs.snapPending = false ∧ t.prs.snapLatched = false ∧ t.kst = s.kst ∧ t.life = s.life)

/-- PRESS_STALL and PLATE_LOAD_COMPLETE (R41, R66, R67, R437): a stall with local work is latched with the first domain that holds the stroke, and all open work
ends: the session stops, every context faults and every round is aborted; a load's end fills the shadow buffers of the plate's gravers; a poisoned load
takes the plate out of the store, its shadows no longer valid, and ends every work whose bind of it is not yet loaded: that it ends all of them, and not
the one work whose load has read the word alone, is the model's choice (notes/assumptions 44), a rule of no chapter.
The model's other choices in it: notes/assumptions 43. -/
def Obligations.StallsAndLoads : Prop :=
  (∀ (s : State) (d : Nat) (ds : List Nat), (participants s).filter (unretired s) = d :: ds → (d :: ds).all (remoteWait s) = false →
    ∃ t, exec .pressStall s = .next t ∧ t.prs.stalled = true ∧ t.prs.stallDomain = d ∧ t.prs.sticky = s.prs.sticky ||| 8 ∧
      t.prs.stroke = s.prs.stroke ∧ (∀ x, t.dec = some x → x.state = 6) ∧ (∀ c ∈ t.hev.ctxs, c.faulted = true) ∧ t.ptn.rounds = []) ∧
  (∀ (s : State) (plate : Nat) (x : Swap), s.pla.swaps.find? (fun y => y.plate == plate && y.loading && !y.loaded) = some x →
    (readPlate plate [] s).1 = false → ∃ t, exec (.plateLoadComplete plate []) s = .next t ∧
      t.pla.swaps = s.pla.swaps.map (fun y => if y == x then { y with loaded := true } else y) ∧
      t.pla.shadowVld = graverBits x.mask setBit s.pla.shadowVld ∧
      countedHbm s { t with pla := { t.pla with swaps := s.pla.swaps, shadowVld := s.pla.shadowVld } }) ∧
  (∀ (s : State) (plate : Nat) (bad : List MemFail) (x : Swap), s.pla.swaps.find? (fun y => y.plate == plate && y.loading && !y.loaded) = some x →
    (readPlate plate bad s).1 = true → ∃ t, exec (.plateLoadComplete plate bad) s = .next t ∧ (∀ p ∈ t.pla.store, p.handle ≠ plate) ∧
      (∀ y ∈ t.pla.swaps, y.plate = plate → y.loaded = true) ∧ t.pla.sticky.getLsbD 3 = true ∧
      (∀ y ∈ s.pla.swaps, y.plate = plate → y.loaded = false →
        (∀ d, y.work = .decode → t.dec = some d → d.state = 6) ∧ (∀ h, y.work = .ctx h → ∀ c ∈ t.hev.ctxs, c.handle = h → c.faulted = true) ∧
        (∀ h, y.work = .round h → ∀ r ∈ t.ptn.rounds, r.handle ≠ h) ∧
        ∀ sh ∈ sheetsOf y.mask, ∀ g ∈ graversOf sh, t.pla.shadowVld.getLsbD g = false))

/-! ## The sequence ring -/

/-- RING_FORM, RING_SPARE_JOIN, RING_FORM_TIMEOUT, RING_STATUS, RING_DISSOLVE, RING_ADMIT (R139, R140, R142, R172, R173, R242): forming brings the ring's ports
up in ring mode and waits; a timeout ends it with LINK_DOWN, told to the host when the firmware runs, no ring, and the ports in electrical idle, and so,
with OK, does a dissolve; an admitted spare takes the failed member's entry of the parameters, and the ports that face it come up again.
The model's choices in it: notes/assumptions 16, 52, 53. -/
def Obligations.RingCommands : Prop :=
  (∀ (s : State) (mb : MbId) (j : Job), ∀ x ∈ [(Instr.ringForm mb, 0x0601, false), (Instr.ringSpareJoin mb, 0x0610, true)],
    Begun s mb x.2.1 j → formBad s j.payload = false → formBusy s (field j.payload 8 1) = false →
    ∃ u, exec x.1 s = .next (waitJob j 0 u) ∧ u.ring = some (newRing j.payload j x.2.2) ∧
      (∀ p < 5, if p ∈ ringPorts (field j.payload 8 1) then (get5 u.ports p).mode = 2 ∧ (get5 u.ports p).rate = field j.payload 0xA 1 ∧
          (get5 u.ports p).up = false ∧ (get5 u.ports p).keyed = false ∧ (get5 u.ports p).optOff = false ∧ (get5 u.ports p).txCtr = 0
        else get5 u.ports p = get5 s.ports p) ∧ { u with ring := s.ring, ports := s.ports } = s) ∧
  (∀ (s : State) (mb : MbId) (r : Ring) (o : Nat) (j : Job), s.ring = some r → r.state = 1 → r.former = some (mb.val, o) → jobAt s o = some j →
    ∃ u, exec (.ringFormTimeout mb) s = .next (if firmwareRuns s then answer j .linkDown u else { u with mbx := { u.mbx with
        jobs := u.mbx.jobs.map (fun x => if x.order == j.order then { x with phase := 3, ended := some ⟨none, .linkDown, []⟩ } else x) } }) ∧
      u.ring = none ∧ u.dec = s.dec ∧
      ∀ p ∈ r.ports, p < 5 → (get5 u.ports p).mode = 0 ∧ (get5 u.ports p).up = false ∧ (get5 u.ports p).optOff = true ∧ (get5 u.ports p).ringQ = []) ∧
  (∀ (s : State) (mb : MbId) (j : Job) (r : Ring), Begun s mb 0x0602 j → j.payload.length = 8 → field j.payload 4 4 = 0 → s.ring = some r →
    r.id % 2 ^ 32 = field j.payload 0 4 → exec (.ringStatus mb) s = .next (finish j .ok (leBytes 1 r.state ++ leBytes 1 r.count ++ leBytes 1 r.index ++
      leBytes 1 r.epoch ++ bvBytes 4 r.alive ++ leBytes 2 r.blocks ++ leBytes 1 r.rate ++
      leBytes 1 (portMask ((List.range 5).filter (fun p => (get5 s.ports p).mode == 2))) ++ zeros 4) s)) ∧
  (∀ (s : State) (mb : MbId) (j : Job) (r : Ring), Begun s mb 0x0603 j → j.payload.length = 8 → field j.payload 4 4 = 0 → s.ring = some r →
    r.id % 2 ^ 32 = field j.payload 0 4 → s.dec.all (fun d => d.ring == 0) = true →
    ∃ u, exec (.ringDissolve mb) s = .next (answer j .ok u) ∧ u.ring = none ∧ u.dec = s.dec ∧ u.kst.serial = s.kst.serial ∧
      ∀ p ∈ r.ports, p < 5 → (get5 u.ports p).mode = 0 ∧ (get5 u.ports p).up = false ∧ (get5 u.ports p).optOff = true) ∧
  (∀ (s : State) (mb : MbId) (j : Job) (r : Ring), Begun s mb 0x0611 j → j.payload.length = 72 → zeroAt j.payload 5 3 = true → s.ring = some r →
    r.id % 2 ^ 32 = field j.payload 0 4 → (∀ p ∈ r.ports, p < 5) →
    let i := field j.payload 4 1
    let id := slice j.payload 8 64
    i < r.count → r.alive.getLsbD i = false → r.state ≠ 3 → (∀ k ∈ membersOf r.alive, expectedId r k ≠ id) →
    ∃ u, exec (.ringAdmit mb) s = .next (answer j .ok u) ∧
      u.ring = some { r with admitted := (i, id) :: r.admitted.filter (fun a => a.1 != i)
                             params := r.params.take (0x10 + 64 * i) ++ id ++ r.params.drop (0x10 + 64 * i + 64) } ∧
      (∀ p < 5, if p ∈ r.ports ∧ facing r p = i ∧ (get5 s.ports p).up = false then
          (get5 u.ports p).mode = 2 ∧ (get5 u.ports p).rate = r.rate ∧ (get5 u.ports p).everUp = false ∧ (get5 u.ports p).formed = 0
        else get5 u.ports p = get5 s.ports p) ∧ { u with ring := s.ring, ports := s.ports } = s)

/-- RING_FRAME_RECEIVE, RING_DELIMITER_RECEIVE, RING_RETX_TIMEOUT, RING_IDLE_DELIMITER, KEEPALIVE_SEND, KEEPALIVE_RECEIVE (R155, R160, R236 to R238, R241, R283):
the next frame in order with a whole datum of the session makes it present, and fills the port's share until it is read; one whose tag fails is
refused with NAK, and one that finds no room overruns whatever its tag; an ACK frees what it covers; unacknowledged frames go again, and once the oldest has been sent
again eight times the link goes down.
The model's choices in it: notes/assumptions 54. -/
def Obligations.RingFrames : Prop :=
  (∀ (s : State) (port : PortId) (f : RingFrame) (r : Ring), s.ring = some r → ringLive s port.val = true →
    frameFits f = true → firstOfKey (get5 s.ports port.val) f = false →
    let p := get5 s.ports port.val
    let u := if opensFrame s f r then rewindFrame port.val ((f.payload.length + 255) / 256) s else s
    (f.tagOk = false ∨ f.linkId ≠ p.rxId → shareFull s port.val f r = false → exec (.ringFrameReceive port f) s = .next
      { u with ports := mod5 u.ports port.val (fun p => { p with tagFail := min (p.tagFail + 1) (2 ^ 32 - 1), nakOut := true }) }) ∧
    (f.tagOk = false ∨ (f.linkId = p.rxId ∧ f.frameCtr = p.rxNext) → shareFull s port.val f r = true → exec (.ringFrameReceive port f) s = .next
      { s with ports := mod5 s.ports port.val (fun p => { p with nakOut := true })
               buf := { s.buf with sticky := setBit s.buf.sticky 1
                                   shares := mod5 s.buf.shares port.val (fun x => { x with overrun := min (x.overrun + 1) (2 ^ 32 - 1) }) } }) ∧
    (f.tagOk = true → f.linkId = p.rxId → p.rxNext < f.frameCtr → exec (.ringFrameReceive port f) s = .next
      { s with ports := mod5 s.ports port.val (fun p => { p with nakOut := true }) }) ∧
    (f.tagOk = true → f.linkId = p.rxId → f.frameCtr < p.rxNext → exec (.ringFrameReceive port f) s = .next
      { s with ports := mod5 s.ports port.val (fun p => { p with dup := min (p.dup + 1) (2 ^ 32 - 1) }) }) ∧
    (f.tagOk = true → f.linkId = p.rxId → f.frameCtr = p.rxNext → f.dest = r.index → f.type = 1 → s.dec.isSome = true →
      f.name.epoch = r.epoch → isDuplicate s f = false → shareFull s port.val f r = false → f.offset = 0 → f.datumLen = f.payload.length →
      fragments s f.name = [] → (p.hs.phase ≠ 0 ∨ initiates port.val = false ∨ p.rxNext + 1 ≠ 2 ^ 40) →
      ∃ t, exec (.ringFrameReceive port f) s = .next t ∧
        t.prs.data = s.prs.data ++ [{ name := f.name, bytes := f.payload, poison := !f.bad.isEmpty, readers := 0, work := .decode }] ∧
        (get5 t.ports port.val).rxNext = p.rxNext + 1 ∧ (get5 t.ports port.val).nakOut = false ∧
        fragments t f.name = [(0, f.payload, f.bad.length)] ∧
        (get5 t.buf.shares port.val).cells = (get5 s.buf.shares port.val).cells + (f.payload.length + 255) / 256 ∧
        t.buf.parity = min (s.buf.parity + f.bad.length) (2 ^ 32 - 1) ∧ (f.bad ≠ [] → t.buf.sticky.getLsbD 2 = true) ∧
        { t with prs := { t.prs with data := s.prs.data }, ports := s.ports
                 buf := { t.buf with shares := s.buf.shares, parity := s.buf.parity, sticky := if f.bad.isEmpty then t.buf.sticky else s.buf.sticky } } = s)) ∧
  (∀ (s : State) (port : PortId) (d : Delimiter) (cw : Codewords), ringLive s port.val = true → d.nak = false → (get5 s.ports port.val).ringQ = [] →
    ∃ t, exec (.ringDelimiterReceive port ⟨d, cw⟩) s = .next t ∧ (get5 t.ports port.val).xoffIn = d.xoff ∧
      (d.ack < (get5 s.ports port.val).txCtr →
        (get5 t.ports port.val).replay = (get5 s.ports port.val).replay.filter (fun f => decide (d.ack < f.frameCtr))) ∧
      (get5 t.ports port.val).fecCorr = min ((get5 s.ports port.val).fecCorr + cw.corrected) (2 ^ 32 - 1) ∧
      (get5 t.ports port.val).fecUncorr = min ((get5 s.ports port.val).fecUncorr + cw.failed) (2 ^ 32 - 1) ∧
      (get5 t.ports port.val).txCtr = (get5 s.ports port.val).txCtr ∧ { t with ports := s.ports } = s) ∧
  (∀ (s : State) (port : PortId), ringLive s port.val = true → (get5 s.ports port.val).replay ≠ [] →
    let p := get5 s.ports port.val
    let n := p.replay.length
    (p.xoffIn = false → p.resends.headD 0 < 7 → ∃ t, exec (.ringRetxTimeout port) s = .next t ∧ get5 t.ports port.val =
        { p with resends := (p.resends.take n).map (· + 1) ++ p.resends.drop n, retx := min (p.retx + n) (2 ^ 32 - 1) } ∧
      (∀ f ∈ p.replay, ∃ lanes, Output.ringFrame port.val f lanes ∈ t.out) ∧ { t with ports := s.ports, out := s.out, draw := s.draw } = s) ∧
    (p.xoffIn = false → 7 ≤ p.resends.headD 0 → ∃ t, exec (.ringRetxTimeout port) s = .next t ∧ (get5 t.ports port.val).up = false ∧
      (get5 t.ports port.val).reason = 4 ∧ (get5 t.ports port.val).keyed = false ∧ (get5 t.ports port.val).replay = []) ∧
    (p.replay.takeWhile (fun f => !(p.xoffIn && (f.type == 1 || f.type == 3))) = [] → exec (.ringRetxTimeout port) s = .next s)) ∧
  (∀ (s : State) (port : PortId), (get5 s.ports port.val).mode = 2 → (get5 s.ports port.val).up = true →
    (∀ f ∈ (get5 s.ports port.val).ringQ, canSend s port.val f.type f.payload.length = false) →
    let d := delimiterOf s port.val false
    d.frame = false ∧ exec (.ringIdleDelimiter port) s = .next { s with
      draw := s.draw + 1, out := s.out ++ [.delimiter port.val d (delimiterWord d)] }) ∧
  (∀ (s : State) (port : PortId) (r : Ring), s.ring = some r → ringLive s port.val = true → canSend s port.val 4 10 = true →
    (get5 s.ports port.val).txCtr + 1 ≠ 2 ^ 40 → (get5 s.ports port.val).txCtr + 1 ≠ 2 ^ 41 →
    ∃ t f lanes, exec (.keepaliveSend port) s = .next t ∧ Output.ringFrame port.val f lanes ∈ t.out ∧
      Output.control (facing r port.val) (.keepalive (sessionStroke s .decode) r.epoch (s.dec.elim 0 shownState)) ∈ t.out ∧
      f.type = 4 ∧ f.dest = facing r port.val ∧ f.src = r.index ∧ f.hopsLeft = 1 ∧ f.frameCtr = (get5 s.ports port.val).txCtr ∧
      f.payload = leBytes 8 (sessionStroke s .decode) ++ leBytes 1 r.epoch ++ leBytes 1 (s.dec.elim 0 shownState) ∧
      (get5 t.ports port.val).txCtr = (get5 s.ports port.val).txCtr + 1 ∧
      (get5 t.ports port.val).replay = (get5 s.ports port.val).replay ++ [f] ∧ { t with ports := s.ports, out := s.out, draw := s.draw } = s) ∧
  (∀ (s : State) (port : PortId) (src stroke epoch st : Nat) (r : Ring), s.ring = some r → ringLive s port.val = true →
    exec (.keepaliveReceive port src stroke epoch st) s = .next { s with ring := some { r with progress := mapSet r.progress src stroke } })

/-- LINK_SILENCE_TIMEOUT, PROGRESS_TIMEOUT, SUSPICION_RECEIVE, SELF_REPORT_RECEIVE, OPEN_JOIN_TIMEOUT, VIEW_FRAME_RECEIVE, REFORM_TIMEOUT, STEP_DIGEST_VOTE,
OPEN_DIGEST_EXCHANGE, MIRROR_REBUILD_DONE, SPARE_HANDOVER (R121, R158 to R166, R169, R173): a silent cable between neighbours re-forms the ring without it;
a second suspicion, a self-report or a late open re-forms it without the member; equal view frames install the view, with the
next epoch; a ring that cannot agree in time is left; a step whose digests are all equal may commit; a hand-over asks for its view, which moves
the stretch once every member's frame agrees.
The model's choices in it: notes/assumptions 55, 56. -/
def Obligations.RecoveryOfRings : Prop :=
  (∀ (s : State) (port : PortId) (member : Nat) (r : Ring) (d : Session), s.ring = some r → s.dec = some d → d.ring ≠ 0 → d.state ≠ 6 → d.state ≠ 5 →
    r.state = 2 → r.ports = ringPorts r.count → port.val ∈ r.ports → facing r port.val = member → member ≠ r.index →
    let c := cableAt r.count r.index port.val
    c ∉ r.lostLinks → r.alive.getLsbD r.index = true → r.alive.getLsbD member = true → 2 < popcount r.alive → r.suspects = [] → r.frames = [] →
    ∃ t x, exec (.linkSilenceTimeout member port) s = .next t ∧ t.ring = some { r with
        suspects := [(r.index, member)], state := 3, mask := r.alive, lostLinks := c :: r.lostLinks, handing := false } ∧
      t.dec = some x ∧ x.state = 5 ∧ x.parkedIn = d.state ∧ x.outputs = d.outputs ∧
      (∀ i ∈ others r, Output.control i (.suspicion member (some c)) ∈ t.out)) ∧
  (∀ (s : State) (member : Nat) (r : Ring) (d : Session), s.ring = some r → s.dec = some d → d.ring ≠ 0 → d.state ≠ 6 → r.state = 2 →
    member ≠ r.index → waitsFor s member = true → r.alive.getLsbD r.index = true → r.alive.getLsbD member = true → 2 < popcount r.alive →
    r.suspects = [] →
    let cables := (cablesOf r r.index member).filter (fun c => !r.lostLinks.contains c)
    (cables.length ≠ 1 → ∃ t, exec (.progressTimeout member) s = .next t ∧ t.ring = some { r with suspects := [(r.index, member)] } ∧ t.dec = s.dec ∧
      (∀ i ∈ others r, Output.control i (.suspicion member none) ∈ t.out)) ∧
    (∀ c, cables = [c] → d.state ≠ 5 → r.frames = [] → ∃ t x, exec (.progressTimeout member) s = .next t ∧ t.ring = some { r with
        suspects := [(r.index, member)], state := 3, mask := r.alive, lostLinks := c :: r.lostLinks, handing := false } ∧
      t.dec = some x ∧ x.state = 5 ∧ x.outputs = d.outputs)) ∧
  (∀ (s : State) (src k member : Nat) (cable : Option Nat) (r : Ring) (d : Session), s.ring = some r → s.dec = some d → d.ring ≠ 0 → d.state ≠ 6 → d.state ≠ 5 →
    r.state = 2 → src ≠ r.index → member ≠ r.index → k ≠ src → src ≠ member → r.alive.getLsbD src = true → r.alive.getLsbD k = true →
    r.alive.getLsbD member = true → r.suspects = [(k, member)] → r.joining = none → r.frames = [] → 2 < popcount r.alive →
    ∃ t x, exec (.suspicionReceive src ⟨member, cable⟩) s = .next t ∧
      t.ring = some { r with suspects := [(src, member), (k, member)], state := 3, mask := clearBit r.alive member, handing := false } ∧
      t.dec = some x ∧ x.state = 5 ∧ x.outputs = d.outputs) ∧
  (∀ (s : State) (c : Instr) (member : Nat) (r : Ring) (d : Session), s.ring = some r → s.dec = some d → d.ring ≠ 0 → d.state ≠ 6 → d.state ≠ 5 →
    (c = .selfReportReceive member ∨ (c = .openJoinTimeout member ∧ d.opensSeen = false)) → r.state = 2 → member ≠ r.index →
    r.alive.getLsbD member = true → r.joining = none → r.frames = [] → 2 < popcount r.alive →
    ∃ t x, exec c s = .next t ∧ t.ring = some { r with state := 3, mask := clearBit r.alive member, handing := false } ∧ t.dec = some x ∧ x.state = 5 ∧
      x.outputs = d.outputs) ∧
  (∀ (s : State) (v : ViewFrame) (r : Ring) (d : Session), s.ring = some r → s.dec = some d → d.ring ≠ 0 → d.state ≠ 6 → r.spare = false →
    v.src ≠ r.index → v.epoch = (r.epoch + 1) % 256 → v.alive &&& ~~~r.alive = 0 →
    (r.state = 2 → r.frames = [] → 2 < popcount (r.alive &&& v.alive) → (r.joining = none ∨ r.alive &&& v.alive ≠ r.alive) →
      ∃ t x, exec (.viewFrameReceive v) s = .next t ∧
      t.ring = some { r with state := 3, mask := r.alive &&& v.alive, frames := [v], handing := false } ∧ t.dec = some x ∧ x.state = 5 ∧
      x.outputs = d.outputs) ∧
    (r.state = 3 → v.alive = r.mask → (∀ i ∈ membersOf r.mask, i = r.index ∨ i = v.src ∨
        r.frames.any (fun x => x.src == i && x.alive == r.mask && x.epoch == (r.epoch + 1) % 256) = true) →
      r.mask.getLsbD r.index = true → popcount r.alive < 2 * popcount r.mask → d.pendStep = none →
      (∀ k < r.count, (newHolder r d r.mask k).isSome = true) →
      s.mem.poison = [] → ∃ t q, exec (.viewFrameReceive v) s = .next t ∧ t.ring = some q ∧ q.state = 2 ∧ q.epoch = (r.epoch + 1) % 256 ∧ q.alive = r.mask ∧
        q.holders.length = r.count ∧ (∀ k < r.count, q.holders[k]? = newHolder r d r.mask k) ∧ q.suspects = [] ∧ q.frames = [])) ∧
  (∀ (s : State) (r : Ring) (d : Session), s.ring = some r → s.dec = some d → d.ring ≠ 0 → d.state ≠ 6 → r.state = 3 →
    ∃ u x, exec .reformTimeout s = .next (postEvent 0x0602 3 (pack [(statusCode .quorumLost, 16), (r.epoch, 8)]) (r.id % 2 ^ 32) u) ∧
      u.ring = some { r with state := 4 } ∧ u.dec = some x ∧ x.state = 6 ∧ x.stop = 5 ∧ x.cause = .quorumLost) ∧
  (∀ (s : State) (r : Ring) (d : Session) (p : PendingStep), s.ring = some r → s.dec = some d → d.ring ≠ 0 → d.pendStep = some p → p.voted = false →
    d.state ≠ 5 → d.state ≠ 6 → r.state = 2 → (heldDigests s d p r).length = popcount r.alive →
    (∀ x ∈ digestData s d p r, x.2.poison = false) →
    ((∀ x ∈ heldDigests s d p r, p.digest = some x.2) →
      exec .stepDigestVote s = .next { s with dec := some { d with pendStep := some { p with voted := true } } }) ∧
    (∀ x, (heldDigests s d p r).find? (fun x => decide (popcount r.alive < 2 * holdersOf (heldDigests s d p r) x.2)) = some x → 2 < popcount r.alive →
      let gone := ((heldDigests s d p r).filter (fun y => y.2 != x.2)).map (·.1)
      p.digest = some x.2 → gone ≠ [] → r.index ∉ gone → r.joining = none → r.frames = [] → 1 < popcount (gone.foldl clearBit r.alive) →
      ∃ t, exec .stepDigestVote s = .next t ∧ t.ring = some { r with state := 3, mask := gone.foldl clearBit r.alive, handing := false })) ∧
  (∀ (s : State) (r : Ring) (d : Session) (digests : List (Nat × Bytes)), s.ring = some r → s.dec = some d → d.ring ≠ 0 → d.state ≠ 6 →
    d.opensSeen = false → (∀ i ∈ others r, digests.any (fun x => x.1 == i) = true) →
    ((∀ i ∈ others r, digests.any (fun x => x.1 == i && x.2 == sha512 d.openBytes) = true) →
      exec (.openDigestExchange digests) s = .next { s with dec := some { d with opensSeen := true } }) ∧
    (∀ i ∈ others r, digests.any (fun x => x.1 == i && x.2 == sha512 d.openBytes) = false →
      ∃ u x, exec (.openDigestExchange digests) s = .next (postEvent 0x0501 2 (statusCode .digestDisagree) d.ring u) ∧ u.dec = some x ∧
        x.state = 6 ∧ x.stop = 5 ∧ x.cause = .digestDisagree)) ∧
  (∀ (s : State) (first count : Nat) (r : Ring) (d : Session) (m : Mirror), s.ring = some r → s.dec = some d → d.ring ≠ 0 →
    r.mirrors.find? (fun m => m.first == first && m.count == count && !m.done) = some m → joinedSpare d m.holder = false →
    let u := { s with ring := some { r with mirrors := r.mirrors.map (fun x => if x == m then { x with done := true } else x) } }
    exec (.mirrorRebuildDone first count) s = .next (if m.holder = r.index then
      postEvent 0x0603 0 (pack [(first, 32), (count, 32)]) (r.id % 2 ^ 32) u else u)) ∧
  (∀ (s : State) (index : Nat) (r : Ring) (d : Session), s.ring = some r → s.dec = some d → d.ring ≠ 0 → d.state ≠ 6 → r.joining = some index →
    r.state = 2 → r.handing = false → r.alive.getLsbD index = true → r.spare = false → r.frames = [] → 2 < popcount r.alive →
    ∃ t, exec (.spareHandover index) s = .next t ∧ t.ring = some { r with handing := true, mask := r.alive } ∧ t.dec = s.dec ∧
      (∀ i ∈ membersOf r.alive, i ≠ r.index → Output.control i (.view (ownFrame s { r with mask := r.alive })) ∈ t.out)) ∧
  (∀ (s : State) (v : ViewFrame) (index : Nat) (r : Ring) (d : Session), s.ring = some r → s.dec = some d → d.ring ≠ 0 → d.state ≠ 6 →
    r.spare = false → r.state = 2 → r.joining = some index → r.handing = true → r.mask = r.alive → v.src ≠ r.index → v.epoch = (r.epoch + 1) % 256 →
    v.alive = r.alive → (∀ i ∈ membersOf r.alive, i = r.index ∨ i = v.src ∨
      r.frames.any (fun x => x.src == i && x.alive == r.alive && x.epoch == (r.epoch + 1) % 256) = true) → atBoundary s = true → s.mem.poison = [] →
    let before := (index + r.count - 1) % r.count
    ∃ t x, exec (.viewFrameReceive v) s = .next t ∧
      t.ring = some (setRoutes { r with
        epoch := (r.epoch + 1) % 256, joining := none, handing := false, frames := [], holders := r.holders.set index index
        ids := r.ids.set index (if r.index = index then identityDigest s else expectedId r index), admitted := r.admitted.filter (fun a => a.1 != index)
        mirrors := if before = index then r.mirrors else r.mirrors ++ [⟨before * r.blocks, r.blocks, [before], index, false⟩] }) ∧
      t.dec = some x ∧ x.outputs = d.outputs ∧ x.steps = d.steps ∧ x.state = d.state)

/-- RING_HANDSHAKE_INIT_RECEIVE, RING_HANDSHAKE_RESPONSE_RECEIVE, REKEY_SWITCH, REKEY_RETRY, LINK_REKEY (R239, R241, R246): a message that verifies, from the
neighbour that the ring expects, keys the link both ways; one that does not takes a new link down; a rekey switches when nothing
is outstanding; the module begins one where it is the initiator, also when the other end asks for it, and asks where it is not; an attempt that failed, or
that nothing answered, is tried again.
The model's choices in it: notes/assumptions 52, 53. -/
def Obligations.Handshakes : Prop :=
  (∀ (s : State) (port : PortId) (h : Handshake) (r : Ring), s.ring = some r → r.state ≠ 1 → (get5 s.ports port.val).mode = 2 →
    (get5 s.ports port.val).up = true → (get5 s.ports port.val).keyed = false →
    ((get5 s.ports port.val).ringQ = [] → initiates port.val = false → drbgGrants 3 3 s = true → h.sigOk = true → h.decapOk = true →
      h.identity = expectedId r (facing r port.val) →
      ∃ t a k, exec (.ringHandshakeInitReceive port h) s = .next t ∧ Output.handshake port.val false a ∈ t.out ∧ a.identity = identityDigest s ∧
        a.ringDigest = ringDigest r ∧ k = hsKeys (bvBytes 32 (Config.mlkemEncapSs h.kem (drbgTake 32 s).1)) (hsBytes true h ++ hsBytes false a) ∧ t.ring = s.ring ∧
        (idsBad k = false → (get5 t.ports port.val).keyed = true ∧ (get5 t.ports port.val).txId = k.2.2.2 ∧
          (get5 t.ports port.val).rxId = k.2.2.1 ∧ (get5 t.ports port.val).formed = (if h.ringDigest = ringDigest r then 1 else 3) ∧
          (slotAt t (linkSlot port.val 0 false)).map (·.secret) = some k.2.1 ∧
          (slotAt t (linkSlot port.val 1 false)).map (·.secret) = some k.1)) ∧
    ((get5 s.ports port.val).ringQ = [] → (get5 s.ports port.val).hs.phase = 1 → h.sigOk = true → h.decapOk = true →
      h.identity = expectedId r (facing r port.val) →
      let hs := (get5 s.ports port.val).hs
      let k := hsKeys (bvBytes 32 (Config.mlkemDecaps hs.dk h.kem)) (hs.sentInit ++ hsBytes false h)
      idsBad k = false → ∃ t, exec (.ringHandshakeResponseReceive port h) s = .next t ∧ (get5 t.ports port.val).keyed = true ∧
        (get5 t.ports port.val).txId = k.2.2.1 ∧ (get5 t.ports port.val).rxId = k.2.2.2 ∧ (get5 t.ports port.val).txCtr = 0 ∧
        (slotAt t (linkSlot port.val 0 false)).map (·.secret) = some k.1 ∧ (slotAt t (linkSlot port.val 1 false)).map (·.secret) = some k.2.1 ∧
        { t with ports := s.ports, kst := { t.kst with slots := s.kst.slots } } = s) ∧
    (∀ c : Instr, (c = .ringHandshakeInitReceive port h ∧ initiates port.val = false) ∨
        (c = .ringHandshakeResponseReceive port h ∧ (get5 s.ports port.val).hs.phase = 1) →
      h.sigOk = false ∨ h.decapOk = false ∨ h.identity ≠ expectedId r (facing r port.val) →
      ∃ t, exec c s = .next t ∧ (get5 t.ports port.val).up = false ∧ (get5 t.ports port.val).keyed = false ∧
        (get5 t.ports port.val).reason = (if h.sigOk = false ∨ h.decapOk = false then 5 else 6))) ∧
  (∀ (s : State) (port : PortId), (get5 s.ports port.val).mode = 2 → (get5 s.ports port.val).up = true → (get5 s.ports port.val).keyed = true →
    (get5 s.ports port.val).hs.phase = 2 → (get5 s.ports port.val).replay = [] → (get5 s.ports port.val).ringQ = [] →
    ∃ t, exec (.rekeySwitch port) s = .next t ∧ (get5 t.ports port.val).txId = (get5 s.ports port.val).hs.txId ∧
      (get5 t.ports port.val).txCtr = 0 ∧ (get5 t.ports port.val).keyNext = true ∧
      (get5 t.ports port.val).rekeyCnt = min ((get5 s.ports port.val).rekeyCnt + 1) (2 ^ 32 - 1) ∧
      slotAt t (linkSlot port.val 0 true) = none ∧
      (∀ k, slotAt s (linkSlot port.val 0 true) = some k → (slotAt t (linkSlot port.val 0 false)).map (·.secret) = some k.secret) ∧
      { t with ports := s.ports, kst := { t.kst with slots := s.kst.slots } } = s) ∧
  (∀ (s : State) (port : PortId) (mb : MbId) (j : Job), Begun s mb 0x0905 j → j.payload.length = 8 → field j.payload 0 1 = port.val →
    zeroAt j.payload 1 7 = true → (get5 s.ports port.val).mode = 2 → (get5 s.ports port.val).keyed = true → (get5 s.ports port.val).hs.phase = 0 →
    initiates port.val = false → exec (.linkRekey mb) s =
      .next (answer j .ok { s with ports := mod5 s.ports port.val (fun p => { p with hs := { p.hs with phase := 4 } }), out := s.out ++ [.rekeyAsk port.val] })) ∧
  (∀ (s : State) (port : PortId) (r : Ring), s.ring = some r → (get5 s.ports port.val).mode = 2 → (get5 s.ports port.val).keyed = true →
    initiates port.val = true → drbgReady 3 s = true →
    ((get5 s.ports port.val).up = true → (get5 s.ports port.val).hs.phase = 4 ∨ (get5 s.ports port.val).hs.phase = 1 → ∃ t h, exec (.rekeyRetry port) s = .next t ∧
      Output.handshake port.val true h ∈ t.out ∧ h.identity = identityDigest s ∧ (get5 t.ports port.val).hs.phase = 1 ∧
      (get5 t.ports port.val).keyed = true ∧ drewOnly s { t with ports := s.ports, out := s.out }) ∧
    (∀ ask : Handshake, (get5 s.ports port.val).up = true → (get5 s.ports port.val).ringQ = [] → (get5 s.ports port.val).hs.phase = 0 → r.state ≠ 1 → ∃ t h,
      exec (.ringHandshakeInitReceive port ask) s = .next t ∧ Output.handshake port.val true h ∈ t.out ∧ (get5 t.ports port.val).hs.phase = 1 ∧
      (get5 t.ports port.val).keyed = true ∧ drewOnly s { t with ports := s.ports, out := s.out }) ∧
    (∀ (mb : MbId) (j : Job), Begun s mb 0x0905 j → j.payload.length = 8 → field j.payload 0 1 = port.val → zeroAt j.payload 1 7 = true →
      (get5 s.ports port.val).hs.phase = 0 → ∃ u h, exec (.linkRekey mb) s = .next (answer j .ok u) ∧
        Output.handshake port.val true h ∈ u.out ∧ (get5 u.ports port.val).hs.phase = 1 ∧
        drewOnly s { u with ports := s.ports, out := s.out }))

/-! ## The platen -/

/-- ROUND_OPEN, ROUND_CLOSE, ROUND_CLOSED, ROUND_ABORT, ROUND_STATUS, ROUND_CORRECT, ROUND_RELEASE, ROUND_COUNTS, ROUND_BITMAP (R176 to R192): a round opens
empty; closing waits for ROUND_CLOSED; corrections add or subtract the masks their seeds spell; a release writes out the slices
whose cohort reaches the minimum and that are not poisoned, and no other, and then the round is gone.
The model's choices in it: notes/assumptions 61. -/
def Obligations.RoundCommands : Prop :=
  (∀ (s : State) (mb : MbId) (j : Job), Begun s mb 0x0701 j → guardSet s = false → roundOpenBad s j.payload = false → quiesced s 2 = false →
    s.ptn.rounds.length < 16 →
    let h := freshHandle (workHandles s ++ s.rdm.windows.map (·.round) ++ s.ptn.staged.map (·.round)) s
    let r := newRound h.2 h.1 j.payload
    let room := roundResources r (BitVec.ofNat 32 (field j.payload 0xC 4)) h.2
    room.isSome = true → ∃ u base len, room = some u ∧
    exec (.roundOpen mb) s = .next (finish j .ok (leBytes 4 r.handle ++ leBytes 4 (sliceCount r) ++ leBytes 8 (r.vec * elemWidth r.mode))
      { u with ptn := { u.ptn with rounds := u.ptn.rounds ++ [r] } }) ∧
    r.handle ≠ 0 ∧ r.handle ∉ workHandles s ∧ (∀ w ∈ s.rdm.windows, w.round ≠ r.handle) ∧ r.state = 1 ∧ r.acc = [] ∧ r.admitted = [] ∧
    r.cohort = field j.payload 0x20 4 ∧ r.base = s.prs.stroke ∧ u.mem.held = s.mem.held ++ [⟨base, len, .round r.handle⟩] ∧
    (∀ a, a < sramBase → cellGet u.mem.cells a = if base ≤ a ∧ a < base + len then 0 else cellGet s.mem.cells a) ∧
    countedHbm s { u with draw := s.draw, pla := s.pla, mem := s.mem }) ∧
  (∀ (s : State) (mb : MbId) (j : Job) (r : Round), j.payload.length = 8 → field j.payload 4 4 = 0 → roundAt s (field j.payload 0 4) = some r →
    (Begun s mb 0x0702 j → r.state = 1 → exec (.roundClose mb) s = .next (waitJob j r.handle (modRound r.handle
      (fun r => { r with state := 2, waiter := some (j.mb, j.order) }) s))) ∧
    (Begun s mb 0x0705 j → r.state ≠ 3 → exec (.roundAbort mb) s = .next (waitJob j r.handle (modRound r.handle
      (fun r => { r with state := 2, aborting := true, waiter := some (j.mb, j.order) }) s))) ∧
    (Begun s mb 0x0705 j → r.state = 3 → ∃ u, exec (.roundAbort mb) s = .next (answer j .ok u) ∧
      u.ptn.rounds = s.ptn.rounds.filter (fun x => x.handle != r.handle) ∧ grantOf u (.round r.handle) = none ∧
      (∀ h ∈ u.mem.held, h.owner ≠ .round r.handle) ∧ u.out = s.out) ∧
    (Begun s mb 0x0706 j → exec (.roundStatus mb) s = .next (finish j .ok (leBytes 1 r.state ++ zeros 3 ++ leBytes 4 (sliceCount r) ++
      leBytes 8 r.admitted.length ++ leBytes 4 (slicesAbove r) ++ zeros 4) s))) ∧
  (∀ (s : State) (h m o : Nat) (r : Round) (j : Job), roundAt s h = some r → firmwareRuns s = true → r.state = 2 → r.waiter = some (m, o) → jobAt s o = some j →
    (r.aborting = false → exec (.roundClosed h) s = .next (finish j .ok (leBytes 8 r.admitted.length)
      (modRound h (fun r => { r with state := 3, waiter := none }) s))) ∧
    (r.aborting = true → ∃ u, exec (.roundClosed h) s = .next (answer j .ok u) ∧ roundAt u h = none ∧ u.out = s.out)) ∧
  (∀ (s : State) (mb : MbId) (j : Job) (r : Round), Begun s mb 0x0703 j → j.payload.length = 24 → field j.payload 4 4 = 0 → field j.payload 20 4 = 0 →
    roundAt s (field j.payload 0 4) = some r → r.state = 3 → 1 ≤ field j.payload 16 4 → field j.payload 16 4 ≤ 2 ^ 24 →
    let n := 48 * field j.payload 16 4
    (∀ bad, field j.payload 8 8 < 2 ^ 63 → exec (.roundCorrect ⟨mb, bad⟩) s =
      .next (waitJob j j.subject (hostReadReq 0 (field j.payload 8 8) n (.command j.mb j.order true) (modJob j.order (fun x => { x with bad := bad }) s)))) ∧
    (∀ (bad : List MemFail) (a : Nat), field j.payload 8 8 = 2 ^ 63 + a → a < 2 ^ 48 → devOk s a n = true → (checkedRead bad a n s).2.1 = false →
      jobAt s j.order = some j → j.applied = 0 →
      let es := entriesOf (cellRead s.mem.cells a n)
      (∀ e ∈ es, entryBad r e = false) → ∃ u q, exec (.roundCorrect ⟨mb, bad⟩) s = .next (finish { j with bad := bad } .ok (leBytes 4 (field j.payload 16 4) ++ zeros 4) u) ∧
        roundAt u r.handle = some q ∧ q.state = 3 ∧ q.admitted = r.admitted ∧
        q.acc = (es.foldl (fun x e => (List.range (field e 0x24 4)).foldl (fun x k =>
          accumulate x (field e 0x20 4 + k) (sliceMask r (e.take 32) (field e 0x20 4 + k)) (field e 0x28 1 == 1)) x) r).acc)) ∧
  (∀ (s : State) (mb : MbId) (j : Job) (r : Round), Begun s mb 0x0704 j → j.payload.length = 24 → field j.payload 4 4 = 0 →
    roundAt s (field j.payload 0 4) = some r → r.state = 3 → field j.payload 8 8 < 2 ^ 63 → field j.payload 16 8 < 2 ^ 63 → fnReady s 2 = true → fenced s 2 = false →
    (∀ i < sliceCount r, (readPieces [] (accPieces s r i) s).1 = false) →
    let sound := (List.range (sliceCount r)).filter (fun i => !r.poisoned.contains i)
    let out := sound.filter (fun i => decide (r.cohort ≤ cohortCount r i))
    let low := sound.length - out.length
    let bad := sliceCount r - sound.length
    ∃ u, exec (.roundRelease ⟨mb, []⟩) s = .next (finish j (if low ≠ 0 then .cohortTooSmall else if bad ≠ 0 then .dataPoisoned else .ok)
        (leBytes 4 out.length ++ leBytes 4 low ++ leBytes 4 bad ++ zeros 4) u) ∧
      u.out = s.out ++ out.flatMap (fun i => onBus s (.hostWrite 2 (field j.payload 8 8 + elemWidth r.mode * i * r.slice) (sumBytes r i))) ++
        onBus s (.hostWrite 2 (field j.payload 16 8) (bitBytes ((sliceCount r + 63) / 64 * 8) out)) ∧
      u.ptn.rounds = s.ptn.rounds.filter (fun x => x.handle != r.handle) ∧ grantOf u (.round r.handle) = none ∧
      u.ptn.withheldCnt = min (s.ptn.withheldCnt + (low + bad)) (2 ^ 32 - 1)) ∧
  (∀ (s : State) (mb : MbId) (j : Job) (r : Round), j.payload.length = 16 → field j.payload 4 4 = 0 → roundAt s (field j.payload 0 4) = some r →
    field j.payload 8 8 < 2 ^ 63 → fenced s 2 = false →
    (Begun s mb 0x0707 j → exec (.roundCounts mb) s = .next (answer j .ok (post 2 (.hostWrite 2 (field j.payload 8 8)
      ((List.range (sliceCount r)).flatMap (fun i => leBytes 4 (cohortCount r i)))) s))) ∧
    (Begun s mb 0x0708 j → r.state = 3 → exec (.roundBitmap mb) s = .next (answer j .ok (post 2 (.hostWrite 2 (field j.payload 8 8)
      (bitBytes (roundUp 64 ((r.clients * sliceCount r + 7) / 8)) (r.admitted.map (fun a => a.2 * r.clients + a.1)))) s))))

/-- STAGING_RESERVE, SLICE_ADMISSION (R181 to R184, R289): a slice whose write begins takes its cells of the staging share, at once or when they come free; a
complete slice that passes every check is admitted, its bit set and its elements added once, and one that fails leaves its round
as it was.
The model's choices in it: notes/assumptions 61. -/
def Obligations.SliceAdmissions : Prop :=
  (∀ (s : State) (p : RocePacket) (port : Nat) (inCh : Bool) (i : Instr) (c : Conn) (w : Window),
    (i = .stagingReserve ∧ s.rdm.waiting = [{ port := port, qpn := p.qpn, arrival := .request p, inChannel := inCh }]) ∨
      (i = .roceRequestReceive p ∧ s.rdm.waiting = [] ∧ portDelivers s p.port.val = true) →
    connOf s p.qpn = some c → connAt s c.handle = some c → c.error = false → c.cached = true → p.op = .write → p.first = true → p.psn = c.expPsn → p.psn < 2 ^ 24 → c.incoming = none → c.order = [] →
    packetFits c p 0 p.dmaLen = true → keyCheck s c .write p.rkey p.va p.dmaLen = some w → w.summing = true → sliceRefused w p.va p.dmaLen = false →
    stagingRoom s none p.dmaLen = true → (∀ x ∈ s.ptn.staged, x.id ≠ s.ptn.nextStaged) →
    ∃ t c', exec i s = .next t ∧ t.ptn = { s.ptn with
        staged := s.ptn.staged ++ [{ id := s.ptn.nextStaged, round := w.round, conn := c.handle, bytes := p.data, poison := !p.bad.isEmpty
                                     cells := (p.dmaLen + 255) / 256, complete := p.last }]
        nextStaged := s.ptn.nextStaged + 1 } ∧
      t.rdm.waiting = [] ∧ connAt t c.handle = some c' ∧ c'.expPsn = (p.psn + 1) % 2 ^ 24 ∧ (s.mbx.ring = none → t.mem = s.mem)) ∧
  (∀ (s : State) (id : Nat) (bad : List MemFail) (x : Staged) (c : Conn) (r : Round), s.ptn.staged.find? (fun y => y.id == id) = some x →
    connAt s x.conn = some c → sliceTurn c x = true → roundAt s x.round = some r →
    (sliceCheck r x.bytes x.poison = none → ∃ t q, exec (.sliceAdmission id bad) s = .next t ∧ roundAt t r.handle = some q ∧
      q.admitted = r.admitted ++ [(field x.bytes 8 4, field x.bytes 0xC 4)] ∧
      q.acc = (accumulate r (field x.bytes 0xC 4) (bodyElems r (x.bytes.drop 64)) false).acc ∧
      t.ptn.admitCnt = min (s.ptn.admitCnt + 1) (2 ^ 32 - 1) ∧ (∀ y ∈ t.ptn.staged, y.id ≠ id)) ∧
    (∀ st, sliceCheck r x.bytes x.poison = some st → ∃ t, exec (.sliceAdmission id bad) s = .next t ∧ roundAt t r.handle = some r ∧
      t.ptn.admitCnt = s.ptn.admitCnt ∧ (∀ y ∈ t.ptn.staged, y.id ≠ id)))

/-! ## The homomorphic engine -/

/-- HEV_CTX_OPEN, HEV_CTX_CLOSE, HEV_CTX_STATUS, HEV_KEY_LOAD, HEV_KEY_DROP, HEV_BURNISH_SET (R195 to R200, R204, R205, R222): a context opens empty under a new
handle; a close leaves nothing of it; a key image whose chunks all agree with the context becomes a key, resident where asked
and where its reservation has room; a set of burnish plates is registered with its banks.
The model's choices in it: notes/assumptions 69, 70. -/
def Obligations.ContextCommands : Prop :=
  (∀ (s : State) (mb : MbId) (j : Job), Begun s mb 0x0801 j → guardSet s = false → ctxOpenBad j.payload = false →
    blockFails (j.payload.drop 16) = none → quiesced s 3 = false → s.hev.ctxs.length < 8 →
    let h := freshHandle (workHandles s) s
    let room := ctxResources h.1 j.payload h.2
    room.isSome = true → ∃ u c base len, room = some u ∧ exec (.hevCtxOpen mb) s = .next (finish j .ok (leBytes 4 h.1 ++ zeros 4 ++ leBytes 8 c.chain)
        { u with hev := { u.hev with ctxs := u.hev.ctxs ++ [c] } }) ∧ h.1 ≠ 0 ∧ h.1 ∉ workHandles s ∧ c.handle = h.1 ∧ c.slots = [] ∧ c.keys = [] ∧
      c.params = paramsOf (j.payload.drop 16) ∧ c.chain = field (sha512 (j.payload.drop 16)) 0 8 ∧ c.slotCnt = field j.payload 0xC 4 ∧
      c.faulted = false ∧ c.burnish = none ∧ c.base = s.prs.stroke ∧ u.mem.held = s.mem.held ++ [⟨base, len, .ctx h.1⟩] ∧
      (∀ a, a < sramBase → cellGet u.mem.cells a = if base ≤ a ∧ a < base + len then 0 else cellGet s.mem.cells a) ∧
      countedHbm s { u with draw := s.draw, pla := s.pla, mem := s.mem }) ∧
  (∀ (s : State) (mb : MbId) (j : Job) (off : Nat), Begun s mb 0x0801 j → guardSet s = false → ctxOpenBad j.payload = false →
    blockFails (j.payload.drop 16) = some off → exec (.hevCtxOpen mb) s = .next (refuseWith j .badArg off s)) ∧
  (∀ (s : State) (mb : MbId) (j : Job) (c : HCtx), j.payload.length = 8 → field j.payload 4 4 = 0 → ctxAt s (field j.payload 0 4) = some c →
    (Begun s mb 0x0802 j → ctxDescs s c.handle = [] → ∃ u, exec (.hevCtxClose mb) s = .next (answer j .ok u) ∧
      u.hev = { s.hev with ctxs := s.hev.ctxs.filter (fun x => x.handle != c.handle), ops := s.hev.ops.filter (fun o => o.ctx != c.handle) } ∧
      grantOf u (.ctx c.handle) = none ∧ (∀ h ∈ u.mem.held, h.owner ≠ .ctx c.handle ∧ ∀ k, h.owner ≠ .key c.handle k) ∧
      (∀ h ∈ s.mem.held, (h.owner = .ctx c.handle ∨ ∃ k, h.owner = .key c.handle k) → ∀ a, h.base ≤ a ∧ a < h.base + h.len → cellGet u.mem.cells a = 0) ∧
      u.ptn = s.ptn ∧ u.out = s.out) ∧
    (Begun s mb 0x0805 j → exec (.hevCtxStatus mb) s = .next (finish j .ok ([Config.ctxStateCode c.faulted] ++ zeros 3 ++
      leBytes 4 (c.slots.filter (fun x => x.2.valid)).length ++ leBytes 4 c.keys.length ++
      leBytes 8 ((c.keys.filter (fun k => k.resident)).length * keyBytesOf c.params) ++
      leBytes 8 ((c.keys.filter (fun k => !k.resident)).length * keyBytesOf c.params)) s))) ∧
  (∀ (s : State) (mb : MbId) (j : Job) (c : HCtx), Begun s mb 0x0803 j → j.payload.length = 24 → field j.payload 4 4 ≤ 1 →
    ctxAt s (field j.payload 0 4) = some c → c.params.p ≠ [] → field j.payload 16 8 = keyChunks c.params * chunkLen c.params →
    let n := field j.payload 16 8
    (placeHbm n s).1.isSome = true →
    (∀ bad, field j.payload 8 8 < 2 ^ 63 → exec (.hevKeyLoad ⟨mb, bad⟩) s =
      .next (waitJob j j.subject (hostReadReq 0 (field j.payload 8 8) n (.command j.mb j.order true) (modJob j.order (fun x => { x with bad := bad }) s)))) ∧
    (∀ bad a, field j.payload 8 8 = 2 ^ 63 + a → a < 2 ^ 48 → devOk s a n = true → (checkedRead bad a n s).2.1 = false →
      let img := cellRead s.mem.cells a n
      let banks := bankCount (keyBytesOf c.params)
      (∀ i < keyChunks c.params, chunkBad c img i = false) →
      (∀ k ∈ c.keys, ¬(k.tag = field img 0x10 8 ∧ k.kind = field img 6 1 ∧ k.galois = field img 0x18 4)) →
      (placeHbm n (freshHandle (c.keys.map (·.handle)) s).2).1.isSome = true →
      ∃ u k base, exec (.hevKeyLoad ⟨mb, bad⟩) s = .next (finish j .ok (leBytes 4 k.handle ++ leBytes 1 (b2n k.resident) ++ zeros 3 ++ leBytes 8 k.tag) u) ∧
        ctxAt u c.handle = some { c with keys := c.keys ++ [k] } ∧ (∀ x ∈ c.keys, x.handle ≠ k.handle) ∧ k.tag = field img 0x10 8 ∧
        k.kind = field img 6 1 ∧ k.galois = field img 0x18 4 ∧ k.chunks = keyImage c.params img ∧ k.banks = banks ∧
        k.resident = (field j.payload 4 4 == 1 && decide (residentBanks c + banks ≤ c.keyBanks)) ∧
        u.mem.held = s.mem.held ++ [⟨base, n, .key c.handle k.handle⟩] ∧ u.prs = s.prs ∧ u.dec = s.dec)) ∧
  (∀ (s : State) (mb : MbId) (j : Job) (c : HCtx) (k : HKey), Begun s mb 0x0804 j → j.payload.length = 8 → ctxAt s (field j.payload 0 4) = some c →
    c.keys.find? (fun k => k.handle == field j.payload 4 4) = some k → keyNamed s c k = false →
    ∃ u, exec (.hevKeyDrop mb) s = .next (answer j .ok u) ∧ ctxAt u c.handle = some { c with keys := c.keys.filter (fun x => x.handle != k.handle) } ∧
      u.mem.held = s.mem.held.filter (fun h => h.owner != .key c.handle k.handle) ∧
      (∀ h ∈ s.mem.held, h.owner = .key c.handle k.handle → ∀ a, h.base ≤ a ∧ a < h.base + h.len → cellGet u.mem.cells a = 0) ∧
      (∀ a, (∀ h ∈ s.mem.held, h.owner = .key c.handle k.handle → ¬(h.base ≤ a ∧ a < h.base + h.len)) → cellGet u.mem.cells a = cellGet s.mem.cells a) ∧
      countedHbm s { u with hev := s.hev, mem := s.mem }) ∧
  (∀ (s : State) (mb : MbId) (j : Job) (c : HCtx) (ps : List Plate) (b : BurnishSet) (work : Nat) (banks : List Nat), Begun s mb 0x0806 j →
    j.payload.length = 8 + 4 * field j.payload 4 4 → ctxAt s (field j.payload 0 4) = some c → ctxDescs s c.handle = [] → c.params.bgv = false →
    8 ≤ field j.payload 4 4 → field j.payload 4 4 ≤ 48 →
    let hs := (List.range (field j.payload 4 4)).map (fun i => field j.payload (8 + 4 * i) 4)
    hs.map (plateAt s) = ps.map some → (∀ p ∈ ps, burnishReason c p = none ∧ p.sheets = primarySheets c) →
    (ps.head?).bind (fun p => burnishRecord c hs (sha512 (ps.flatMap (·.digest))) p.image) = some (b, work) →
    pickBanks work c.sheets c.twin (keyBankList s c) s.draw = some banks →
    ∃ u, exec (.hevBurnishSet mb) s = .next (finish j .ok (sha512 (ps.flatMap (·.digest)) ++ leBytes 4 work ++ leBytes 1 b.outLevel ++ zeros 3 ++
        leBytes 2 b.galois.length ++ zeros 2 ++ b.galois.flatMap (leBytes 4)) u) ∧
      ctxAt u c.handle = some { c with burnish := some { b with banks := banks } } ∧ b.plates = hs ∧ b.digest = sha512 (ps.flatMap (·.digest)) ∧
      (∀ a < sramBase, cellGet u.mem.cells a = cellGet s.mem.cells a) ∧ u.mem.held = s.mem.held ∧ u.mem.poison = s.mem.poison ∧
      { u with draw := s.draw, hev := s.hev, pla := { u.pla with grants := s.pla.grants }, mem := s.mem } = s)

/-- HEV_OP_BEGIN, the operations of Table 10-6, BURNISH, HEV_OP_COMPLETE (R206 to R218, R224 to R227): an operation whose operands and keys pass begins and its plates
run, one that fails a check completes with that check's status; its row computes the result its definition gives; at its end
the result is in its output slot, or written out, unless poison, a failed automorphism check or twin halves that differ stop it.
The model's choices in it: notes/assumptions 69, 70, 71, 72. -/
def Obligations.HomomorphicOperations : Prop :=
  (∀ (s : State) (n : Nat) (f : FDesc) (c : HCtx), descAt s n = some f → f.fn = 3 → f.taken = false → ctxAt s (field f.bytes 4 4) = some c →
    mustYield s f = false → c.faulted = false → fieldsBad c f.bytes = false → ctxReady s c = true →
    let op := field f.bytes 1 1
    let status := if op = 0x10 then burnishStatus c f.bytes else operationStatus c f.bytes
    (op = 2 → (hslotAt c (field f.bytes 8 4)).any (·.valid) = true) →
    (∀ st, status = some st → exec (.hevOpBegin n) s = .next (failOp f st s)) ∧
    (status = none → (∀ k a, (op = 8 ∨ op = 0x0B) → keyOf c f.bytes = some k → hslotAt c (field f.bytes 8 4) = some a → k.tag = a.keyTag) →
      (∀ o ∈ s.hev.ops, o.desc ≠ n) →
      ∃ t o, exec (.hevOpBegin n) s = .next t ∧ t.hev = { s.hev with ops := s.hev.ops ++ [o] } ∧ o.desc = n ∧ o.ctx = c.handle ∧ o.op = op ∧
        o.out = field f.bytes 0x10 4 ∧ o.computed = false ∧ o.result = none ∧ descAt t n = some { f with taken := true } ∧
        (op = 0x10 → t.pla.swaps.length = s.pla.swaps.length + c.burnish.elim 0 (·.plates.length) + (homePlates s c.handle).length) ∧
        { t with hev := s.hev, buf := { t.buf with descs := s.buf.descs }, pla := { t.pla with swaps := s.pla.swaps }
                 prs := { t.prs with actions := s.prs.actions, nextAction := s.prs.nextAction } } = s)) ∧
  (∀ (s : State) (n : Nat) (i : Instr) (f : FDesc) (o : HOp) (c : HCtx) (a : HSlot), descAt s n = some f → ctxAt s o.ctx = some c →
    inA c f = some a → ∀ x ∈ [(Instr.hevNeg n, 0x05, { a with comps := a.comps.map (limbs (basis c a.level) polyNeg) }),
      (Instr.hevRescale n, 0x09, rescaleObj c a), (Instr.hevDrop n, 0x0A, { a with level := a.level - 1, comps := a.comps.map (atLevel (a.level - 1)) }),
      (Instr.hevNtt n, 0x0D, { a with comps := evalComps c a.level a, evalForm := true }),
      (Instr.hevIntt n, 0x0E, { a with comps := coefComps c a.level a, evalForm := false })],
    i = x.1 → s.hev.ops.find? (fun o => o.desc == n && o.op == x.2.1 && !o.computed) = some o →
    exec i s = .next (setResult n (some x.2.2) 0 0 0 s) ∧ x.2.2.keyTag = a.keyTag ∧
      x.2.2.level = (if x.2.1 = 0x09 ∨ x.2.1 = 0x0A then a.level - 1 else a.level) ∧ (x.2.1 ≠ 0x09 → x.2.2.scale = a.scale)) ∧
  (∀ (s : State) (n : Nat) (f : FDesc) (o : HOp) (c : HCtx) (a b : HSlot), descAt s n = some f → ctxAt s o.ctx = some c →
    inA c f = some a → inB c f = some b →
    let running := fun (op : Nat) => s.hev.ops.find? (fun o => o.desc == n && o.op == op && !o.computed) = some o
    (running 3 → exec (.hevAdd n) s = .next (setResult n (some (combineObj polyAdd c a b)) 0 0 0 s)) ∧
    (running 4 → exec (.hevSub n) s = .next (setResult n (some (combineObj polySub c a b)) 0 0 0 s)) ∧
    (running 6 → ∃ r, exec (.hevAddPlain n) s = .next (setResult n (some r) 0 0 0 s) ∧ r.level = a.level ∧ r.scale = a.scale ∧ r.keyTag = a.keyTag ∧
      (a.evalForm = true → r.comps = limbs2 (basis c a.level) polyAdd ((evalComps c a.level a).getD 0 []) ((evalComps c a.level b).getD 0 []) ::
        (evalComps c a.level a).drop 1)) ∧
    (running 7 → ∃ r, exec (.hevMulPlain n) s = .next (setResult n (some r) 0 0 0 s) ∧ r.keyTag = a.keyTag ∧
      (rescales f.bytes = false → r.level = a.level ∧ (c.params.bgv = false → r.scale = a.scale + b.scale) ∧ (a.evalForm = true →
        r.comps = (evalComps c a.level a).map (fun x => limbs2 (basis c a.level) polyMul x ((evalComps c a.level b).getD 0 [])))) ∧
      (rescales f.bytes = true → r.level = a.level - 1 ∧ (c.params.bgv = false → r.scale = a.scale + b.scale - c.params.drop.getD a.level 0))) ∧
    (∀ k, running 8 → keyOf c f.bytes = some k →
      exec (.hevMul n) s = .next (setResult n (some (if rescales f.bytes then rescaleObj c (mulObj c k a b) else mulObj c k a b))
        (if k.resident then 0 else switchBytes c.params a.level) (if k.resident then 1 else 0) 0 s) ∧ (mulObj c k a b).keyTag = a.keyTag)) ∧
  (∀ (s : State) (n : Nat) (f : FDesc) (o : HOp) (c : HCtx) (a : HSlot), descAt s n = some f → ctxAt s o.ctx = some c → inA c f = some a →
    let running := fun (op : Nat) => s.hev.ops.find? (fun o => o.desc == n && o.op == op && !o.computed) = some o
    (∀ k, running 0x0B → keyOf c f.bytes = some k → ∃ r, exec (.hevAutomorph n) s = .next (setResult n (some r)
        (if k.resident then 0 else switchBytes c.params a.level) (if k.resident then 1 else 0) (2 * (a.level + 1)) s) ∧
      r.level = a.level ∧ r.scale = a.scale ∧ r.keyTag = a.keyTag ∧ r.comps.length = 2) ∧
    (running 2 → field f.bytes 0x28 8 < 2 ^ 63 → exec (.hevExport n) s = .next (setResult n (some a) 0 0 0 s)) ∧
    (∀ b, running 0x10 → c.burnish = some b → ∃ k h q, exec (.burnish n) s = .next (setResult n (some (burnishObj c b a)) k h q { s with draw := s.draw + 1 }) ∧
      (burnishObj c b a).level = b.outLevel ∧ (burnishObj c b a).scale = b.outScale ∧ (burnishObj c b a).keyTag = a.keyTag) ∧
    (running 0x0C → field f.bytes 0x28 8 < 2 ^ 63 → s.hif.reads.any (fun r => r.purpose == .rotsumList n) = false →
      ∀ bad, exec (.hevRotsum ⟨n, bad⟩) s = .next (hostReadReq 3 (field f.bytes 0x28 8) (8 * field f.bytes 0x24 4) (.rotsumList n) s)) ∧
    (∀ x ks, running 0x0C → field f.bytes 0x28 8 = 2 ^ 63 + x → x < 2 ^ 48 → s.hif.reads.any (fun r => r.purpose == .rotsumList n) = false →
      devOk s x (8 * field f.bytes 0x24 4) = true → ∀ bad, (checkedRead bad x (8 * field f.bytes 0x24 4) s).2.1 = false →
      rotsumKeys c (cellRead s.mem.cells x (8 * field f.bytes 0x24 4)) = some ks → (∀ k ∈ ks, k.tag = a.keyTag) →
      ∃ t o', exec (.hevRotsum ⟨n, bad⟩) s = .next t ∧ t.hev.ops.find? (fun o => o.desc == n) = some o' ∧ o'.computed = true ∧
        o'.result = some (rotsumObj c ks a) ∧ o'.hits = (ks.filter (·.resident)).length)) ∧
  (∀ (s : State) (n : Nat) (f : FDesc) (o : HOp) (c : HCtx), descAt s n = some f → ctxAt s o.ctx = some c →
    s.hev.ops = [o] → o.desc = n → o.op = 1 → o.computed = false → s.hif.reads.any (fun r => r.purpose == .hevImport n) = false →
    (∀ bad, field f.bytes 0x28 8 < 2 ^ 63 → exec (.hevImport ⟨n, bad⟩) s = .next (hostReadReq 3 (field f.bytes 0x28 8) 64 (.hevImport n) s)) ∧
    (∀ x, field f.bytes 0x28 8 = 2 ^ 63 + x → x < 2 ^ 48 →
      let hd := cellRead s.mem.cells x 64
      let len := field hd 0x20 8
      ∀ bad, devOk s x 64 = true → (checkedRead bad x 64 s).2.1 = false → headerBad c hd = false → devOk s (x + 64) len = true →
      (checkedRead bad (x + 64) len (checkedRead bad x 64 s).2.2).2.1 = false →
      residuesBad c (objectOf c hd (cellRead s.mem.cells (x + 64) len)) = false →
      ∃ t, exec (.hevImport ⟨n, bad⟩) s = .next t ∧ t.hev.ops = [{ o with
        data := hd, result := some (objectOf c hd (cellRead s.mem.cells (x + 64) len)), computed := true, keyBytes := 0, hits := 0, checks := 0 }])) ∧
  (∀ (s : State) (n : Nat) (f : FDesc) (o : HOp) (c : HCtx) (r : HSlot), s.hev.ops.find? (fun o => o.desc == n && o.computed) = some o →
    descAt s n = some f → ctxAt s o.ctx = some c → o.result = some r →
    (platesDone s o = true → o.poisoned = false → o.op ≠ 2 → ∃ u x,
      exec (.hevOpComplete n .none) s = .next (finishOp f .ok r.level (o.streamed + o.keyBytes) u) ∧
      ctxAt u o.ctx = some x ∧ hslotAt x o.out = some r ∧ x.keys = c.keys ∧ (∀ k, k ≠ o.out → hslotAt x k = hslotAt c k) ∧
      u.hev.autoCheck = min (s.hev.autoCheck + o.checks) (2 ^ 32 - 1) ∧ u.hev.keyStream = min (s.hev.keyStream + o.keyBytes) (2 ^ 64 - 1) ∧
      { u with hev := s.hev } = s) ∧
    (∀ a, platesDone s o = true → o.poisoned = false → o.op = 2 → field f.bytes 0x28 8 = a → a < 2 ^ 63 → ∃ u,
      exec (.hevOpComplete n .none) s = .next (finishOp f .ok r.level (o.streamed + o.keyBytes) u) ∧ u.hev.ctxs = s.hev.ctxs ∧
      (fenced s 3 = false → { u with hev := s.hev } = post 3 (.hostWrite 3 a (headerOf c r ++ residueBytes r.comps)) s)) ∧
    (o.op ≠ 2 → ∀ bad, ∃ u x k, exec (.hevOpComplete n (.poison bad)) s = .next (finishOp f .dataPoisoned 0xFF k u) ∧ k ≤ o.streamed + o.keyBytes ∧
      ctxAt u o.ctx = some x ∧ (hslotAt x o.out).map (·.valid) = some false ∧
      { u with hev := s.hev, draw := s.draw, prs := { u.prs with actions := s.prs.actions, checks := s.prs.checks, data := s.prs.data }
               pla := { u.pla with swaps := s.pla.swaps, shadowVld := s.pla.shadowVld } } = failWords c bad s) ∧
    (∀ eval g q input output, passOf c f o g q = true → passFails c eval g q input output = true → ∃ t x,
      exec (.hevOpComplete n (.pass eval g q input output)) s = .next t ∧ ctxAt t c.handle = some x ∧ x.faulted = true ∧
      t.hev.autoFault = min (s.hev.autoFault + 1) (2 ^ 32 - 1)) ∧
    (c.twin = true → platesDone s o = true → o.retried = false → (∀ x ∈ s.hev.ops, x.desc = n → x = o) →
      ∃ t o', exec (.hevOpComplete n .twinMismatch) s = .next t ∧ t.hev.ops.find? (fun x => x.desc == n) = some o' ∧ o'.retried = true ∧
        o'.computed = false ∧ o'.result = none ∧ t.pla.twinCnt = min (s.pla.twinCnt + 1) (2 ^ 32 - 1)) ∧
    (c.twin = true → platesDone s o = true → o.retried = true → o.op ≠ 2 → ∃ u x, exec (.hevOpComplete n .twinMismatch) s =
        .next (finishOp f .digestDisagree 0xFF (o.streamed + o.keyBytes) u) ∧ ctxAt u o.ctx = some x ∧ (hslotAt x o.out).map (·.valid) = some false))

/-! ## Ports -/

/-- PORT_SET, PORT_STATUS, MACSEC_SA_SET, MACSEC_SA_CLEAR, PORT_TRAIN_ATTEMPT, PORT_LINK_UP, LINK_DOWN, NETWORK_FRAME_RECEIVE, PFC_PAUSE_RECEIVE, PFC_PAUSE_EXPIRE
(R229 to R234, R242, R243, R245, R246, R283, R288): a new setting takes the port down and brings it up again, or leaves it in electrical
idle; an SA joins the port's list; a link that goes down says why, and a ring link loses its keys; a frame under an installed SA
that verifies is stored in its channel, and any other is dropped and counted.
The model's choices in it: notes/assumptions 59, 60. -/
def Obligations.PortsAndLinks : Prop :=
  let keyed := fun (p : Port) => { p with keyed := decide (p.txSa ≠ [] ∧ p.rxSa ≠ []) }
  (∀ (s : State) (mb : MbId) (j : Job), Begun s mb 0x0901 j → j.payload.length = 8 → field j.payload 0 1 ≤ 4 → field j.payload 1 1 ≤ 4 →
    field j.payload 2 1 ≤ 1 → zeroAt j.payload 3 5 = true →
    let n := field j.payload 0 1
    let rate := field j.payload 1 1
    let an := field j.payload 2 1 == 1
    let p := get5 s.ports n
    p.mode ≠ 2 → (∀ c ∈ s.rdm.conns, c.port.val ≠ n) →
    (p.rate = rate → (rate ≤ 1 ∨ p.an = an) → exec (.portSet mb) s = .next (answer j .ok s)) ∧
    (¬(p.rate = rate ∧ (rate ≤ 1 ∨ p.an = an)) → ∃ u, exec (.portSet mb) s = .next (answer j .ok u) ∧ (get5 u.ports n).up = false ∧
      (get5 u.ports n).rate = rate ∧ (get5 u.ports n).an = an ∧ (get5 u.ports n).mode = (if rate = 0 then 0 else 1) ∧
      (get5 u.ports n).optOff = (rate == 0) ∧ (get5 u.ports n).everUp = false ∧ (∀ i < 5, i ≠ n → get5 u.ports i = get5 s.ports i) ∧ u.ring = s.ring)) ∧
  (∀ (s : State) (mb : MbId) (j : Job), Begun s mb 0x0902 j → j.payload.length = 8 → field j.payload 0 1 ≤ 4 → zeroAt j.payload 1 7 = true →
    exec (.portStatus mb) s = .next (finish j .ok (leBytes 4 (lnkStatus (get5 s.ports (field j.payload 0 1))) ++ zeros 4 ++
      leBytes 8 (get5 s.ports (field j.payload 0 1)).txCtr) s)) ∧
  (∀ (s : State) (mb : MbId) (j : Job), Begun s mb 0x0903 j → j.payload.length = 48 → field j.payload 0 1 ≤ 4 → field j.payload 1 1 ≤ 1 →
    field j.payload 2 1 ≤ 3 → field j.payload 3 1 = 0 → field j.payload 6 2 = 0 → field j.payload 12 4 ≤ 2 ^ 30 → field j.payload 28 4 = 0 →
    let n := field j.payload 0 1
    let tx := field j.payload 1 1 = 0
    let p := get5 s.ports n
    let sas := if tx then p.txSa else p.rxSa
    let a : Sa := { an := field j.payload 2 1, slot := field j.payload 4 2, ssci := field j.payload 8 4, window := field j.payload 12 4
                    salt := slice j.payload 16 12, sci := field j.payload 40 8, pn := field j.payload 32 8 }
    let one := fun (l : List Sa) => l.map (fun x => { x with sci := a.sci })
    p.mode ≠ 2 → sas.length < 2 → (∀ x ∈ sas, x.an ≠ a.an) → (slotFor s a.slot 2).isSome = true → p.waiting = [] →
    (tx → a.pn < 0xC000000000000000) → ∃ u, exec (.macsecSaSet mb) s = .next (answer j .ok u) ∧
      get5 u.ports n = keyed (if tx then { p with txSa := one p.txSa ++ [a] } else { p with rxSa := one p.rxSa ++ [a] }) ∧ { u with ports := s.ports } = s) ∧
  (∀ (s : State) (mb : MbId) (j : Job), Begun s mb 0x0904 j → j.payload.length = 8 → field j.payload 0 1 ≤ 4 → field j.payload 1 1 ≤ 1 →
    field j.payload 2 1 ≤ 3 → zeroAt j.payload 3 5 = true →
    let p := get5 s.ports (field j.payload 0 1)
    let drop := fun (l : List Sa) => l.filter (fun a => a.an != field j.payload 2 1)
    (∃ a ∈ (if field j.payload 1 1 = 0 then p.txSa else p.rxSa), a.an = field j.payload 2 1) →
    ∃ u, exec (.macsecSaClear mb) s = .next (answer j .ok u) ∧ get5 u.ports (field j.payload 0 1) =
      keyed (if field j.payload 1 1 = 0 then { p with txSa := drop p.txSa } else { p with rxSa := drop p.rxSa }) ∧ { u with ports := s.ports } = s) ∧
  (∀ (s : State) (port : PortId), bringingUp s port.val = true →
    let p := get5 s.ports port.val
    let up := { p with up := true, lock := 15, reason := 0, everUp := true }
    exec (.portTrainAttempt port false) s = .next { s with ports := mod5 s.ports port.val (fun p => { p with reason := 2 }) } ∧
    exec (.portTrainAttempt port true) s = .next s ∧
    (p.mode = 1 → ∃ t, exec (.portLinkUp port) s = .next t ∧ (get5 t.ports port.val).up = true ∧ (get5 t.ports port.val).lock = 15 ∧
      (get5 t.ports port.val).reason = 0 ∧ (get5 t.ports port.val).keyed = decide (p.txSa ≠ [] ∧ p.rxSa ≠ []) ∧
      (p.waiting = [] → t = { s with ports := mod5 s.ports port.val (fun _ => keyed up) })) ∧
    (p.mode = 2 → initiates port.val = false → exec (.portLinkUp port) s = .next { s with ports := mod5 s.ports port.val (fun _ => up) }) ∧
    (p.mode = 2 → initiates port.val = true → drbgReady 3 s = true → s.ring.isSome = true → ∃ t h, exec (.portLinkUp port) s = .next t ∧
      Output.handshake port.val true h ∈ t.out ∧ h.identity = identityDigest s ∧ (get5 t.ports port.val).up = true ∧
      (get5 t.ports port.val).hs.phase = 1 ∧ drewOnly s { t with ports := s.ports, out := s.out })) ∧
  (∀ (s : State) (port : PortId) (reason : Nat) (cw : Codewords),
    let p := get5 s.ports port.val
    (p.up = false → exec (.linkDown port ⟨reason, cw⟩) s = .next s) ∧
    (p.up = true → ∃ t, exec (.linkDown port ⟨reason, cw⟩) s = .next t ∧
      let q := get5 t.ports port.val
      q.up = false ∧ q.keyed = false ∧ q.lock = 0 ∧ q.reason = reason ∧ q.sticky.getLsbD 1 = true ∧ q.mode = p.mode ∧ q.txSa = p.txSa ∧ q.rxSa = p.rxSa ∧
      q.fecCorr = min (p.fecCorr + cw.corrected) (2 ^ 32 - 1) ∧ q.fecUncorr = min (p.fecUncorr + cw.failed) (2 ^ 32 - 1) ∧
      q.sticky.getLsbD 2 = (p.sticky.getLsbD 2 || cw.failed != 0) ∧
      (p.mode = 2 → q.replay = [] ∧ q.ringQ = [] ∧ ∀ n, 8 + 4 * port.val ≤ n → n < 12 + 4 * port.val → slotAt t n = none) ∧
      (∀ r, p.mode = 2 → s.ring = some r → s.dec = none → r.state ≠ 1 → r.state ≠ 4 → port.val ∈ r.ports → t.ring = some { r with state := 4 }) ∧
      (∀ i < 5, i ≠ port.val → get5 t.ports i = get5 s.ports i) ∧ t.dec = s.dec ∧ t.prs = s.prs)) ∧
  (∀ (s : State) (port : PortId) (f : NetFrame) (cw : Codewords),
    let p := get5 s.ports port.val
    let ports := fun (g : Port → Port) => ({ s with ports := mod5 s.ports port.val (fun p => g { p with
      fecCorr := min (p.fecCorr + cw.corrected) (2 ^ 32 - 1), fecUncorr := min (p.fecUncorr + cw.failed) (2 ^ 32 - 1)
      sticky := if cw.failed = 0 then p.sticky else setBit p.sticky 2 }) } : State)
    (p.up = false → exec (.networkFrameReceive port ⟨f, cw⟩) s = .next s) ∧
    (p.mode = 1 → p.up = true → f.fcsOk = true → 64 ≤ f.length → f.length ≤ 9216 →
      (f.kind = .eapol → fenced s 4 = false → exec (.networkFrameReceive port ⟨f, cw⟩) s =
        .next { ports (fun p => p) with out := s.out ++ [.eapol port.val f.bytes] }) ∧
      (f.kind = .linkPause → exec (.networkFrameReceive port ⟨f, cw⟩) s =
        .next (ports (fun p => { p with pauseRx := min (p.pauseRx + 1) (2 ^ 32 - 1) }))) ∧
      (f.kind = .unprotected → exec (.networkFrameReceive port ⟨f, cw⟩) s =
        .next (ports (fun p => { p with macDrop := min (p.macDrop + 1) (2 ^ 32 - 1) }))) ∧
      (∀ an sci pn icvOk, f.kind = .macsec an sci pn icvOk →
        let serves := fun (a : Sa) => a.an = an ∧ a.sci = sci ∧ pn ≤ a.pn + a.window
        (icvOk = false ∨ (∀ a ∈ p.rxSa, ¬serves a) → ∃ t, exec (.networkFrameReceive port ⟨f, cw⟩) s = .next t ∧
          (get5 t.ports port.val).macDrop = min (p.macDrop + 1) (2 ^ 32 - 1) ∧ (get5 t.ports port.val).rxSa = p.rxSa ∧
          (∀ c : Nat, (t.buf.channels[c]?).map Channel.fifo = (s.buf.channels[c]?).map Channel.fifo) ∧ { t with ports := s.ports, out := s.out, buf := s.buf } = s) ∧
        (∀ x, icvOk = true → (∃ a ∈ p.rxSa, serves a) → p.txSa ≠ [] → s.buf.channels[channelOf port.val f.priority]? = some x →
          let c := channelOf port.val f.priority
          let n := (f.length + 255) / 256
          let marked := f.ect && x.asserted
          ∃ t y, exec (.networkFrameReceive port ⟨f, cw⟩) s = .next t ∧ t.buf.channels[c]? = some y ∧
            (get5 t.ports port.val).rxSa = p.rxSa.map (fun a => if a.an == an then { a with pn := max a.pn (pn + 1) } else a) ∧
            (get5 t.ports port.val).ecnMark = (if marked then min (p.ecnMark + 1) (2 ^ 32 - 1) else p.ecnMark) ∧
            (∀ k, k ≠ c → t.buf.channels[k]? = s.buf.channels[k]?) ∧
            (channelFull s c x n = false → y.fifo = x.fifo ++ [(n, f.ce || marked)] ∧ y.overrun = x.overrun ∧
              { t with ports := s.ports, out := s.out, buf := { t.buf with channels := s.buf.channels } } = s) ∧
            (channelFull s c x n = true → y.fifo = x.fifo ∧ y.overrun = min (x.overrun + 1) (2 ^ 32 - 1) ∧ t.buf.sticky.getLsbD 1 = true))))) ∧
  (∀ (s : State) (port : PortId) (priority : Fin 8), (get5 s.ports port.val).mode = 1 → (get5 s.ports port.val).up = true →
    exec (.pfcPauseReceive port priority) s = .next { s with ports := mod5 s.ports port.val (fun p =>
      { p with pauseRx := min (p.pauseRx + 1) (2 ^ 32 - 1), paused := setBit p.paused priority.val }) }) ∧
  (∀ (s : State) (port : PortId) (priority : Fin 8), ∃ t, exec (.pfcPauseExpire port priority) s = .next t ∧
    (get5 t.ports port.val).paused = clearBit (get5 s.ports port.val).paused priority.val ∧
    ((get5 s.ports port.val).waiting = [] →
      t = { s with ports := mod5 s.ports port.val (fun p => { p with paused := clearBit p.paused priority.val }) }))

/-! ## Remote memory -/

/-- The commands of Table 13-11 (R250 to R254, R262, R266, R267, R271) and REVOKE_DONE: domains, regions, windows and connections under the lowest free, or
a new, number; a window's key carries the next generation of its index, is refused from its revocation on, and its index returns
when nothing is in flight; a close leaves nothing of the connection.
The model's choices in it: notes/assumptions 67, 68. -/
def Obligations.RemoteMemoryCommands : Prop :=
  (∀ (s : State) (mb : MbId) (j : Job) (n : Nat), Begun s mb 0x0910 j → j.payload = zeros 8 → quiesced s 4 = false → n < 256 →
    (∀ i < n, i ∈ s.rdm.pds) → n ∉ s.rdm.pds → exec (.rdmPdAlloc mb) s = .next (finish j .ok (leBytes 4 n ++ zeros 4)
      { s with rdm := { s.rdm with pds := insertNat n s.rdm.pds } })) ∧
  (∀ (s : State) (mb : MbId) (j : Job), Begun s mb 0x0911 j → j.payload.length = 8 → field j.payload 4 4 = 0 → field j.payload 0 4 ∈ s.rdm.pds →
    pdHolds s (field j.payload 0 4) = false → exec (.rdmPdFree mb) s =
      .next (answer j .ok { s with rdm := { s.rdm with pds := s.rdm.pds.filter (fun n => n != field j.payload 0 4) } })) ∧
  (∀ (s : State) (mb : MbId) (j : Job), Begun s mb 0x0912 j → j.payload.length = 24 → field j.payload 0 4 ∈ s.rdm.pds → field j.payload 4 4 ≤ 1 →
    quiesced s 4 = false → s.rdm.regions.length < 65536 →
    let a := field j.payload 8 8
    let n := field j.payload 16 8
    let host := field j.payload 4 4 == 1
    (host = false → inHbm s a n = true ∧ heldRange s a n = false) → ∃ h, h ≠ 0 ∧ (∀ r ∈ s.rdm.regions, r.handle ≠ h) ∧
      exec (.rdmRegionReg mb) s = .next (finish j .ok (leBytes 4 h ++ zeros 4) { s with
        draw := s.draw + 1, rdm := { s.rdm with regions := s.rdm.regions ++ [⟨h, field j.payload 0 4, host, a, n⟩] } })) ∧
  (∀ (s : State) (mb : MbId) (j : Job), Begun s mb 0x0913 j → j.payload.length = 8 → field j.payload 4 4 = 0 →
    (regionAt s (field j.payload 0 4)).isSome = true → regionNamed s (field j.payload 0 4) = false → exec (.rdmRegionDereg mb) s =
      .next (answer j .ok { s with rdm := { s.rdm with regions := s.rdm.regions.filter (fun r => r.handle != field j.payload 0 4) } })) ∧
  (∀ (s : State) (mb : MbId) (j : Job) (w : Window) (i : Nat), Begun s mb 0x0914 j → j.payload.length = 32 → windowOf s j.payload = some w →
    quiesced s 4 = false → (if s.rdm.freshIndex < 262144 then i = s.rdm.freshIndex else s.rdm.freed.head? = some i) →
    let gen := (mapGet s.rdm.gens i + 1) % 256
    ∃ u, exec (.rdmWindowOpen mb) s = .next (finish j .ok (leBytes 4 (i * 256 + gen) ++ zeros 4) u) ∧
      u.rdm.windows = s.rdm.windows ++ [{ w with index := i, gen := gen }] ∧
      (if s.rdm.freshIndex < 262144 then u.rdm.freshIndex = i + 1 ∧ u.rdm.freed = s.rdm.freed
        else u.rdm.freshIndex = s.rdm.freshIndex ∧ s.rdm.freed = i :: u.rdm.freed) ∧
      { u with rdm := { u.rdm with windows := s.rdm.windows, gens := s.rdm.gens, freshIndex := s.rdm.freshIndex, freed := s.rdm.freed } } = s) ∧
  (∀ (s : State) (mb : MbId) (j : Job) (w : Window), Begun s mb 0x0915 j → j.payload.length = 8 → field j.payload 4 4 = 0 →
    windowByKey s (field j.payload 0 4) = some w → w.revoking = false →
    ∃ u x, exec (.rdmWindowRevoke mb) s = .next (finish j .ok (leBytes 4 (inFlight s (field j.payload 0 4)) ++ zeros 4) u) ∧
      windowByKey u (field j.payload 0 4) = some x ∧ x = { w with revoking := true } ∧
      { u with rdm := { u.rdm with windows := s.rdm.windows } } = s) ∧
  (∀ (s : State) (key : Nat) (w : Window), windowByKey s key = some w → w.revoking = true →
    (inFlight s key = 0 → exec (.revokeDone key) s = .next (postEvent 0x0911 0 key 0 { s with rdm := { s.rdm with
      windows := s.rdm.windows.filter (fun x => x.index != w.index), freed := s.rdm.freed ++ [w.index] } })) ∧
    (inFlight s key ≠ 0 → exec (.revokeDone key) s = .next s)) ∧
  (∀ (s : State) (mb : MbId) (j : Job), Begun s mb 0x0916 j → connBad s j.payload = false → quiesced s 4 = false →
    (get5 s.ports (field j.payload 4 1)).mode = 1 → s.rdm.conns.length < 4194304 →
    let spill := growSpill (s.rdm.conns.length + 1) s
    (spill = none → exec (.rdmConnOpen mb) s = .next (answer j .busy s)) ∧
    (spill.isSome = true → ∃ u v c, spill = some u ∧ exec (.rdmConnOpen mb) s = .next (finish j .ok (leBytes 4 c.handle ++ leBytes 4 c.qpn) v) ∧
      v.rdm.conns = (evictContext u).rdm.conns ++ [c] ∧ c.handle ≠ 0 ∧ (∀ x ∈ s.rdm.conns, x.handle ≠ c.handle ∧ x.qpn ≠ c.qpn) ∧ 2 ≤ c.qpn ∧
      c.pd = field j.payload 0 4 ∧ c.port.val = field j.payload 4 1 ∧ c.error = false ∧ c.sendPsn = field j.payload 0x14 4 ∧
      c.expPsn = field j.payload 0x18 4 ∧ c.outgoing = [] ∧ c.order = [] ∧ c.alpha = 1 ∧ c.cur = c.portRate ∧ c.cached = true ∧ v.mem = u.mem ∧
      (chunksFor (s.rdm.conns.length + 1) ≤ s.rdm.chunks → u = s) ∧
      countedHbm s { v with rdm := { v.rdm with conns := s.rdm.conns, nextUse := s.rdm.nextUse, chunks := s.rdm.chunks }, draw := s.draw, mem := s.mem })) ∧
  (∀ (s : State) (mb : MbId) (j : Job), Begun s mb 0x0917 j → j.payload.length = 8 → field j.payload 4 4 = 0 →
    (connAt s (field j.payload 0 4)).isSome = true → ∃ u, exec (.rdmConnClose mb) s = .next (answer j .ok u) ∧
      u.rdm.conns = s.rdm.conns.filter (fun c => c.handle != field j.payload 0 4) ∧ u.rdm.windows = s.rdm.windows ∧ u.rdm.regions = s.rdm.regions ∧
      (∀ x ∈ u.ptn.staged, x.conn ≠ field j.payload 0 4) ∧ (u.rdm.conns = [] → u.rdm.chunks = 0) ∧ u.dec = s.dec ∧ u.hev = s.hev) ∧
  (∀ (s : State) (mb : MbId) (j : Job) (c : Conn), Begun s mb 0x0918 j → j.payload.length = 8 → field j.payload 4 4 = 0 →
    connAt s (field j.payload 0 4) = some c → exec (.rdmConnStatus mb) s = .next (finish j .ok (leBytes 1 (if c.error then 2 else 1) ++ zeros 3 ++
      leBytes 4 c.sendPsn ++ leBytes 4 c.expPsn ++ leBytes 4 c.cur.floor.toNat ++ leBytes 4 (c.alpha * 65536).floor.toNat ++ zeros 4) s)) ∧
  (∀ (s : State) (mb : MbId) (j : Job), Begun s mb 0x0919 j → j.payload.length = 16 → zeroAt j.payload 5 3 = true → field j.payload 0 4 ≤ 65535 →
    let t := field j.payload 0 4
    let v := field j.payload 8 8
    let old := mapGet s.rdm.triggers t
    let done := fun (x : Nat) =>
      let new := mapSet s.rdm.triggers t x
      exec (.rdmTrigger mb) s = .next (finish j .ok (leBytes 8 (mapGet new t)) { s with rdm := { s.rdm with triggers := new } }) ∧
        (rising (s.rdm.triggers.map (·.1)) = true → mapGet new t = x)
    (field j.payload 4 1 = 0 → exec (.rdmTrigger mb) s = .next (finish j .ok (leBytes 8 old) s)) ∧
    (field j.payload 4 1 = 1 → v < 2 ^ 48 → done v) ∧ (field j.payload 4 1 = 2 → done (min (old + v) (2 ^ 48 - 1))))

/-- RDM_SEND, RDM_SEND_IMM, RDM_WRITE, RDM_WRITE_IMM, RDM_READ, TRIGGERED_REQUEST_FIRE, RDM_RECEIVE_POST, and the timers of a connection (R254, R255, R260
to R264, R266, R269): a request whose turn has come, and whose trigger has reached its threshold, takes its sequence numbers and its packets go to the
port, from poisoned memory it completes with DATA_POISONED, and from the host's memory it is first read; one below its threshold waits; a refused one
completes with BAD_ARG; a receive joins its connection's; when its wait has ended, or its oldest packet has gone unanswered, a connection sends again, until
the retries run out; quiet raises the rate; a context that has come on die serves what waited for it.
The model's choices in it: notes/assumptions 66, 67, 68. -/
def Obligations.RemoteMemoryRequests : Prop :=
  (∀ (s : State) (n : Nat) (bad : List MemFail) (i : Instr) (f : FDesc) (c : Conn) (r : Region), descAt s n = some f → f.fn = 4 → field f.bytes 0 1 = 0x30 →
    f.taken = false → f.entry = none →
    let op := field f.bytes 1 1
    let h := field f.bytes 4 4
    let a := field f.bytes 8 8
    let len := field f.bytes 0x10 4
    let triggered := bit (field f.bytes 2 2) 1
    let ready := mapGet s.rdm.triggers (field f.bytes 0x30 4) ≥ field f.bytes 0x38 8
    (i, op) ∈ [(.rdmSend ⟨n, bad⟩, 1), (.rdmSendImm ⟨n, bad⟩, 2), (.rdmWrite ⟨n, bad⟩, 3), (.rdmWriteImm ⟨n, bad⟩, 4), (.rdmRead n, 5)] ∨
      (i = .triggeredRequestFire ⟨n, bad⟩ ∧ triggered = true) →
    (earlierFired s f = false → exec i s = .next s) ∧
    (earlierFired s f = true → requestBad s f = true → exec i s = .next (rdmFail f .badArg s)) ∧
    (earlierFired s f = true → requestBad s f = false → connAt s h = some c → regionAt s (field f.bytes 0x14 4) = some r →
      (c.error = true → exec i s = .next (rdmFail f .wrFlushed { s with rdm := { s.rdm with flush := min (s.rdm.flush + 1) (2 ^ 32 - 1) } })) ∧
      (c.error = false → (triggered = true ∧ ¬ready) ∨ (op = 5 ∧ 16 ≤ readsOut s h) → exec i s = .next s) ∧
      (c.error = false → (triggered = true → ready) → (op = 5 → readsOut s h < 16) →
        ((op = 5 ∨ len = 0 ∨ (r.host = false ∧ (checkedRead bad a len s).2.1 = false)) →
          let data := if op = 5 ∨ len = 0 then [] else cellRead s.mem.cells a len
          ∃ t c', exec i s = .next t ∧ connAt t h = some c' ∧ c'.sendPsn = psnAdd c.sendPsn (packetsOf c len) ∧
            c'.outgoing = c.outgoing ++ [{ desc := n, op := op, psn := c.sendPsn, psnEnd := psnAdd c.sendPsn (packetsOf c len - 1), bytes := len, got := 0 }] ∧
            (∀ m ∈ requestPackets c f.bytes data, Output.roce c.port.val m ∈ t.out ∨ m ∈ (get5 t.ports c.port.val).waiting) ∧
            descAt t n = some { f with taken := true } ∧ t.rdm.windows = s.rdm.windows ∧ t.dec = s.dec) ∧
        (op ≠ 5 → len ≠ 0 → r.host = false → (checkedRead bad a len s).2.1 = true → ∃ u, exec i s = .next (rdmFail f .dataPoisoned u) ∧
          u.rdm.poison = min (s.rdm.poison + 1) (2 ^ 32 - 1) ∧ u.rdm.sticky.getLsbD 3 = true ∧
          { u with rdm := s.rdm, buf := { u.buf with descs := s.buf.descs } } = (checkedRead bad a len s).2.2) ∧
        (op ≠ 5 → len ≠ 0 → r.host = true → ∃ u, exec i s = .next (hostReadReq 4 a len (.rdmSource n) u) ∧ descAt u n = some { f with taken := true } ∧
          { u with rdm := s.rdm, buf := { u.buf with descs := s.buf.descs } } = s)))) ∧
  (∀ (s : State) (n : Nat) (f : FDesc) (c : Conn), descAt s n = some f → f.fn = 4 → field f.bytes 0 1 = 0x31 → f.taken = false → f.entry = none →
    (receiveBad s f = true → exec (.rdmReceivePost n) s = .next (rdmFail f .badArg s)) ∧
    (receiveBad s f = false → connAt s (field f.bytes 4 4) = some c →
      (c.error = true → exec (.rdmReceivePost n) s =
        .next (rdmFail f .wrFlushed { s with rdm := { s.rdm with flush := min (s.rdm.flush + 1) (2 ^ 32 - 1) } })) ∧
      (c.error = false → ∃ t, exec (.rdmReceivePost n) s = .next t ∧ connAt t (field f.bytes 4 4) = some { c with recvs := c.recvs ++ [n] } ∧
        descAt t n = some { f with taken := true } ∧ { t with rdm := { t.rdm with conns := s.rdm.conns }, buf := { t.buf with descs := s.buf.descs } } = s))) ∧
  (∀ (s : State) (conn : Nat) (c : Conn), connAt s conn = some c → c.error = false →
    let ps := c.outgoing.flatMap (packetsFrom c.una)
    let again := fun (t : State) => t.rdm.retx = min (s.rdm.retx + ps.length) (2 ^ 32 - 1) ∧
      ∀ x ∈ ps, Output.roce c.port.val (.resend c.qpn x) ∈ t.out ∨ RoceOut.resend c.qpn x ∈ (get5 t.ports c.port.val).waiting
    (c.rnrWait = true → ∃ t c', exec (.rnrTimerExpire conn) s = .next t ∧ connAt t conn = some c' ∧ c'.rnrWait = false ∧ again t) ∧
    (c.outgoing ≠ [] → c.rnrWait = false → ∃ t c', exec (.ackTimeout conn) s = .next t ∧ connAt t conn = some c' ∧
      t.rdm.timeout = min (s.rdm.timeout + 1) (2 ^ 32 - 1) ∧
      (if c.retryCnt ≤ c.retries then c'.error = true ∧ t.rdm.sticky.getLsbD 4 = true
        else c'.retries = c.retries + 1 ∧ c'.error = false ∧ again t)) ∧
    (∃ t c', exec (.rateIncreaseTimer conn) s = .next t ∧ connAt t conn = some c' ∧ c'.stage = c.stage + 1 ∧
      c'.alpha = c.alpha * (1 - 1 / (2 ^ s.rdm.gShift : Nat)) ∧ c'.cur = (c.cur + c'.tgt) / 2 ∧
      c'.tgt = (if 5 ≤ c.stage then min (c.tgt + s.rdm.aiGbps * 1000) c.portRate else c.tgt) ∧ { t with rdm := { t.rdm with conns := s.rdm.conns } } = s) ∧
    (c.outgoing = [] ∨ c.rnrWait = true → exec (.ackTimeout conn) s = .next s) ∧ (c.rnrWait = false → exec (.rnrTimerExpire conn) s = .next s)) ∧
  (∀ (s : State) (conn : Nat) (c : Conn), connAt s conn = some c →
    (c.cached = true ∨ c.missQueue = [] → exec (.contextFetchDone conn) s = .next s) ∧
    (c.cached = false → c.missQueue ≠ [] → ∃ u c', connAt u conn = some c' ∧ c' = { c with cached := true, missQueue := [], used := s.rdm.nextUse } ∧
      { u with rdm := { u.rdm with conns := s.rdm.conns, nextUse := s.rdm.nextUse } } = s ∧
      exec (.contextFetchDone conn) s = .next (c.missQueue.foldl (fun st a => arrive (arrivalPort c a) c.qpn a false st) u)))

/-- ROCE_REQUEST_RECEIVE, FINAL_WRITE_PLACE and the answers that a connection receives (R248, R254 to R259, R263 to R266, R268): a packet that reaches
no open port does nothing, and one that names no connection is counted; a write in sequence through a key that allows it is placed whole and
acknowledged, a read is served from memory, and a request whose key fails is counted and changes no memory; a FINAL write is placed when its turn
has come; acknowledgements complete what they cover; a status or a NAK ends the request that it names; a sequence NAK sends the rest again; a receiver
that is not ready is waited for; read data are placed in their order; a congestion notification lowers the rate; in ERROR a packet is dropped, and
without its context on die it waits in the miss queue.
The model's choices in it: notes/assumptions 62, 63, 64, 65, 66, 68. -/
def Obligations.RemoteMemoryTraffic : Prop :=
  (∀ (s : State) (p : RocePacket),
    (portDelivers s p.port.val = false → exec (.roceRequestReceive p) s = .next s) ∧
    (portDelivers s p.port.val = true → connOf s p.qpn = none → s.rdm.waiting = [] → ∃ t, exec (.roceRequestReceive p) s = .next t ∧
      t.rdm = { s.rdm with badPkt := min (s.rdm.badPkt + 1) (2 ^ 32 - 1) } ∧ { t with rdm := s.rdm, buf := s.buf, ports := s.ports, out := s.out } = s)) ∧
  (∀ (s : State) (p : RocePacket) (c : Conn), portDelivers s p.port.val = true → connOf s p.qpn = some c → connAt s c.handle = some c → c.error = false →
    c.cached = true → channelHeld s p.port.val c = false → p.first = true → p.last = true → p.psn = c.expPsn → p.psn < 2 ^ 24 → c.incoming = none →
    c.order = [] → packetFits c p 0 p.dmaLen = true → ¬(c.relaxed = true ∧ p.final = true) →
    let sent := fun (t : State) (m : RoceOut) => Output.roce c.port.val m ∈ t.out ∨ m ∈ (get5 t.ports c.port.val).waiting
    (∀ w r, p.op = .write → keyCheck s c .write p.rkey p.va p.dmaLen = some w → w.summing = false → regionAt s w.region = some r →
      (memWrite (r.addr + w.offset + p.va) p.data s).1 = .ok → p.bad = [] → s.mbx.ring = none →
      ∃ t c', exec (.roceRequestReceive p) s = .next t ∧ t.mem.cells = (memWrite (r.addr + w.offset + p.va) p.data s).2.mem.cells ∧
        connAt t c.handle = some c' ∧ c'.expPsn = (p.psn + 1) % 2 ^ 24 ∧ c'.order = [] ∧ sent t (.ack c.qpn p.psn) ∧ t.rdm.windows = s.rdm.windows) ∧
    (∀ w r, p.op = .read → keyCheck s c .read p.rkey p.va p.dmaLen = some w → regionAt s w.region = some r → 0 < p.dmaLen → p.dmaLen ≤ mtuBytes c →
      (checkedRead p.fails (r.addr + w.offset + p.va) p.dmaLen s).2.1 = false → s.mbx.ring = none →
      ∃ t c', exec (.roceRequestReceive p) s = .next t ∧ t.mem.cells = s.mem.cells ∧ connAt t c.handle = some c' ∧ c'.expPsn = (p.psn + 1) % 2 ^ 24 ∧
        sent t (.readResponse c.qpn p.psn (cellRead s.mem.cells (r.addr + w.offset + p.va) p.dmaLen))) ∧
    (p.op = .write ∨ p.op = .writeImm ∨ p.op = .read → keyCheck s c p.op p.rkey p.va p.dmaLen = none → c.cx = true →
      ∃ t c', exec (.roceRequestReceive p) s = .next t ∧ (s.mbx.ring = none → t.mem = s.mem) ∧
        t.rdm.accessViol = min (s.rdm.accessViol + 1) (2 ^ 32 - 1) ∧ t.rdm.sticky.getLsbD 1 = true ∧ connAt t c.handle = some c' ∧
        c'.error = false ∧ c'.recvs = c.recvs)) ∧
  (∀ (s : State) (conn psn : Nat) (c : Conn) (m : Incoming), connAt s conn = some c → c.order = [m] → m.psn = psn → waitsFinal c m = true →
    m.staged = none → m.status = none → c.cx = true →
    let st := placedStatus (placeHeld m s).1
    ∃ t c', exec (.finalWritePlace conn psn) s = .next t ∧ connAt t conn = some c' ∧ c'.order = [] ∧
      c'.history.getLast? = some (m.psn, m.psnEnd, st) ∧
      (st = .ok → Output.roce c.port.val (.ack c.qpn m.psnEnd) ∈ t.out ∨ .ack c.qpn m.psnEnd ∈ (get5 t.ports c.port.val).waiting)) ∧
  (∀ (s : State) (qpn psn : Nat) (c : Conn), connOf s qpn = some c → connAt s c.handle = some c → portDelivers s c.port.val = true →
    channelHeld s c.port.val c = false →
    (∀ i a, (i, a) ∈ [(Instr.roceAckReceive qpn psn none, Arrival.ack psn none), (.roceNakReceive qpn psn .remoteAccess, .nak psn .remoteAccess),
        (.psnSequenceNakReceive qpn psn, .seqNak psn), (.rnrNakReceive qpn psn 0, .rnrNak psn), (.cnpReceive qpn, .cnp)] →
      (c.error = true → ∃ t, exec i s = .next t ∧ { t with out := s.out, ports := s.ports, buf := { t.buf with channels := s.buf.channels } } = s) ∧
      (c.error = false → c.cached = false → c.missQueue.length < 64 → sumNat (s.rdm.conns.map (·.missQueue.length)) < 4096 → ∃ t c', exec i s = .next t ∧
        connAt t c.handle = some c' ∧ c'.missQueue = c.missQueue ++ [a] ∧ t.rdm.ctxMiss = min (s.rdm.ctxMiss + 1) (2 ^ 32 - 1) ∧ t.mem = s.mem)) ∧
    (c.error = false → c.cached = true →
      let again := fun (t : State) (c' : Conn) => ∀ x ∈ c'.outgoing.flatMap (packetsFrom psn), Output.roce c.port.val (.resend c.qpn x) ∈ t.out ∨
        RoceOut.resend c.qpn x ∈ (get5 t.ports c.port.val).waiting
      (c.outgoing ≠ [] → psnIn c.una (psnAdd c.sendPsn (2 ^ 24 - 1)) psn = true → ∃ t c', exec (.roceAckReceive qpn psn none) s = .next t ∧
        connAt t c.handle = some c' ∧ c'.una = oldestAfter c psn ∧ c'.retries = (if oldestAfter c psn = c.una then c.retries else 0) ∧
        c'.sendPsn = c.sendPsn ∧ c'.error = false ∧ (∀ x ∈ c'.outgoing, x ∈ c.outgoing ∧ (x.op = 5 ∨ psnLe x.psnEnd psn = false)) ∧
        t.mem.held = s.mem.held ∧ t.dec = s.dec) ∧
      (c.outgoing = [] ∨ psnIn c.una (psnAdd c.sendPsn (2 ^ 24 - 1)) psn = false → ∃ t c', exec (.roceAckReceive qpn psn none) s = .next t ∧
        connAt t c.handle = some c' ∧ c' = { c with used := s.rdm.nextUse } ∧ t.mem = s.mem) ∧
      (∀ o, outAt c psn = some o →
        (∀ st, ∃ t c', exec (.roceAckReceive qpn psn (some st)) s = .next t ∧ connAt t c.handle = some c' ∧ c'.una = psnAdd o.psnEnd 1 ∧
          c'.error = false ∧ ∀ x ∈ c'.outgoing, x.desc ≠ o.desc) ∧
        (∀ kind, ∃ t c', exec (.roceNakReceive qpn psn kind) s = .next t ∧ connAt t c.handle = some c' ∧ c'.error = true ∧ c'.outgoing = [] ∧ c'.order = []) ∧
        (∃ t c', exec (.psnSequenceNakReceive qpn psn) s = .next t ∧ connAt t c.handle = some c' ∧ c'.error = false ∧
          (∀ x ∈ c'.outgoing, x ∈ c.outgoing) ∧ again t c' ∧
          t.rdm.retx = min (s.rdm.retx + (c'.outgoing.flatMap (packetsFrom psn)).length) (2 ^ 32 - 1)) ∧
        (∀ timer, ∃ t c', exec (.rnrNakReceive qpn psn timer) s = .next t ∧ connAt t c.handle = some c' ∧
          t.rdm.rnrRx = min (s.rdm.rnrRx + 1) (2 ^ 32 - 1) ∧ (c'.error = true ∨ c'.rnrWait = true) ∧ (c.rnrRetry = 7 → c'.error = false) ∧
          (psn = c.una → psn < 2 ^ 24 → if c.rnrRetry ≠ 7 ∧ c.rnrRetry ≤ c.rnrs then c'.error = true
            else c'.rnrWait = true ∧ c'.rnrs = c.rnrs + 1 ∧ c'.error = false)) ∧
        (c.outgoing = [o] → o.op = 5 → psn = psnAdd o.psn (o.got / mtuBytes c) →
          ∀ (data : Bytes) (bad : List Nat) (f : FDesc) (r : Region), descAt s o.desc = some f → regionAt s (field f.bytes 0x14 4) = some r → data ≠ [] →
          o.got + data.length ≤ o.bytes →
          let last := o.got + data.length == o.bytes
          let at' := field f.bytes 8 8 + o.got
          ∃ t c', exec (.roceReadResponseReceive qpn psn ⟨data, bad⟩ last) s = .next t ∧ connAt t c.handle = some c' ∧ (c.una = psn → c'.una = psnAdd psn 1) ∧
            t.buf.parity = min (s.buf.parity + bad.length) (2 ^ 32 - 1) ∧
            (r.host = true → c'.outgoing = (if last || !bad.isEmpty then [] else [{ o with got := o.got + data.length }]) ∧
              (fnReady s 4 = true → fenced s 4 = false → ∀ x ∈ onBus s (.hostWrite 4 at' data), x ∈ t.out)) ∧
            (r.host = false → last = false → bad = [] → (memWrite at' data s).1 = .ok → c'.outgoing = [{ o with got := o.got + data.length }] ∧
              t.mem = (memWrite at' data s).2.mem))) ∧
      (∃ t c', exec (.cnpReceive qpn) s = .next t ∧ connAt t c.handle = some c' ∧ t.rdm.cnpRx = min (s.rdm.cnpRx + 1) (2 ^ 32 - 1) ∧
        (c.lastCut = none → c'.tgt = c.cur ∧ c'.cur = max (c.cur * (1 - c.alpha / 2)) 100 ∧ c'.stage = 0 ∧ c'.lastCut = some s.now) ∧
        (∀ x, c.lastCut = some x → s.now < x + 50 → c'.cur = c.cur ∧ c'.tgt = c.tgt ∧ c'.alpha = c.alpha))))

/-! ## Rings -/

/-- WRING_CREATE, WRING_DESTROY, CRING_CREATE, CRING_DESTROY, WRING_STATUS, FUNC_QUIESCE, the doorbells, DESCRIPTOR_FETCH, COMPLETION_COALESCE_EXPIRE, WRING_DRAIN_DONE
(R273 to R280, R301, R438): a ring takes the lowest free number; a doorbell in range moves its index and any other is counted and
ignored; a descriptor is fetched from the ring whose turn it is; a destroyed ring drains.
The model's choices in it: notes/assumptions 57. -/
def Obligations.WorkAndCompletionRings : Prop :=
  (∀ (s : State) (mb : MbId) (j : Job) (n : Nat), Begun s mb 0x0A01 j → j.payload.length = 16 → field j.payload 3 1 = 0 → field j.payload 6 2 = 0 →
    let fn := field j.payload 0 1
    let k := field j.payload 2 1
    ownsRings fn = true → 4 ≤ k → k ≤ 16 → (cringAt s (field j.payload 4 2)).any (fun c => c.fn == fn) = true →
    ringBaseBad s (field j.payload 1 1) (field j.payload 8 8) (64 * 2 ^ k) = false → quiesced s fn = false → fenced s fn = false →
    n < 8192 → (∀ i < n, ∃ w ∈ s.buf.wrings, w.num = i) → (∀ w ∈ s.buf.wrings, w.num ≠ n) →
    exec (.wringCreate mb) s = .next (finish j .ok (leBytes 2 n ++ zeros 6) { s with buf := { s.buf with wrings := s.buf.wrings ++ [
      { num := n, fn := fn, hbm := field j.payload 1 1 == 1, k := k, cring := field j.payload 4 2, base := addrOf (field j.payload 8 8), state := 1
        producer := 0, fetch := 0, completed := 0, flushed := 0, destroyer := none }] } })) ∧
  (∀ (s : State) (mb : MbId) (j : Job) (n : Nat), Begun s mb 0x0A03 j → j.payload.length = 24 → field j.payload 6 2 = 0 →
    let fn := field j.payload 0 1
    let k := field j.payload 2 1
    let v := field j.payload 4 2
    ownsRings fn = true → 4 ≤ k → k ≤ 16 → v < 2048 ∨ v = 0xFFFF → ringBaseBad s (field j.payload 1 1) (field j.payload 8 8) (32 * 2 ^ k) = false →
    tailBad s (field j.payload 16 8) = false → quiesced s fn = false → fenced s fn = false →
    n < 8192 → (∀ i < n, ∃ c ∈ s.buf.crings, c.num = i) → (∀ c ∈ s.buf.crings, c.num ≠ n) →
    exec (.cringCreate mb) s = .next (finish j .ok (leBytes 2 n ++ zeros 6) { s with buf := { s.buf with crings := s.buf.crings ++ [
      { num := n, fn := fn, hbm := field j.payload 1 1 == 1, k := k, coalesce := field j.payload 3 1, vector := v, base := addrOf (field j.payload 8 8)
        tail := field j.payload 16 8, producer := 0, consumer := 0, reserved := 0, irqOpen := false, irqPending := false }] } })) ∧
  (∀ (s : State) (mb : MbId) (j : Job) (w : WRing), j.payload.length = 8 → zeroAt j.payload 2 6 = true → wringAt s (field j.payload 0 2) = some w →
    (Begun s mb 0x0A02 j → jobAt s j.order = some j → w.state = 1 ∨ w.state = 2 →
      let flushed := (w.producer + 2 ^ 32 - w.fetch) % 2 ^ 32
      (drained s w = true → ∃ u, exec (.wringDestroy mb) s = .next (finish j .ok (leBytes 4 flushed ++ zeros 4) u) ∧
        u.buf.wrings = s.buf.wrings.filter (fun x => x.num != w.num) ∧ readingRing u w.num = false ∧ u.buf.descs = s.buf.descs) ∧
      (drained s w = false → ∃ u, exec (.wringDestroy mb) s = .next (waitJob j w.num u) ∧ wringAt u w.num =
          some { w with state := 4, flushed := flushed, producer := w.fetch, destroyer := some (j.mb, j.order) } ∧
        readingRing u w.num = false ∧ u.buf.descs = s.buf.descs)) ∧
    (Begun s mb 0x0A05 j → exec (.wringStatus mb) s =
      .next (finish j .ok (leBytes 1 w.state ++ zeros 3 ++ leBytes 4 w.producer ++ leBytes 4 w.fetch ++ leBytes 4 w.completed) s))) ∧
  (∀ (s : State) (mb : MbId) (j : Job), Begun s mb 0x0A04 j → j.payload.length = 8 → zeroAt j.payload 2 6 = true →
    (cringAt s (field j.payload 0 2)).isSome = true → (∀ w ∈ s.buf.wrings, w.cring ≠ field j.payload 0 2) → exec (.cringDestroy mb) s =
      .next (answer j .ok { s with buf := { s.buf with crings := s.buf.crings.filter (fun c => c.num != field j.payload 0 2) } })) ∧
  (∀ (s : State) (mb : MbId) (j : Job), Begun s mb 0x0A06 j → j.payload.length = 8 → zeroAt j.payload 2 6 = true → 1 ≤ field j.payload 0 1 →
    field j.payload 0 1 ≤ 4 →
    let set := fun (b : Bool) => exec (.funcQuiesce mb) s =
      .next (answer j .ok { s with hif := { s.hif with fns := mod5 s.hif.fns (field j.payload 0 1) (fun f => { f with quiesced := b }) } })
    (field j.payload 1 1 = 0 → set false) ∧
    (field j.payload 1 1 = 1 → fnIdle s (field j.payload 0 1) = true → (∀ f ∈ s.buf.descs, f.fn ≠ field j.payload 0 1) → set true)) ∧
  (∀ (s : State) (wring m o : Nat) (w : WRing) (j : Job), wringAt s wring = some w → w.state = 4 → drained s w = true → firmwareRuns s = true →
    w.destroyer = some (m, o) → jobAt s o = some j → exec (.wringDrainDone wring) s = .next (finish j .ok (leBytes 4 w.flushed ++ zeros 4)
      { s with buf := { s.buf with wrings := s.buf.wrings.filter (fun x => x.num != wring) } })) ∧
  (∀ (s : State) (fn : FnId) (secure : Bool) (ring : Nat) (v : BitVec 64), HostWrites s secure → ownsRings fn.val = true →
    let p := v.toNat % 2 ^ 32
    let off := quiesced s fn.val || s.life.removal.isSome
    let rejected : State := { s with buf := { s.buf with sticky := s.buf.sticky ||| 16, doorbell := min (s.buf.doorbell + 1) (2 ^ 32 - 1) } }
    (∀ w, wringAt s ring = some w → w.fn = fn.val → off = false → fenced s fn.val = false → (p + 2 ^ 32 - w.fetch) % 2 ^ 32 ≤ 2 ^ w.k →
      ∃ t, exec (.workRingDoorbell fn secure ring v) s = .next t ∧ wringAt t ring = some { w with producer := p } ∧
        { t with buf := { t.buf with wrings := s.buf.wrings } } = s) ∧
    (wringAt s ring = none ∨ off = true ∨ fenced s fn.val = true ∨ (∃ w, wringAt s ring = some w ∧ (w.fn ≠ fn.val ∨
        p ≠ w.producer ∧ 2 ^ w.k < (p + 2 ^ 32 - w.fetch) % 2 ^ 32)) → exec (.workRingDoorbell fn secure ring v) s = .next rejected) ∧
    (∀ c, cringAt s ring = some c → c.fn = fn.val → off = false →
      (p + 2 ^ 32 - c.consumer) % 2 ^ 32 ≤ (c.producer + 2 ^ 32 - c.consumer) % 2 ^ 32 →
      ∃ t, exec (.completionRingDoorbell fn secure ring v) s = .next t ∧ cringAt t ring = some { c with consumer := p } ∧
        { t with buf := { t.buf with crings := s.buf.crings } } = s) ∧
    (cringAt s ring = none ∨ off = true ∨ (∃ c, cringAt s ring = some c ∧ (c.fn ≠ fn.val ∨
        p ≠ c.consumer ∧ (c.producer + 2 ^ 32 - c.consumer) % 2 ^ 32 < (p + 2 ^ 32 - c.consumer) % 2 ^ 32)) →
      exec (.completionRingDoorbell fn secure ring v) s = .next rejected)) ∧
  (∀ (s : State) (fn : FnId) (bad : List MemFail) (w : WRing), fenced s fn.val = false → s.life.removal = none → nextRing s fn.val = some w →
    let a := w.base + 64 * (w.fetch % 2 ^ w.k)
    (w.hbm = false → ∃ u, exec (.descriptorFetch ⟨fn, bad⟩) s = .next (hostReadReq fn.val a 64 (.descriptor w.num w.fetch) u) ∧
      (get5 u.hif.fns fn.val).lastRing = some w.num ∧ u.buf.wrings = s.buf.wrings ∧
      { u with hif := { u.hif with fns := s.hif.fns }, buf := { u.buf with crings := s.buf.crings } } = s) ∧
    (w.hbm = true → (checkedRead bad a 64 s).2.1 = false →
      let b := cellRead s.mem.cells a 64
      kindOk w.fn (field b 0 1) (field b 1 1) = true → ∃ t, exec (.descriptorFetch ⟨fn, bad⟩) s = .next t ∧
        t.buf.descs = s.buf.descs ++ [{ id := s.buf.nextDesc, wring := w.num, fn := w.fn, bytes := b, taken := false, entry := none }] ∧
        t.buf.wrings = s.buf.wrings.map (fun x => if x.num == w.num then { x with fetch := (x.fetch + 1) % 2 ^ 32 } else x) ∧ t.mem = s.mem)) ∧
  (∀ (s : State) (n : Nat) (c : CRing), cringAt s n = some c →
    (c.irqPending = false → exec (.completionCoalesceExpire n) s = .next (modCring n (fun c => { c with irqOpen := false }) s)) ∧
    (c.irqPending = true → exec (.completionCoalesceExpire n) s =
      .next (modCring n (fun c => { c with irqPending := false }) (post c.fn (.msix c.fn c.vector) s))))

/-! ## The host interface -/

/-- BAR2_READ, BAR2_WRITE, HOST_READ_COMPLETION, HOST_COMPLETION_TIMEOUT, FLR, FLR_PF0, HOT_RESET, BUS_MASTER_ENABLE_SET, BUS_MASTER_ENABLE_CLEAR, D3HOT_TRANSITION,
PCIE_LINK_UP, PCIE_LINK_DOWN, and the debug port (R277, R294, R295, R299 to R303, R306, R418): in OWNED_OPEN BAR2 reads and writes device
memory that the module does not hold, and elsewhere it is denied and counted; a function-level reset fences a function, or ends
its quiesce; what a function holds goes out when it may issue requests again; the debug access acts only where it is live,
and the TAP beneath it always.
The model's choices in it: notes/assumptions 20, 21, 22, 23. -/
def Obligations.HostInterface : Prop :=
  (∀ (s : State) (fn : FnId) (off len : Nat) (secure : Bool), HostReads s secure →
    let aer := fun (n : Nat) => mod5 s.hif.fns fn.val (fun f => { f with aer := setBit f.aer n })
    (ownedOpen s = false → ∀ bad, exec (.bar2Read fn off len secure bad) s = .next { s with
      hif := { s.hif with bar2Deny := min (s.hif.bar2Deny + 1) (2 ^ 32 - 1), fns := aer 20 }, out := s.out ++ [.bar2Unsupported] }) ∧
    (ownedOpen s = true → devOk s (bar2Addr s fn.val off) len = true → poisonedAt s (bar2Addr s fn.val off) len = false →
      ∃ t, exec (.bar2Read fn off len secure []) s = .next t ∧ t.out = s.out ++ [.readData (cellRead s.mem.cells (bar2Addr s fn.val off) len)] ∧
        countedHbm s { t with out := s.out }) ∧
    (ownedOpen s = true → devOk s (bar2Addr s fn.val off) len = false → ∀ bad, exec (.bar2Read fn off len secure bad) s = .next { s with
      hif := { s.hif with badAccess := min (s.hif.badAccess + 1) (2 ^ 32 - 1), sticky := s.hif.sticky ||| 2, fns := aer 15 }
      out := s.out ++ [.bar2Abort] })) ∧
  (∀ (s : State) (fn : FnId) (off : Nat) (data : Bytes) (secure : Bool), HostReads s secure →
    let a := bar2Addr s fn.val off
    (ownedOpen s = false → ∀ bad, exec (.bar2Write fn off data secure bad) s = .next { s with
      hif := { s.hif with bar2Deny := min (s.hif.bar2Deny + 1) (2 ^ 32 - 1) } }) ∧
    (ownedOpen s = true → devOk s a data.length = true → hbmReadable s = true → (memWrite a data s).1 = .ok → Memory.wf s = true →
      ∃ t, exec (.bar2Write fn off data secure []) s = .next t ∧ cellRead t.mem.cells a data.length = data ∧
        (∀ x, x < a ∨ a + data.length ≤ x → cellGet t.mem.cells x = cellGet s.mem.cells x) ∧
        countedHbm s { t with mem := s.mem }) ∧
    (ownedOpen s = true → devOk s a data.length = false → ∀ bad, exec (.bar2Write fn off data secure bad) s = .next { s with
      hif := { s.hif with badAccess := min (s.hif.badAccess + 1) (2 ^ 32 - 1), sticky := s.hif.sticky ||| 2 } })) ∧
  (∀ (s : State) (rid : Nat) (r : HostRead), s.hif.reads.find? (fun r => r.id == rid) = some r → r.issued = true →
    r.arrived = none → readReady s r = true →
    let u := closeRead r s
    let aer := fun (n : Nat) => mod5 s.hif.fns r.fn (fun f => { f with aer := setBit f.aer n })
    let e := fun (fns : Five FnState) => closeRead r { s with hif := { s.hif with
      hostErr := min (s.hif.hostErr + 1) (2 ^ 32 - 1), sticky := s.hif.sticky ||| 4, fns := fns } }
    ((∀ x ∈ s.hif.reads, x.fn = r.fn → x.issued = true) → u = { s with hif := { s.hif with reads := s.hif.reads.filter (fun x => x.id != rid) } }) ∧
    (∀ b, let got := r.got ++ fit (nextPiece s r) b
      (r.purpose = .abandoned ∨ r.len ≤ got.length → exec (.hostReadCompletion rid (.data b)) s = .next (readDone r.purpose (.ok got) u)) ∧
      (r.purpose ≠ .abandoned → got.length < r.len → fnReady s r.fn = true → (readEarly r.purpose got s).1 = false →
        let v := (readEarly r.purpose got s).2
        fnReady v r.fn = true → ∃ t, exec (.hostReadCompletion rid (.data b)) s = .next t ∧
          t.out = v.out ++ onBus v (.hostRead r.fn rid (r.addr + got.length) (nextPiece v { r with got := got })))) ∧
    exec (.hostReadCompletion rid .poisoned) s = .next (readDone r.purpose (.error .dataPoisoned) (e (aer 12))) ∧
    exec (.hostReadCompletion rid .unsupported) s = .next (readDone r.purpose (.error .accessViolation) (e s.hif.fns)) ∧
    exec (.hostReadCompletion rid .completerAbort) s = .next (readDone r.purpose (.error .accessViolation) (e s.hif.fns)) ∧
    exec (.hostCompletionTimeout rid) s = .next (readDone r.purpose (.error .retryExceeded) (e (aer 14))) ∧
    (∀ n k w, r.purpose = .descriptor n k → wringAt s n = some w → w.state = 1 → r.got = [] → r.head = 0 →
      (∃ t, exec (.hostCompletionTimeout rid) s = .next t ∧ wringAt t n = some { w with state := 2 } ∧ t.buf.sticky.getLsbD 3 = true ∧
        t.buf.descs = s.buf.descs) ∧
      (∀ b, b.length = 64 → kindOk w.fn (field b 0 1) (field b 1 1) = true → r.len = 64 → ∃ t, exec (.hostReadCompletion rid (.data b)) s = .next t ∧
        t.buf.descs = s.buf.descs ++ [{ id := s.buf.nextDesc, wring := w.num, fn := w.fn, bytes := b, taken := false, entry := none }] ∧
        wringAt t n = some { w with fetch := (w.fetch + 1) % 2 ^ 32 }))) ∧
  (∀ (s : State) (fn : FnId), hostReach s = true → s.hif.tdi = .unlocked ∨ s.hif.tdi = .error → fn.val ≠ 0 →
    (fenced s fn.val = true → exec (.flr fn) s = .next { s with hif := { s.hif with
      fns := mod5 s.hif.fns fn.val (fun f => { f with bme := false, d3hot := false, cfg := .ofFn fn.val }) } }) ∧
    (fenced s fn.val = false → quiesced s fn.val = true → ∃ t, exec (.flr fn) s = .next t ∧
      get5 t.hif.fns fn.val = { bme := false, d3hot := false, fenced := false, quiesced := false, bar2 := 0, lastRing := none, cfg := .ofFn fn.val
                                aer := (get5 s.hif.fns fn.val).aer } ∧
      (∀ w ∈ t.buf.wrings, w.fn ≠ fn.val) ∧ (∀ c ∈ t.buf.crings, c.fn ≠ fn.val) ∧ (∀ f ∈ t.buf.descs, f.fn ≠ fn.val) ∧
      (∀ r ∈ t.hif.reads, r.fn = fn.val → r.purpose = .abandoned)) ∧
    (fenced s fn.val = false → quiesced s fn.val = false → ∃ t, exec (.flr fn) s = .next t ∧ fenced t fn.val = true ∧
      (get5 t.hif.fns fn.val).bme = false ∧ (∀ w ∈ t.buf.wrings, w.fn = fn.val → w.state = 3 ∨ w.state = 4) ∧
      (∀ r ∈ t.hif.reads, r.fn = fn.val → r.purpose = .abandoned) ∧
      (∀ i < 5, i ≠ fn.val → get5 t.hif.fns i = get5 s.hif.fns i))) ∧
  (∀ (s : State) (c : Instr), hostReach s = true → c = .flrPf0 ∨ c = .flr 0 → s.hif.tdi = .unlocked ∨ s.hif.tdi = .error →
    ∃ t, exec c s = .next t ∧ (∀ i < 3, (get4 t.mbx.boxes i).state = 0 ∧ (get4 t.mbx.boxes i).irqEn = false ∧ (get4 t.mbx.boxes i).sticky = 0) ∧
      get4 t.mbx.boxes 3 = get4 s.mbx.boxes 3 ∧ t.mbx.ring = none ∧ (get5 t.hif.fns 0).bme = false ∧
      (∀ j ∈ t.mbx.jobs, j.mb ≠ 3 → 1 ≤ j.phase ∧ j.attached = false) ∧ (∀ x ∈ t.hif.held, x.1 ≠ 0) ∧
      { t with mbx := s.mbx, hif := s.hif } = s) ∧
  (∀ s : State, hostReach s = true → s.hif.tdi = .unlocked ∨ s.hif.tdi = .error → ∃ t, exec .hotReset s = .next t ∧ t.mbx.ring = none ∧
    (∀ i < 5, (get5 t.hif.fns i).bme = false ∧ (get5 t.hif.fns i).d3hot = false) ∧
    (∀ i < 5, i ≠ 0 → quiesced s i = false → fenced t i = true) ∧ (∀ i < 3, (get4 t.mbx.boxes i).state = 0)) ∧
  (∀ (s : State) (fn : FnId), hostReach s = true →
    let held := (s.hif.held.filter (fun x => x.1 == fn.val)).flatMap (fun x => onBus s x.2)
    let reads := (s.hif.reads.filter (fun r => r.fn == fn.val && !r.issued)).flatMap (fun r =>
      onBus s (.hostRead fn.val r.id (r.addr + r.got.length) (nextPiece s r)))
    let freed := fun (t : State) => t.out = s.out ++ held ++ reads ∧ t.hif.held = s.hif.held.filter (fun x => x.1 != fn.val) ∧
      (∀ r ∈ t.hif.reads, r.fn = fn.val → r.issued = true)
    let tags := (s.hif.reads.filter (fun r => r.fn == fn.val)).length ≤ 1024
    ((get5 s.hif.fns fn.val).d3hot = false → tags → ∃ t, exec (.busMasterEnableSet fn) s = .next t ∧ (get5 t.hif.fns fn.val).bme = true ∧ freed t ∧
      { t with hif := s.hif, out := s.out } = s) ∧
    ((get5 s.hif.fns fn.val).bme = true → tags → ∃ t, exec (.d3hotTransition fn false) s = .next t ∧ (get5 t.hif.fns fn.val).d3hot = false ∧ freed t ∧
      { t with hif := s.hif, out := s.out } = s) ∧
    exec (.d3hotTransition fn true) s = .next { s with hif := { s.hif with fns := mod5 s.hif.fns fn.val (fun f => { f with d3hot := true }) } } ∧
    exec (.busMasterEnableClear fn) s = .next { s with hif := { s.hif with fns := mod5 s.hif.fns fn.val (fun f => { f with bme := false }) } }) ∧
  (∀ (s : State) (speed : Fin 5) (width : Fin 4) (flit : Bool), hostReach s = true → speed ≠ 0 → width ≠ 0 →
    exec (.pcieLinkUp speed width flit) s =
      .next { s with hif := { s.hif with up := true, speed := speed.val, width := width.val, flit := flit || speed == 4 } }) ∧
  (∀ s : State, exec .pcieLinkDown s = .next { s with hif := { s.hif with up := false, speed := 0, width := 0, flit := false } }) ∧
  (∀ (s : State) (core : Fin 4), s.rst.railsOn = true →
    (debugLive s = true → exec (.debugHalt core) s = .next { s with mbx := { s.mbx with halted := mod4 s.mbx.halted core.val (fun _ => true) } } ∧
      exec (.debugResume core) s = .next (firmwareResumes { s with mbx := { s.mbx with halted := mod4 s.mbx.halted core.val (fun _ => false) } }) ∧
      (∀ t, firmwareRuns t = false → firmwareResumes t = t) ∧
      (get4 s.mbx.halted core.val = true → exec (.debugStep core) s =
        .next { s with mbx := { s.mbx with stepped := mod4 s.mbx.stepped core.val (fun n => n + 1) } }) ∧
      (∀ v : BitVec 64, exec (.debugBar0Access (.bar0 0x2008) 4 (some v)) s =
        .next { s with clk := { s.clk with capShadow := some (max 900 (min 1650 (v.toNat % 2048))) } }) ∧
      (∀ off width, rightAccess 0 off width false = false → downAt s 0 off = false → exec (.debugBar0Access (.bar0 off) width none) s = .next { s with
        hif := { s.hif with badAccess := min (s.hif.badAccess + 1) (2 ^ 32 - 1), sticky := s.hif.sticky ||| 2 }, out := s.out ++ [.readData (zeros width)] }) ∧
      (∃ t, exec (.debugBar0Access (.bar0 0x2008) 4 none) s = .next t ∧ t.out = s.out ++ [.readData (leBytes 4 s.clk.capW)]) ∧
      (∀ a len, devOk s a len = true → poisonedAt s a len = false →
        ∃ t, exec (.debugMemoryAccess ⟨a, []⟩ len none) s = .next t ∧ t.out = s.out ++ [.readData (cellRead s.mem.cells a len)] ∧
          countedHbm s { t with out := s.out }) ∧
      (∀ a b n, devOk s a b.length = true → hbmReadable s = true → (memWrite a b s).1 = .ok → Memory.wf s = true →
        ∃ t, exec (.debugMemoryAccess ⟨a, []⟩ n (some b)) s = .next t ∧ cellRead t.mem.cells a b.length = b ∧
          ∀ x, x < a ∨ a + b.length ≤ x → cellGet t.mem.cells x = cellGet s.mem.cells x)) ∧
    (debugLive s = false → ∀ off width w a n b, exec (.debugHalt core) s = .next s ∧ exec (.debugResume core) s = .next s ∧
      exec (.debugStep core) s = .next s ∧ exec (.debugBar0Access (.bar0 off) width w) s = .next s ∧ exec (.debugMemoryAccess a n b) s = .next s) ∧
    (∀ (edges : List (Bool × Bool)) width w, exec (.debugBar0Access (.clocks edges) width w) s = .next { s with
      pins := { s.pins with tap := (tapEdges s edges).2 }, out := s.out ++ [.jtag (tapEdges s edges).1] } ∧
      exec (.debugBar0Access .reset width w) s = .next { s with pins := { s.pins with tap := {} } }))

/-! ## Confidential attachment -/

/-- The SPDM requests, IDE key programming and the TDISP requests (R304 to R306, R331, R342): requests in their order are answered; signed answers end with the
attestation key's signature; a secured session is one at a time; six programmed keys make a set that K_SET_GO takes into use;
an integrity failure takes the stream out of the secure state and the TDI to ERROR; the TDI moves UNLOCKED, LOCKED, RUN.
The model's choices in it: notes/assumptions 24, 25, 26, 27. -/
def Obligations.ConfidentialAttachment : Prop :=
  ∀ s : State, securityUp s = true →
    let answered := fun (name : String) (h : HifState) =>
      ({ s with draw := s.draw + 1, hif := h, out := s.out ++ [.spdm name true (Config.spdmBody name s.draw)] } : State)
    exec .getVersion s = .next (answered "VERSION" { s.hif with spdmPhase := 1, spdmSig := false, spdmKem := false }) ∧
    (1 ≤ s.hif.spdmPhase → exec .getCapabilities s = .next (answered "CAPABILITIES" { s.hif with spdmPhase := max 2 s.hif.spdmPhase })) ∧
    (2 ≤ s.hif.spdmPhase → ∀ a b, (a || b) = true →
      exec (.negotiateAlgorithms a b) s = .next (answered "ALGORITHMS" { s.hif with spdmPhase := 3, spdmSig := a, spdmKem := b })) ∧
    (3 ≤ s.hif.spdmPhase → attestReady s = true →
      exec .getDigests s = .next { s with out := s.out ++ [.spdm "DIGESTS" true (sha512 s.kst.chain)] } ∧
      (∀ off len, off < s.kst.chain.length → exec (.getCertificate off len) s = .next { s with
        out := s.out ++ [.spdm "CERTIFICATE" true (slice s.kst.chain off (min len (s.kst.chain.length - off)))] }) ∧
      (s.hif.spdmSig = true → drbgGrants 1 3 s = true →
        (∀ nonce, ∃ t sig, exec (.challenge nonce) s = .next t ∧ sig.length = 4627 ∧
          t.out = s.out ++ [.spdm "CHALLENGE_AUTH" true (Config.spdmBody "CHALLENGE_AUTH" s.draw ++ nonce ++ sig)] ∧
          drewOnly s { t with out := s.out, draw := s.draw }) ∧
        (∀ nonce, ∃ t sig, exec (.getMeasurements nonce) s = .next t ∧ sig.length = 4627 ∧
          t.out = s.out ++ [.spdm "MEASUREMENTS" true (measurements nonce s ++ nonce ++ sig)] ∧
          drewOnly s { t with out := s.out }) ∧
        (∀ key, s.hif.spdmKem = true → s.hif.session = 0 → drbgGrants 2 3 s = true → ∃ t sig, exec (.keyExchange key) s = .next t ∧ sig.length = 4627 ∧
          t.out = s.out ++ [.spdm "KEY_EXCHANGE_RSP" true (bvBytes 1568 (Config.mlkemEncapCt key (drbgTake 32 s).1) ++ sig)] ∧
          t.hif = { s.hif with session := 1, sessKeys := 0 } ∧ drewOnly s { t with out := s.out, hif := s.hif }))) ∧
    (3 ≤ s.hif.spdmPhase → s.hif.session = 1 → exec (.finish true) s = .next (answered "FINISH_RSP" { s.hif with session := 2 }) ∧
      exec (.finish false) s = .next { s with hif := { s.hif with session := 0 }, out := s.out ++ [.spdm "DecryptError" false []] }) ∧
    (s.hif.session = 2 →
      exec .endSession s = .next (answered "END_SESSION_ACK" { s.hif with session := 0, sessKeys := 0 }) ∧
      exec .keyUpdate s = .next (answered "KEY_UPDATE_ACK" { s.hif with sessKeys := s.hif.sessKeys + 1 }) ∧
      exec .heartbeat s = .next (answered "HEARTBEAT_ACK" s.hif) ∧
      (∀ (stream keySet dir : Fin 2) (sub : Fin 3) (key : Bytes), ∃ t, exec (.ideKmKeyProg stream keySet dir sub key) s = .next t ∧
        (slotAt t (ideSlot stream.val keySet.val dir.val sub.val)).map (fun k => (k.secret, k.mask)) = some (key, 8) ∧
        (keySet.val, dir.val, sub.val) ∈ (streamOf t stream.val).keys ∧ (streamOf t stream.val).secure = (streamOf s stream.val).secure ∧
        (∀ n, n ≠ ideSlot stream.val keySet.val dir.val sub.val → slotAt t n = slotAt s n) ∧ t.hif.tdi = s.hif.tdi) ∧
      (∀ (stream : Fin 2) (n : Nat), nextSet (streamOf s stream.val) = some n → ∃ t, exec (.kSetGo stream) s = .next t ∧
        streamOf t stream.val = { streamOf s stream.val with secure := true, keySet := n } ∧
        { t with draw := s.draw, out := s.out, hif := { t.hif with linkIde := s.hif.linkIde, selIde := s.hif.selIde } } = s)) ∧
    (∀ stream : Fin 2, (streamOf s stream.val).secure = true → ∃ t, exec (.ideIntegrityFail stream) s = .next t ∧ t.hif.tdi = .error ∧
      (streamOf t stream.val).secure = false ∧ t.hif.sticky.getLsbD 3 = true ∧ t.hif.sticky.getLsbD 4 = true ∧
      (∀ i < 5, i ≠ 0 → fenced t i = true)) ∧
    (s.hif.tdi = .unlocked → ownedConfidential s = true → s.hif.selIde.secure = true → (∀ i < 5, fenced s i = false) →
      exec (.lockInterfaceRequest 0) s = .next (answered "LOCK_INTERFACE_RESPONSE" { s.hif with tdi := .locked })) ∧
    (s.hif.tdi ≠ .unlocked ∨ ownedConfidential s = false ∨ s.hif.selIde.secure = false → exec (.lockInterfaceRequest 0) s =
      .next { s with out := s.out ++ [.spdm "INVALID_INTERFACE_STATE" false []] }) ∧
    (s.hif.tdi = .locked → exec (.startInterfaceRequest 0) s = .next (answered "START_INTERFACE_RESPONSE" { s.hif with tdi := .run })) ∧
    exec (.stopInterfaceRequest 0) s = .next (answered "STOP_INTERFACE_RESPONSE" { s.hif with tdi := .unlocked }) ∧
    (s.hif.tdi = .locked ∨ s.hif.tdi = .run →
      exec (.getDeviceInterfaceReport 0) s = .next { s with out := s.out ++ [.spdm "DEVICE_INTERFACE_REPORT" true (interfaceReport s)] })
end

