-- ==== Sys2Proof/Laws/Cells.lean ====
section
/-! SUPPORT. The byte memories: a read after a write, and the canonical form that every operation on them keeps. -/

namespace Sys2Proof.Machine

/-- Every address of the list is `a` or above. -/
def cellsFrom (a : Nat) : List Host.Cell → Prop
  | [] => True
  | (b, _) :: _ => a ≤ b

theorem cellsWf_cons (b : Nat) (w : Byte) (m : List Host.Cell) :
    cellsWf ((b, w) :: m) = true ↔ w ≠ 0 ∧ cellsFrom (b + 1) m ∧ cellsWf m = true := by
  cases m with
  | nil => simp [cellsWf, cellsFrom]
  | cons c m => obtain ⟨c, x⟩ := c; simp [cellsWf, cellsFrom, and_assoc] <;> omega

theorem cellsFrom_mono {a b : Nat} {m : List Host.Cell} (h : cellsFrom b m) (hab : a ≤ b) : cellsFrom a m := by
  cases m with
  | nil => trivial
  | cons c m => exact Nat.le_trans hab h

/-- A cell in front of later ones keeps the form. -/
theorem cellCons_wf {a : Nat} {v : Byte} {m : List Host.Cell} (hm : cellsWf m = true) (ha : cellsFrom (a + 1) m) :
    cellsWf (cellCons a v m) = true := by
  unfold cellCons
  split
  · exact hm
  · exact (cellsWf_cons a v m).2 ⟨by assumption, ha, hm⟩

theorem cellCons_from {a c : Nat} {v : Byte} {m : List Host.Cell} (hm : cellsFrom c m) (ha : c ≤ a) :
    cellsFrom c (cellCons a v m) := by
  unfold cellCons
  split
  · exact hm
  · exact ha

theorem cellSet_from {a c : Nat} {v : Byte} {m : List Host.Cell} (hm : cellsFrom c m) (hw : cellsWf m = true) (ha : c ≤ a) :
    cellsFrom c (cellSet m a v) := by
  cases m with
  | nil => exact cellCons_from trivial ha
  | cons x m =>
    obtain ⟨b, w⟩ := x
    obtain ⟨-, hf, -⟩ := (cellsWf_cons b w m).1 hw
    have hb : c ≤ b := hm
    simp only [cellSet]
    split
    · exact cellCons_from (show c ≤ b from hb) ha
    · split
      · exact cellCons_from (cellsFrom_mono hf (by omega)) ha
      · exact hb

/-- Storing one byte keeps the canonical form. -/
theorem cellSet_wf (m : List Host.Cell) (a : Nat) (v : Byte) (h : cellsWf m = true) : cellsWf (cellSet m a v) = true := by
  induction m with
  | nil => exact cellCons_wf rfl trivial
  | cons x m ih =>
    obtain ⟨b, w⟩ := x
    obtain ⟨hw, hf, hm⟩ := (cellsWf_cons b w m).1 h
    simp only [cellSet]
    split
    · exact cellCons_wf h (by assumption)
    · split
      · exact cellCons_wf hm (by subst a; exact hf)
      · exact (cellsWf_cons _ _ _).2 ⟨hw, cellSet_from hf hm (by omega), ih hm⟩

/-- Storing a byte string keeps the canonical form. -/
theorem cellWrite_wf (m : List Host.Cell) (a : Nat) (bs : Bytes) (h : cellsWf m = true) : cellsWf (cellWrite m a bs) = true := by
  induction bs generalizing m a with
  | nil => exact h
  | cons b bs ih => exact ih _ _ (cellSet_wf m a b h)

theorem cellsFrom_filter {a : Nat} {m : List Host.Cell} (p : Host.Cell → Bool) (h : cellsFrom a m) (hw : cellsWf m = true) :
    cellsFrom a (m.filter p) := by
  induction m generalizing a with
  | nil => trivial
  | cons x m ih =>
    obtain ⟨b, w⟩ := x
    obtain ⟨-, hf, hm⟩ := (cellsWf_cons b w m).1 hw
    have hb : a ≤ b := h
    rw [List.filter_cons]
    split
    · exact hb
    · exact ih (cellsFrom_mono hf (by omega)) hm

/-- Discarding cells keeps the canonical form. -/
theorem cells_filter_wf (m : List Host.Cell) (p : Host.Cell → Bool) (h : cellsWf m = true) : cellsWf (m.filter p) = true := by
  induction m with
  | nil => rfl
  | cons x m ih =>
    obtain ⟨b, w⟩ := x
    obtain ⟨hw, hf, hm⟩ := (cellsWf_cons b w m).1 h
    rw [List.filter_cons]
    split
    · exact (cellsWf_cons _ _ _).2 ⟨hw, cellsFrom_filter p hf hm, ih hm⟩
    · exact ih hm

/-- Wiping a range keeps the canonical form. -/
theorem cellWipe_wf (m : List Host.Cell) (a n : Nat) (h : cellsWf m = true) : cellsWf (cellWipe m a n) = true :=
  cells_filter_wf m _ h

theorem cellGet_below {a c : Nat} {m : List Host.Cell} (h : cellsFrom c m) (hw : cellsWf m = true) (ha : a < c) : cellGet m a = 0 := by
  induction m generalizing c with
  | nil => rfl
  | cons x m ih =>
    obtain ⟨b, w⟩ := x
    obtain ⟨-, hf, hm⟩ := (cellsWf_cons b w m).1 hw
    have hb : c ≤ b := h
    simp only [cellGet]
    rw [if_neg (by omega)]
    exact ih hf hm (by omega)

theorem cellGet_cons (a b : Nat) (v : Byte) (m : List Host.Cell) (hm : cellsFrom (b + 1) m) (hw : cellsWf m = true) :
    cellGet (cellCons b v m) a = if a = b then v else cellGet m a := by
  unfold cellCons
  split
  · split
    · subst a; subst v; exact cellGet_below hm hw (by omega)
    · rfl
  · rfl

/-- A read after a store of one byte: the byte at its address, and every other byte as before. -/
theorem cellGet_set (m : List Host.Cell) (a c : Nat) (v : Byte) (h : cellsWf m = true) :
    cellGet (cellSet m a v) c = if c = a then v else cellGet m c := by
  induction m with
  | nil => exact cellGet_cons c a v [] trivial rfl
  | cons x m ih =>
    obtain ⟨b, w⟩ := x
    obtain ⟨hw, hf, hm⟩ := (cellsWf_cons b w m).1 h
    simp only [cellSet]
    split
    · exact cellGet_cons c a v _ (by assumption) h
    · split
      · subst a
        rw [cellGet_cons c b v m hf hm]
        simp only [cellGet]
        split <;> rfl
      · simp only [cellGet, ih hm]
        split
        · rw [if_neg (by omega)]
        · rfl

/-- A read after a store of a byte string. -/
theorem cellGet_write (m : List Host.Cell) (a c : Nat) (bs : Bytes) (h : cellsWf m = true) :
    cellGet (cellWrite m a bs) c = if a ≤ c ∧ c < a + bs.length then bs.getD (c - a) 0 else cellGet m c := by
  induction bs generalizing m a with
  | nil => rw [if_neg (by simp)]; rfl
  | cons b bs ih =>
    simp only [cellWrite]
    rw [ih _ _ (cellSet_wf m a b h), cellGet_set m a c b h]
    simp only [List.length_cons]
    by_cases hc : c = a
    · subst hc; rw [if_neg (by omega), if_pos rfl, if_pos (by omega)]; simp
    · rw [if_neg hc]
      by_cases hr : a + 1 ≤ c ∧ c < a + 1 + bs.length
      · rw [if_pos hr, if_pos (by omega)]
        obtain ⟨k, rfl⟩ : ∃ k, c = a + 1 + k := ⟨c - (a + 1), by omega⟩
        rw [show a + 1 + k - (a + 1) = k by omega, show a + 1 + k - a = k + 1 by omega]
        rfl
      · rw [if_neg hr, if_neg (by omega)]

/-- A read after a wipe. -/
theorem cellGet_wipe (m : List Host.Cell) (a n c : Nat) : cellGet (cellWipe m a n) c = if a ≤ c ∧ c < a + n then 0 else cellGet m c := by
  unfold cellWipe
  induction m with
  | nil => simp [cellGet]
  | cons x m ih =>
    obtain ⟨b, w⟩ := x
    by_cases hb : a ≤ b ∧ b < a + n
    · rw [List.filter_cons_of_neg (by simp [hb]), ih]
      simp only [cellGet]
      split
      · rfl
      · rw [if_neg (by rintro rfl; omega)]
    · rw [List.filter_cons_of_pos (by simp; omega)]
      simp only [cellGet, ih]
      split
      · subst c; rw [if_neg hb]
      · rfl

theorem wf_filterMap (m : List Nat) (f : Nat → Byte) (h : m.Pairwise (· < ·)) :
    cellsWf (m.filterMap (fun i => if f i = 0 then none else some (i, f i))) = true ∧
      ∀ c, (∀ i ∈ m, c ≤ i) → cellsFrom c (m.filterMap (fun i => if f i = 0 then none else some (i, f i))) := by
  induction m with
  | nil => exact ⟨rfl, fun _ _ => trivial⟩
  | cons x m ih =>
    obtain ⟨hx, hm⟩ := List.pairwise_cons.1 h
    obtain ⟨hw, hc⟩ := ih hm
    rw [List.filterMap_cons]
    by_cases hf : f x = 0
    · simp only [hf, if_true]
      exact ⟨hw, fun c h => hc c (fun i hi => h i (List.mem_cons_of_mem _ hi))⟩
    · simp only [hf, if_false]
      exact ⟨(cellsWf_cons _ _ _).2 ⟨hf, hc _ (fun i hi => hx i hi), hw⟩, fun c h => h x (by simp)⟩

end Sys2Proof.Machine
end

