-- ==== Sys2Proof/Laws/Crypto.lean ====
section
/-! SUPPORT. What the ciphers and digests answer: how long their results are, and that sealed bytes open again. -/

namespace Sys2Proof.Machine

@[simp] theorem zeros_length (n : Nat) : (zeros n).length = n := by simp [zeros]

@[simp] theorem leBytes_length (n v : Nat) : (leBytes n v).length = n := by
  induction n generalizing v with
  | zero => rfl
  | succ n ih => simp [leBytes, ih]

@[simp] theorem bvBytes_length {w : Nat} (n : Nat) (v : BitVec w) : (bvBytes n v).length = n := leBytes_length _ _

@[simp] theorem fit_length (n : Nat) (b : Bytes) : (fit n b).length = n := by simp [fit]

@[simp] theorem sponge_length (rate : Nat) (sfx : Byte) (m : Bytes) (n : Nat) : (sponge rate sfx m n).length = n := by simp [sponge]

@[simp] theorem sha512_length (b : Bytes) : (sha512 b).length = 64 := by simp [sha512]

@[simp] theorem sha256_length (b : Bytes) : (sha256 b).length = 32 := by simp [sha256]

@[simp] theorem shake_length (b : Bytes) (n : Nat) : (shake b n).length = n := by simp [shake]

@[simp] theorem shake128_length (b : Bytes) (n : Nat) : (shake128 b n).length = n := by simp [shake128]

@[simp] theorem xorBytes_length (a b : Bytes) : (xorBytes a b).length = min a.length b.length := by simp [xorBytes]

@[simp] theorem gcmTag_length (key nonce aad ct : Bytes) : (gcmTag key nonce aad ct).length = 16 := by simp [gcmTag]

/-! ## AES-256 -/

/-- A list is cut into `fuel` whole pieces when it is long enough. -/
theorem chunksOf_whole (k : Nat) (hk : 0 < k) : ∀ (fuel : Nat) (l : List α), k * fuel ≤ l.length →
    (chunksOf k fuel l).length = fuel ∧ ∀ c ∈ chunksOf k fuel l, c.length = k
  | 0, _, _ => ⟨rfl, by simp [chunksOf]⟩
  | fuel + 1, l, h => by
    have hl : k ≤ l.length := Nat.le_trans (Nat.le_mul_of_pos_right k (Nat.succ_pos fuel)) h
    have hne : l.isEmpty = false := by cases l with | nil => simp at hl; omega | cons => rfl
    have hd : k * fuel ≤ (l.drop k).length := by rw [List.length_drop]; rw [Nat.mul_succ] at h; omega
    have ⟨n, a⟩ := chunksOf_whole k hk fuel (l.drop k) hd
    simp only [chunksOf, hne, Bool.false_eq_true, if_false, List.length_cons, n, List.mem_cons]
    refine ⟨trivial, ?_⟩
    rintro c (rfl | hc)
    · rw [List.length_take]; omega
    · exact a c hc

theorem keyWord_length (i : Nat) (ws : List Bytes) (h : 8 ≤ ws.length) (a : ∀ w ∈ ws, w.length = 4) : (keyWord i ws).length = 4 := by
  have at' : ∀ n, n < 8 → (ws.getD n []).length = 4 := fun n hn => by
    rw [List.getD_eq_getElem?_getD, List.getElem?_eq_getElem (by omega)]; exact a _ (List.getElem_mem _)
  unfold keyWord
  dsimp only
  rw [xorBytes_length, at' 7 (by decide)]
  split
  · simp only [xorBytes_length, List.length_map, List.length_append, List.length_drop, List.length_take, at' 0 (by decide), List.length_cons, List.length_nil]
    rfl
  · split <;> simp only [List.length_map, at' 0 (by decide)] <;> rfl

theorem schedule_length (is : List Nat) : ∀ (l : List Bytes), 8 ≤ l.length → (∀ w ∈ l, w.length = 4) →
    let r := is.foldl (fun l i => keyWord (i + 8) l :: l) l
    r.length = l.length + is.length ∧ ∀ w ∈ r, w.length = 4 := by
  induction is with
  | nil => exact fun l _ a => ⟨rfl, a⟩
  | cons i is ih =>
    intro l h a
    have ⟨n, b⟩ := ih (keyWord (i + 8) l :: l) (by rw [List.length_cons]; omega) (by
      rintro w (_ | ⟨_, hw⟩)
      · exact keyWord_length _ _ h a
      · exact a w hw)
    refine ⟨n.trans ?_, b⟩
    rw [List.length_cons, List.length_cons]; omega

theorem flatten_length (l : List Bytes) (k : Nat) (a : ∀ w ∈ l, w.length = k) : l.flatten.length = k * l.length := by
  induction l with
  | nil => rfl
  | cons x l ih =>
    rw [List.flatten_cons, List.length_append, a x (List.mem_cons_self ..), ih (fun w h => a w (List.mem_cons_of_mem _ h)), List.length_cons, Nat.mul_succ]
    omega

/-- A key expands to 15 round keys of 16 bytes. -/
theorem roundKeys_length (key : Bytes) : (roundKeys key).length = 15 ∧ ∀ k ∈ roundKeys key, k.length = 16 := by
  have ⟨c, b⟩ := chunksOf_whole 4 (by decide) 8 (fit 32 key) (Nat.le_of_eq (fit_length 32 key).symm)
  have ⟨n, a⟩ := schedule_length (List.range 52) (chunksOf 4 8 (fit 32 key)).reverse (Nat.le_of_eq ((List.length_reverse).trans c).symm)
    (fun w h => b w (List.mem_reverse.mp h))
  refine chunksOf_whole 16 (by decide) 15 _ ?_
  have l := flatten_length _ 4 (fun w h => a w (List.mem_reverse.mp h))
  rw [List.length_reverse, n, List.length_reverse, c, List.length_range] at l
  exact Nat.le_of_eq l.symm

@[simp] theorem shiftRows_length (b : Bytes) : (shiftRows b).length = 16 := by simp [shiftRows]

theorem aesRounds_length : ∀ (ks : List Bytes) (b : Bytes), ks ≠ [] → (∀ k ∈ ks, k.length = 16) → (aesRounds ks b).length = 16
  | [], _, h, _ => absurd rfl h
  | [k], b, _, a => by simp [aesRounds, a k (List.mem_singleton.mpr rfl)]
  | _ :: k :: ks, b, _, a => by
    rw [aesRounds]
    · exact aesRounds_length (k :: ks) _ (List.cons_ne_nil _ _) (fun x h => a x (List.mem_cons_of_mem _ h))
    · exact List.cons_ne_nil _ _

theorem aesBlock_length (key b : Bytes) : (aesBlock (roundKeys key) b).length = 16 := by
  have ⟨n, a⟩ := roundKeys_length key
  match h : roundKeys key with
  | [] => rw [h] at n; cases n
  | [_] => rw [h] at n; cases n
  | k :: k' :: ks =>
    rw [h] at a
    exact aesRounds_length (k' :: ks) _ (List.cons_ne_nil _ _) (fun x g => a x (List.mem_cons_of_mem _ g))

/-! ## AES-256-GCM -/

@[simp] theorem gcmStream_length (key nonce : Bytes) (n : Nat) : (gcmStream (roundKeys key) nonce n).length = n := by
  have l : ∀ m, ((List.range m).flatMap (fun i => aesBlock (roundKeys key) (fit 12 nonce ++ beBytes 4 (i + 2)))).length = 16 * m := fun m => by
    rw [List.flatMap, flatten_length _ 16, List.length_map, List.length_range]
    intro w h
    obtain ⟨i, -, rfl⟩ := List.mem_map.mp h
    exact aesBlock_length key _
  rw [gcmStream, List.length_take, l]
  omega

@[simp] theorem gcmXor_length (key nonce data : Bytes) : (gcmXor key nonce data).length = data.length := by simp [gcmXor]

/-- The stream cipher undoes itself. -/
@[simp] theorem gcmXor_gcmXor (key nonce data : Bytes) : gcmXor key nonce (gcmXor key nonce data) = data := by
  apply List.ext_getElem
  · simp
  · intro i h1 h2
    simp [gcmXor, xorBytes, BitVec.xor_assoc]

/-- What is sealed opens again. -/
theorem gcmOpen_gcmSeal (key nonce aad plain : Bytes) :
    gcmOpen key nonce aad (gcmSeal key nonce aad plain).1 (gcmSeal key nonce aad plain).2 = some plain := by
  simp [gcmOpen, gcmSeal]

end Sys2Proof.Machine
end

