-- ==== Sys2Proof/Laws/Evolves.lean ====
section
/-! SUPPORT. `Evolves s t`: what no command of the block undoes on the way from `s` to `t`. One lemma for each named operation, in
the form a chain of them needs: from `Evolves r s`, `Evolves r (operation s)`. -/

namespace Sys2Proof.Machine

/-- The queue, the part number and the time stand; memories stay canonical; what has been sent stays sent; fuse counters, the
blown seed and the serial number of proofs are never taken back; numbers keep their widths. -/
structure Evolves (s t : State) : Prop where
  queue  : t.pending = s.pending
  part   : t.partId = s.partId
  time   : t.now = s.now
  sent   : s.out <+: t.out
  drawn  : s.draw ≤ t.draw
  ctrl   : s.ctrlFw.counter ≤ t.ctrlFw.counter
  sec    : s.secFw.counter ≤ t.secFw.counter
  seed   : s.kst.seedBlown = true → t.kst.seedBlown = true
  serial : s.kst.serial ≤ t.kst.serial
  stroke : s.prs.stroke < 2 ^ 48 → t.prs.stroke < 2 ^ 48
  seq    : s.mbx.seq < 2 ^ 32 → t.mbx.seq < 2 ^ 32
  cells  : cellsWf s.mem.cells = true → cellsWf t.mem.cells = true
  buffer : cellsWf s.tst.buffer = true ∧ cellsWf s.tst.latched = true → cellsWf t.tst.buffer = true ∧ cellsWf t.tst.latched = true
  boxes  : (∀ b ∈ list4 s.mbx.boxes, cellsWf b.window = true) → ∀ b ∈ list4 t.mbx.boxes, cellsWf b.window = true

theorem Evolves.refl (s : State) : Evolves s s := by constructor <;> simp

theorem Evolves.trans {a b c : State} (h : Evolves a b) (g : Evolves b c) : Evolves a c where
  queue := g.queue.trans h.queue
  part := g.part.trans h.part
  time := g.time.trans h.time
  sent := h.sent.trans g.sent
  drawn := Nat.le_trans h.drawn g.drawn
  ctrl := Nat.le_trans h.ctrl g.ctrl
  sec := Nat.le_trans h.sec g.sec
  seed := g.seed ∘ h.seed
  serial := Nat.le_trans h.serial g.serial
  stroke := g.stroke ∘ h.stroke
  seq := g.seq ∘ h.seq
  cells := g.cells ∘ h.cells
  buffer := g.buffer ∘ h.buffer
  boxes := g.boxes ∘ h.boxes

/-- A state that differs in other fields only. -/
theorem Evolves.same {r s t : State} (h : Evolves r s) (e1 : t.pending = s.pending) (e2 : t.partId = s.partId) (e3 : t.now = s.now)
    (e4 : t.out = s.out) (e5 : s.draw ≤ t.draw) (e6 : t.ctrlFw.counter = s.ctrlFw.counter) (e7 : t.secFw.counter = s.secFw.counter)
    (e8 : t.kst.seedBlown = s.kst.seedBlown) (e9 : t.kst.serial = s.kst.serial) (e10 : t.prs.stroke = s.prs.stroke)
    (e11 : t.mbx.seq = s.mbx.seq) (e12 : t.mem.cells = s.mem.cells) (e13 : t.tst = s.tst)
    (e14 : t.mbx.boxes = s.mbx.boxes) : Evolves r t :=
  h.trans (by constructor <;> simp [*])

variable {r s : State}

theorem Evolves.ite {c : Prop} [Decidable c] {a b : State} (ha : Evolves r a) (hb : Evolves r b) : Evolves r (if c then a else b) := by
  split <;> assumption

theorem Evolves.ite_snd {c : Prop} [Decidable c] {a b : α × State} (ha : Evolves r a.2) (hb : Evolves r b.2) :
    Evolves r (if c then a else b).2 := by
  split <;> assumption

theorem Evolves.elim {o : Option α} {a : State} {f : α → State} (ha : Evolves r a) (hf : ∀ x, Evolves r (f x)) : Evolves r (o.elim a f) := by
  cases o with
  | none => exact ha
  | some x => exact hf x

/-- A fold of an operation that evolves. -/
theorem Evolves.foldl {f : State → α → State} (hf : ∀ t x, Evolves r t → Evolves r (f t x)) (l : List α) (h : Evolves r s) :
    Evolves r (l.foldl f s) := by
  induction l generalizing s with
  | nil => exact h
  | cons x l ih => exact ih (hf s x h)

/-! ## Updates of one block -/

theorem modRst_evolves (f) (h : Evolves r s) : Evolves r (modRst f s) := h.same rfl rfl rfl rfl (Nat.le_refl _) rfl rfl rfl rfl rfl rfl rfl rfl rfl
theorem modClk_evolves (f) (h : Evolves r s) : Evolves r (modClk f s) := h.same rfl rfl rfl rfl (Nat.le_refl _) rfl rfl rfl rfl rfl rfl rfl rfl rfl
theorem modPins_evolves (f) (h : Evolves r s) : Evolves r (modPins f s) := h.same rfl rfl rfl rfl (Nat.le_refl _) rfl rfl rfl rfl rfl rfl rfl rfl rfl
theorem modPla_evolves (f) (h : Evolves r s) : Evolves r (modPla f s) := h.same rfl rfl rfl rfl (Nat.le_refl _) rfl rfl rfl rfl rfl rfl rfl rfl rfl
theorem modCvu_evolves (f) (h : Evolves r s) : Evolves r (modCvu f s) := h.same rfl rfl rfl rfl (Nat.le_refl _) rfl rfl rfl rfl rfl rfl rfl rfl rfl
theorem modEnt_evolves (f) (h : Evolves r s) : Evolves r (modEnt f s) := h.same rfl rfl rfl rfl (Nat.le_refl _) rfl rfl rfl rfl rfl rfl rfl rfl rfl
theorem modLife_evolves (f) (h : Evolves r s) : Evolves r (modLife f s) := h.same rfl rfl rfl rfl (Nat.le_refl _) rfl rfl rfl rfl rfl rfl rfl rfl rfl
theorem modMpr_evolves (f) (h : Evolves r s) : Evolves r (modMpr f s) := h.same rfl rfl rfl rfl (Nat.le_refl _) rfl rfl rfl rfl rfl rfl rfl rfl rfl
theorem modHif_evolves (f) (h : Evolves r s) : Evolves r (modHif f s) := h.same rfl rfl rfl rfl (Nat.le_refl _) rfl rfl rfl rfl rfl rfl rfl rfl rfl
theorem modBuf_evolves (f) (h : Evolves r s) : Evolves r (modBuf f s) := h.same rfl rfl rfl rfl (Nat.le_refl _) rfl rfl rfl rfl rfl rfl rfl rfl rfl
theorem modPtn_evolves (f) (h : Evolves r s) : Evolves r (modPtn f s) := h.same rfl rfl rfl rfl (Nat.le_refl _) rfl rfl rfl rfl rfl rfl rfl rfl rfl
theorem modHev_evolves (f) (h : Evolves r s) : Evolves r (modHev f s) := h.same rfl rfl rfl rfl (Nat.le_refl _) rfl rfl rfl rfl rfl rfl rfl rfl rfl
theorem modRdm_evolves (f) (h : Evolves r s) : Evolves r (modRdm f s) := h.same rfl rfl rfl rfl (Nat.le_refl _) rfl rfl rfl rfl rfl rfl rfl rfl rfl
theorem modDec_evolves (f) (h : Evolves r s) : Evolves r (modDec f s) := h.same rfl rfl rfl rfl (Nat.le_refl _) rfl rfl rfl rfl rfl rfl rfl rfl rfl
theorem modRing_evolves (f) (h : Evolves r s) : Evolves r (modRing f s) := h.same rfl rfl rfl rfl (Nat.le_refl _) rfl rfl rfl rfl rfl rfl rfl rfl rfl
theorem modPort_evolves (n f) (h : Evolves r s) : Evolves r (modPort n f s) := h.same rfl rfl rfl rfl (Nat.le_refl _) rfl rfl rfl rfl rfl rfl rfl rfl rfl
theorem modFn_evolves (n f) (h : Evolves r s) : Evolves r (modFn n f s) := h.same rfl rfl rfl rfl (Nat.le_refl _) rfl rfl rfl rfl rfl rfl rfl rfl rfl
theorem modPrs_evolves (f) (h : Evolves r s) (hf : s.prs.stroke < 2 ^ 48 → (f s.prs).stroke < 2 ^ 48) : Evolves r (modPrs f s) :=
  h.trans (by constructor <;> simp_all [modPrs])
theorem modKst_evolves (f) (h : Evolves r s) (h1 : s.kst.seedBlown = true → (f s.kst).seedBlown = true)
    (h2 : s.kst.serial ≤ (f s.kst).serial) : Evolves r (modKst f s) :=
  h.trans (by constructor <;> simp_all [modKst])
theorem modMem_evolves (f) (h : Evolves r s) (hf : cellsWf s.mem.cells = true → cellsWf (f s.mem).cells = true) :
    Evolves r (modMem f s) :=
  h.trans (by constructor <;> simp_all [modMem])
theorem modTst_evolves (f) (h : Evolves r s) (hf : cellsWf s.tst.buffer = true ∧ cellsWf s.tst.latched = true →
    cellsWf (f s.tst).buffer = true ∧ cellsWf (f s.tst).latched = true) : Evolves r (modTst f s) :=
  h.trans (by constructor <;> simp_all [modTst])
theorem modMbx_evolves (f) (h : Evolves r s) (h1 : s.mbx.seq < 2 ^ 32 → (f s.mbx).seq < 2 ^ 32)
    (h2 : (∀ b ∈ list4 s.mbx.boxes, cellsWf b.window = true) → ∀ b ∈ list4 (f s.mbx).boxes, cellsWf b.window = true) :
    Evolves r (modMbx f s) :=
  h.trans (by constructor <;> simp_all [modMbx])
theorem mod4_all {p : α → Prop} (x : Four α) (i : Nat) (f : α → α) (hf : ∀ a, p a → p (f a)) (h : ∀ a ∈ list4 x, p a) :
    ∀ a ∈ list4 (mod4 x i f), p a := by
  simp only [list4, List.mem_cons, List.not_mem_nil, or_false, forall_eq_or_imp, forall_eq] at h ⊢
  unfold mod4
  by_cases h0 : i = 0 <;> by_cases h1 : i = 1 <;> by_cases h2 : i = 2 <;> simp [h0, h1, h2] <;> simp_all
theorem modBox_evolves (n f) (h : Evolves r s) (hf : ∀ b, cellsWf b.window = true → cellsWf (f b).window = true) :
    Evolves r (modBox n f s) :=
  h.trans (by constructor <;> first | exact mod4_all _ _ _ hf | simp [modBox])

/-! ## Updates of one field -/

theorem set_idsOk_evolves (v) (h : Evolves r s) : Evolves r { s with idsOk := v } := h.same rfl rfl rfl rfl (Nat.le_refl _) rfl rfl rfl rfl rfl rfl rfl rfl rfl
theorem set_rst_evolves (v) (h : Evolves r s) : Evolves r { s with rst := v } := h.same rfl rfl rfl rfl (Nat.le_refl _) rfl rfl rfl rfl rfl rfl rfl rfl rfl
theorem set_backup_evolves (v) (h : Evolves r s) : Evolves r { s with backup := v } := h.same rfl rfl rfl rfl (Nat.le_refl _) rfl rfl rfl rfl rfl rfl rfl rfl rfl
theorem set_clk_evolves (v) (h : Evolves r s) : Evolves r { s with clk := v } := h.same rfl rfl rfl rfl (Nat.le_refl _) rfl rfl rfl rfl rfl rfl rfl rfl rfl
theorem set_pins_evolves (v) (h : Evolves r s) : Evolves r { s with pins := v } := h.same rfl rfl rfl rfl (Nat.le_refl _) rfl rfl rfl rfl rfl rfl rfl rfl rfl
theorem set_pla_evolves (v) (h : Evolves r s) : Evolves r { s with pla := v } := h.same rfl rfl rfl rfl (Nat.le_refl _) rfl rfl rfl rfl rfl rfl rfl rfl rfl
theorem set_cvu_evolves (v) (h : Evolves r s) : Evolves r { s with cvu := v } := h.same rfl rfl rfl rfl (Nat.le_refl _) rfl rfl rfl rfl rfl rfl rfl rfl rfl
theorem set_ent_evolves (v) (h : Evolves r s) : Evolves r { s with ent := v } := h.same rfl rfl rfl rfl (Nat.le_refl _) rfl rfl rfl rfl rfl rfl rfl rfl rfl
theorem set_life_evolves (v) (h : Evolves r s) : Evolves r { s with life := v } := h.same rfl rfl rfl rfl (Nat.le_refl _) rfl rfl rfl rfl rfl rfl rfl rfl rfl
theorem set_mpr_evolves (v) (h : Evolves r s) : Evolves r { s with mpr := v } := h.same rfl rfl rfl rfl (Nat.le_refl _) rfl rfl rfl rfl rfl rfl rfl rfl rfl
theorem set_hif_evolves (v) (h : Evolves r s) : Evolves r { s with hif := v } := h.same rfl rfl rfl rfl (Nat.le_refl _) rfl rfl rfl rfl rfl rfl rfl rfl rfl
theorem set_buf_evolves (v) (h : Evolves r s) : Evolves r { s with buf := v } := h.same rfl rfl rfl rfl (Nat.le_refl _) rfl rfl rfl rfl rfl rfl rfl rfl rfl
theorem set_weights_evolves (v) (h : Evolves r s) : Evolves r { s with weights := v } := h.same rfl rfl rfl rfl (Nat.le_refl _) rfl rfl rfl rfl rfl rfl rfl rfl rfl
theorem set_dec_evolves (v) (h : Evolves r s) : Evolves r { s with dec := v } := h.same rfl rfl rfl rfl (Nat.le_refl _) rfl rfl rfl rfl rfl rfl rfl rfl rfl
theorem set_ring_evolves (v) (h : Evolves r s) : Evolves r { s with ring := v } := h.same rfl rfl rfl rfl (Nat.le_refl _) rfl rfl rfl rfl rfl rfl rfl rfl rfl
theorem set_ports_evolves (v) (h : Evolves r s) : Evolves r { s with ports := v } := h.same rfl rfl rfl rfl (Nat.le_refl _) rfl rfl rfl rfl rfl rfl rfl rfl rfl
theorem set_ptn_evolves (v) (h : Evolves r s) : Evolves r { s with ptn := v } := h.same rfl rfl rfl rfl (Nat.le_refl _) rfl rfl rfl rfl rfl rfl rfl rfl rfl
theorem set_hev_evolves (v) (h : Evolves r s) : Evolves r { s with hev := v } := h.same rfl rfl rfl rfl (Nat.le_refl _) rfl rfl rfl rfl rfl rfl rfl rfl rfl
theorem set_rdm_evolves (v) (h : Evolves r s) : Evolves r { s with rdm := v } := h.same rfl rfl rfl rfl (Nat.le_refl _) rfl rfl rfl rfl rfl rfl rfl rfl rfl
theorem set_draw_evolves (v) (h : Evolves r s) (hv : s.draw ≤ v) : Evolves r { s with draw := v } :=
  h.same rfl rfl rfl rfl hv rfl rfl rfl rfl rfl rfl rfl rfl rfl
theorem set_out_evolves (l) (h : Evolves r s) : Evolves r { s with out := s.out ++ l } :=
  h.trans (by constructor <;> simp)
theorem set_ctrlFw_evolves (v : FwComp) (h : Evolves r s) (hv : s.ctrlFw.counter ≤ v.counter) : Evolves r { s with ctrlFw := v } :=
  h.trans (by constructor <;> simp [hv])
theorem set_secFw_evolves (v : FwComp) (h : Evolves r s) (hv : s.secFw.counter ≤ v.counter) : Evolves r { s with secFw := v } :=
  h.trans (by constructor <;> simp [hv])

end Sys2Proof.Machine
end

