-- ==== Sys2Proof/Laws/Generator.lean ====
section
/-! SUPPORT. What a generate request of CTR_DRBG answers and what it changes (19_entropy_and_check_values.md R374). -/

namespace Sys2Proof.Machine

variable {s : State}

@[simp] theorem aes256_length (key block : Bytes) : (aes256 key block).length = 16 := by
  unfold aes256
  exact aesBlock_length key _

@[simp] theorem drbgBlocks_length (key v : Bytes) (n : Nat) : (drbgBlocks key v n).length = 16 * n := by
  rw [drbgBlocks, List.flatMap, flatten_length _ 16, List.length_map, List.length_range]
  intro w h
  obtain ⟨i, -, rfl⟩ := List.mem_map.mp h
  exact aes256_length _ _

@[simp] theorem drbgGenerate_length (n : Nat) (w : Bytes × Bytes) : (drbgGenerate n w).1.length = n := by
  simp only [drbgGenerate, List.length_take, drbgBlocks_length]
  omega

/-- A slot after the generator keeps a new working state: only slot 4's secret is another. -/
theorem slotAt_setDrbg (w : Bytes × Bytes) (m : Nat) :
    slotAt (setDrbg w s) m = (slotAt s m).map (fun k => if m = 4 then { k with secret := w.1 } else k) := by
  let f := fun k : KeySlot => if k.slot == 4 then { k with secret := w.1 } else k
  have e : (fun k => k.slot == m) ∘ f = fun k => k.slot == m := funext fun k => by
    simp only [f, Function.comp_apply]
    split <;> rfl
  show (s.kst.slots.map f).find? (·.slot == m) = (s.kst.slots.find? (·.slot == m)).map _
  rw [List.find?_map, e]
  cases h : s.kst.slots.find? (·.slot == m) with
  | none => rfl
  | some k =>
    have g := List.find?_some h
    rw [beq_iff_eq] at g
    simp [f, g]

/-- All that one request changes. -/
theorem drbgTake_eq (n : Nat) : drbgTake n s = ((drbgGenerate n (drbgState s)).1, setDrbg (drbgGenerate n (drbgState s)).2
    { s with ent := { s.ent with requests := s.ent.requests + 1, reseeding := s.ent.reseeding || decide (49152 ≤ s.ent.requests + 1) } }) := rfl

@[simp] theorem drbgTake_length (n : Nat) : (drbgTake n s).1.length = n := drbgGenerate_length n _

theorem slotAt_drbgTake (n m : Nat) (h : m ≠ 4) : slotAt (drbgTake n s).2 m = slotAt s m := by
  rw [drbgTake_eq, slotAt_setDrbg]
  cases e : slotAt s m with
  | none => simpa [slotAt] using e
  | some k => simpa [slotAt, if_neg h] using e

end Sys2Proof.Machine
end

