-- ==== Sys2Proof/Laws/Operations.lean ====
section
/-! SUPPORT. One lemma for each shared operation of the model, module by module: what it never undoes (`Evolves`). -/

namespace Sys2Proof.Machine

variable {r s : State}

/-! ## Ops -/

theorem drawNat_evolves  (h : Evolves r s) : Evolves r (drawNat s).2 := by
  unfold drawNat; (try dsimp only); repeat' with_reducible first | assumption | apply set_draw_evolves | exact Nat.le_add_right _ _ | split
theorem drawBytes_evolves (x1 : Nat) (h : Evolves r s) : Evolves r (drawBytes x1 s).2 := by
  unfold drawBytes; (try dsimp only); repeat' with_reducible first | assumption | apply set_draw_evolves | exact Nat.le_add_right _ _ | split
theorem freshHandle_evolves (x1 : List Nat) (h : Evolves r s) : Evolves r (freshHandle x1 s).2 := by
  unfold freshHandle; (try dsimp only); repeat' with_reducible first
    | assumption | apply Evolves.ite | apply Evolves.ite_snd | apply set_draw_evolves | exact Nat.le_add_right _ _ | split
theorem emit_evolves (x1 : Output) (h : Evolves r s) : Evolves r (emit x1 s) := by
  unfold emit; (try dsimp only); repeat' with_reducible first | assumption | apply set_out_evolves
theorem send_evolves (x1 : Output) (h : Evolves r s) : Evolves r (send x1 s) := by
  unfold send; (try dsimp only); repeat' with_reducible first
    | assumption | apply Evolves.ite | apply set_out_evolves
theorem post_evolves (x1 : Nat) (x2 : Output) (h : Evolves r s) : Evolves r (post x1 x2 s) :=
  .ite (send_evolves _ h) (set_hif_evolves _ h)
theorem postData_evolves (x1 : Nat) (x2 : Nat) (x3 : Bytes) (h : Evolves r s) : Evolves r (postData x1 x2 x3 s) := by
  unfold postData; (try dsimp only); repeat' with_reducible first
    | assumption | apply Evolves.ite | apply post_evolves | exact Nat.le_refl _ | exact Nat.le_add_right _ _
theorem placeHbm_evolves (n : Nat) (h : Evolves r s) : Evolves r (placeHbm n s).2 :=
  .ite_snd (set_draw_evolves _ h (Nat.le_succ _)) (set_draw_evolves _ h (Nat.le_succ _))
theorem placeHbm_eq {n : Nat} {a : Option Nat} {t : State} (h : Evolves r s) (e : placeHbm n s = (a, t)) : Evolves r t := by
  have := placeHbm_evolves n h
  rwa [e] at this
theorem mapPages_evolves (x1 : Nat) (x2 : Nat) (x3 : PageMeta → PageMeta) (h : Evolves r s) : Evolves r (mapPages x1 x2 x3 s) := by
  unfold mapPages; (try dsimp only); repeat' with_reducible first
    | assumption | apply Evolves.ite | apply modMpr_evolves | exact Nat.le_refl _ | exact Nat.le_add_right _ _ | intro _
theorem countWalks_evolves (x1 : Nat) (h : Evolves r s) : Evolves r (countWalks x1 s) := by
  unfold countWalks; (try dsimp only); repeat' with_reducible first
    | assumption | apply Evolves.ite | apply modMpr_evolves | exact Nat.le_refl _ | exact Nat.le_add_right _ _ | intro _
theorem writePages_evolves (x1 : Nat) (x2 : Nat) (x3 : Nat) (x4 : Nat) (h : Evolves r s) : Evolves r (writePages x1 x2 x3 x4 s) := by
  unfold writePages; (try dsimp only); repeat' with_reducible first
    | assumption | apply Evolves.ite | apply Evolves.ite_snd | apply countWalks_evolves | apply modMpr_evolves | apply mapPages_evolves
    | exact Nat.le_refl _ | exact Nat.le_add_right _ _ | intro _
theorem writeLines_evolves (x1 : Nat) (x2 : Nat) (h : Evolves r s) : Evolves r (writeLines x1 x2 s) := by
  unfold writeLines; (try dsimp only); repeat' with_reducible first
    | assumption | apply Evolves.ite | apply writePages_evolves | exact Nat.le_refl _ | exact Nat.le_add_right _ _
theorem setRegion_evolves (x1 : Nat) (x2 : Nat) (x3 : Option Nat) (h : Evolves r s) : Evolves r (setRegion x1 x2 x3 s) := by
  unfold setRegion; (try dsimp only); repeat' with_reducible first
    | assumption | apply Evolves.ite | apply mapPages_evolves | exact Nat.le_refl _ | exact Nat.le_add_right _ _ | intro _
theorem wipeHbm_evolves (x1 x2 : Nat) (h : Evolves r s) : Evolves r (wipeHbm x1 x2 s) :=
  modMem_evolves _ (writeLines_evolves _ _ h) (cellWipe_wf _ _ _)
theorem hold_evolves (x1 : Held) (h : Evolves r s) : Evolves r (hold x1 s) := by
  unfold hold; (try dsimp only); repeat' with_reducible first
    | assumption | apply Evolves.ite | apply modMem_evolves | apply wipeHbm_evolves | exact fun h => h | intro _
theorem release_evolves (x1 : Owner → Bool) (h : Evolves r s) : Evolves r (release x1 s) := by
  unfold release; (try dsimp only); repeat' with_reducible first
    | assumption | apply Evolves.ite | apply modMem_evolves | apply wipeHbm_evolves | apply Evolves.foldl | exact fun h => h | intro _
theorem countParity_evolves (x1 : Nat) (x2 : Nat) (h : Evolves r s) : Evolves r (countParity x1 x2 s) := by
  unfold countParity; (try dsimp only); repeat' with_reducible first
    | assumption | apply Evolves.ite | apply modPla_evolves | apply Evolves.foldl | intro _
theorem failReads_evolves (x1 : List MemFail) (x2 : Nat) (x3 : Nat) (h : Evolves r s) : Evolves r (failReads x1 x2 x3 s) := by
  unfold failReads; (try dsimp only); repeat' with_reducible first
    | assumption | apply Evolves.ite | apply countWalks_evolves | apply modLife_evolves | apply modMpr_evolves | apply modMem_evolves
    | apply Evolves.foldl | exact Nat.le_refl _ | exact Nat.le_add_right _ _ | exact fun h => h | intro _
theorem checkedRead_evolves (x1 : List MemFail) (x2 : Nat) (x3 : Nat) (h : Evolves r s) : Evolves r (checkedRead x1 x2 x3 s).2.2 := by
  unfold checkedRead; (try dsimp only); repeat' with_reducible first
    | assumption | apply Evolves.ite | apply Evolves.ite_snd | apply failReads_evolves | apply countParity_evolves | exact Nat.le_refl _
    | exact Nat.le_add_right _ _ | split
theorem devRead_evolves (x1 : List MemFail) (x2 : Nat) (x3 : Nat) (h : Evolves r s) : Evolves r (devRead x1 x2 x3 s).2 := by
  unfold devRead; (try dsimp only); repeat' with_reducible first
    | assumption | apply Evolves.ite | apply Evolves.ite_snd | apply checkedRead_evolves | exact Nat.le_refl _ | exact Nat.le_add_right _ _
theorem poolFail_evolves (x1 : Nat) (h : Evolves r s) : Evolves r (poolFail x1 s) := by
  unfold poolFail; (try dsimp only); repeat' with_reducible first
    | assumption | apply Evolves.ite | apply modBuf_evolves | exact Nat.le_refl _ | exact Nat.le_add_right _ _ | intro _
theorem memWrite_evolves (x1 : Nat) (x2 : Bytes) (h : Evolves r s) : Evolves r (memWrite x1 x2 s).2 := by
  have hc : ∀ t, Evolves r t → Evolves r (modMem (fun m => { m with cells := cellWrite m.cells x1 x2 }) t) :=
    fun t ht => modMem_evolves _ ht (cellWrite_wf _ _ _)
  have hp : ∀ (g : MemState → List Nat) t, Evolves r t → Evolves r (modMem (fun m => { m with poison := g m }) t) :=
    fun _ t ht => modMem_evolves _ ht (fun h => h)
  have hq : ∀ (g : MemState → List Nat) t, Evolves r t → Evolves r (modMem (fun m => { m with parity := g m }) t) :=
    fun _ t ht => modMem_evolves _ ht (fun h => h)
  unfold memWrite; dsimp only
  refine .ite_snd (.ite_snd h (.ite_snd h ?_)) ?_
  · dsimp only; exact hp _ _ (hc _ (writeLines_evolves _ _ h))
  · dsimp only; exact hq _ _ (hc _ h)
theorem markPoison_evolves (x1 : Nat) (x2 : Nat) (x3 : List Nat) (h : Evolves r s) : Evolves r (markPoison x1 x2 x3 s) := by
  unfold markPoison; (try dsimp only); repeat' with_reducible first
    | assumption | apply Evolves.ite | apply modMpr_evolves | apply modMem_evolves | apply Evolves.foldl | exact Nat.le_refl _
    | exact Nat.le_add_right _ _ | exact fun h => h | intro _
theorem ringStore_evolves (x1 : Nat) (x2 : Bool) (x3 : Nat) (x4 : Bytes) (h : Evolves r s) : Evolves r (ringStore x1 x2 x3 x4 s) := by
  unfold ringStore; (try dsimp only); repeat' with_reducible first | assumption | apply Evolves.ite | apply post_evolves | apply memWrite_evolves
theorem tailStore_evolves (x1 : Nat) (x2 : Nat) (x3 : Nat) (h : Evolves r s) : Evolves r (tailStore x1 x2 x3 s) := by
  unfold tailStore; (try dsimp only); repeat' with_reducible first | assumption | apply ringStore_evolves | split
theorem loseEvent_evolves  (h : Evolves r s) : Evolves r (loseEvent s) := by
  unfold loseEvent; (try dsimp only); repeat' with_reducible first | assumption | apply modMbx_evolves | exact fun h => h
theorem signalEvent_evolves (x1 : Nat) (h : Evolves r s) : Evolves r (signalEvent x1 s) := by
  unfold signalEvent; (try dsimp only); repeat' with_reducible first
    | assumption | apply Evolves.ite | apply modMbx_evolves | apply post_evolves | exact fun h => h
theorem writeEvent_evolves (x1 : EventRing) (x2 : Nat) (x3 : Nat) (x4 : Nat) (x5 : Nat) (x6 : Nat) (h : Evolves r s) : Evolves r (writeEvent x1 x2 x3
    x4 x5 x6 s) := by
  unfold writeEvent; (try dsimp only); repeat' with_reducible first
    | assumption | apply Evolves.ite | apply modMbx_evolves | apply emit_evolves | apply ringStore_evolves | apply tailStore_evolves
    | apply signalEvent_evolves
    | apply set_ring_evolves | exact fun h => h
theorem postEvent_evolves (x1 x2 x3 x4 : Nat) (h : Evolves r s) : Evolves r (postEvent x1 x2 x3 x4 s) := by
  have h1 : Evolves r (modMbx (fun m => { m with seq := (m.seq + 1) % 2 ^ 32 }) s) :=
    modMbx_evolves _ h (fun _ => Nat.mod_lt _ (Nat.two_pow_pos 32)) (fun h => h)
  unfold postEvent; dsimp only
  cases s.mbx.ring with
  | none => exact loseEvent_evolves h1
  | some g => exact .ite h1 (.ite (loseEvent_evolves h1) (writeEvent_evolves _ _ _ _ _ _ h1))
theorem modJob_evolves (x1 : Nat) (x2 : Job → Job) (h : Evolves r s) : Evolves r (modJob x1 x2 s) := by
  unfold modJob; (try dsimp only); repeat' with_reducible first | assumption | apply modMbx_evolves | exact fun h => h
theorem waitJob_evolves (x1 : Job) (x2 : Nat) (h : Evolves r s) : Evolves r (waitJob x1 x2 s) := by
  unfold waitJob; (try dsimp only); repeat' with_reducible first | assumption | apply modJob_evolves
theorem completed_wf (x1 : Option Nat) (x2 : Status) (x3 : Bytes) (b : Mailbox) (h : cellsWf b.window = true) :
    cellsWf (completed x1 x2 x3 b).window = true :=
  cellWrite_wf _ _ _ (cellWrite_wf _ _ _ (cellWrite_wf _ _ _ h))
theorem finishWith_evolves (x1 : Option Nat) (x2 : Job) (x3 : Status) (x4 : Bytes) (h : Evolves r s) :
    Evolves r (finishWith x1 x2 x3 x4 s) := by
  have h1 : Evolves r (modMbx (fun m => { m with jobs := m.jobs.filter (·.order != x2.order) }) s) := modMbx_evolves _ h (fun h => h) (fun h => h)
  have h2 := Evolves.ite (c := selfTest x2.opcode = true) (modTst_evolves (fun t => { t with last := statusCode x3 }) h1 (fun h => h)) h1
  have h3 := modBox_evolves x2.mb _ h2 (completed_wf x1 x3 x4)
  unfold finishWith
  exact .ite h2 (.ite (postEvent_evolves _ _ _ _ (.ite (post_evolves _ _ h3) h3)) (.ite (post_evolves _ _ h3) h3))
theorem finish_evolves (x1 : Job) (x2 : Status) (x3 : Bytes) (h : Evolves r s) : Evolves r (finish x1 x2 x3 s) := by
  unfold finish; (try dsimp only); repeat' with_reducible first | assumption | apply finishWith_evolves
theorem conclude_evolves (x1 : Job) (x2 : Status) (x3 : Bytes) (h : Evolves r s) : Evolves r (conclude x1 x2 x3 s) := by
  unfold conclude; (try dsimp only); repeat' with_reducible first
    | assumption | apply Evolves.ite | apply finish_evolves | apply modJob_evolves | intro _
theorem deliverEnded_evolves (h : Evolves r s) : Evolves r (deliverEnded s) := by
  unfold deliverEnded; (try dsimp only); repeat' with_reducible first
    | assumption | apply Evolves.ite | apply finishWith_evolves | apply Evolves.foldl | apply Evolves.elim | intro _
theorem refuseWith_evolves (x1 : Job) (x2 : Status) (x3 : Nat) (h : Evolves r s) : Evolves r (refuseWith x1 x2 x3 s) := by
  unfold refuseWith; (try dsimp only); repeat' with_reducible first | assumption | apply finishWith_evolves
theorem answer_evolves (x1 : Job) (x2 : Status) (h : Evolves r s) : Evolves r (answer x1 x2 s) := by
  unfold answer; (try dsimp only); repeat' with_reducible first | assumption | apply finish_evolves
theorem onJob_evolves (mb op : Nat) (f : Job → State) (h : Evolves r s) (hf : ∀ j, Evolves r (f j)) : Evolves r (onJob mb op s f) := by
  unfold onJob
  split
  · first | exact hf _ | exact .ite (hf _) h
  · exact h
theorem onNewJob_evolves (mb op : Nat) (f : Job → State) (h : Evolves r s) (hf : ∀ j, Evolves r (f j)) : Evolves r (onNewJob mb op s f) := by
  unfold onNewJob
  split
  · first | exact hf _ | exact .ite (hf _) h
  · exact h
theorem modWring_evolves (x1 : Nat) (x2 : WRing → WRing) (h : Evolves r s) : Evolves r (modWring x1 x2 s) := by
  unfold modWring; (try dsimp only); repeat' with_reducible first | assumption | apply modBuf_evolves
theorem modCring_evolves (x1 : Nat) (x2 : CRing → CRing) (h : Evolves r s) : Evolves r (modCring x1 x2 s) := by
  unfold modCring; (try dsimp only); repeat' with_reducible first | assumption | apply modBuf_evolves
theorem signalCring_evolves (x1 : CRing) (h : Evolves r s) : Evolves r (signalCring x1 s) := by
  unfold signalCring; (try dsimp only); repeat' with_reducible first | assumption | apply Evolves.ite | apply post_evolves | apply modCring_evolves
theorem writeEntry_evolves (x1 : Nat) (x2 : Bytes) (h : Evolves r s) : Evolves r (writeEntry x1 x2 s) := by
  unfold writeEntry; split
  · exact h
  · exact signalCring_evolves _ (tailStore_evolves _ _ _ (modCring_evolves _ _ (ringStore_evolves _ _ _ _ h)))
theorem finishDesc_evolves (x1 : Nat) (x2 : Bytes) (h : Evolves r s) : Evolves r (finishDesc x1 x2 s) := by
  unfold finishDesc; split
  · exact h
  · have h1 := fun g => modBuf_evolves g h
    dsimp only
    split
    · exact h1 _
    · exact writeEntry_evolves _ _ (modWring_evolves _ _ (h1 _))
theorem flushHeld_evolves (x1 x2 : Nat) (h : Evolves r s) : Evolves r (flushHeld x1 x2 s) := by
  induction x2 generalizing s with
  | zero => exact h
  | succ n ih =>
    unfold flushHeld
    repeat' split
    · exact h
    · exact ih (finishDesc_evolves _ _ h)
    · exact h
theorem completeDesc_evolves (x1 : Nat) (x2 : Bytes) (h : Evolves r s) : Evolves r (completeDesc x1 x2 s) := by
  unfold completeDesc; (try dsimp only); repeat' with_reducible first
    | assumption | apply Evolves.ite | apply modBuf_evolves | apply finishDesc_evolves | apply flushHeld_evolves | split
theorem takeDesc_evolves (x1 : Nat) (h : Evolves r s) : Evolves r (takeDesc x1 s) := by
  unfold takeDesc; (try dsimp only); repeat' with_reducible first | assumption | apply modBuf_evolves
theorem issueRead_evolves (x1 : HostRead) (h : Evolves r s) : Evolves r (issueRead x1 s) := by
  unfold issueRead; (try dsimp only); repeat' with_reducible first
    | assumption | apply Evolves.ite | apply send_evolves
theorem hostReadHead_evolves (x1 : Nat) (x2 : Nat) (x3 : Nat) (x4 : Nat) (x5 : ReadFor) (h : Evolves r s) : Evolves r (hostReadHead x1 x2 x3 x4
    x5 s) := by
  unfold hostReadHead; (try dsimp only); repeat' with_reducible first
    | assumption | apply Evolves.ite | apply modHif_evolves | apply issueRead_evolves | exact Nat.le_refl _ | exact Nat.le_add_right _ _ | intro _
theorem hostReadReq_evolves (x1 : Nat) (x2 : Nat) (x3 : Nat) (x4 : ReadFor) (h : Evolves r s) : Evolves r (hostReadReq x1 x2 x3 x4 s) := by
  unfold hostReadReq; (try dsimp only); repeat' with_reducible first
    | assumption | apply Evolves.ite | apply hostReadHead_evolves | exact Nat.le_refl _ | exact Nat.le_add_right _ _
theorem dropReads_evolves (x1 : HostRead → Bool) (h : Evolves r s) : Evolves r (dropReads x1 s) := by
  unfold dropReads; (try dsimp only); repeat' with_reducible first | assumption | apply modHif_evolves
theorem modGrant_evolves (x1 : Work) (x2 : Grant → Grant) (h : Evolves r s) : Evolves r (modGrant x1 x2 s) := by
  unfold modGrant; (try dsimp only); repeat' with_reducible first | assumption | apply modPla_evolves
theorem foldl_wipe_wf (f : Nat → Nat × Nat) (g : MemState → Nat → List Nat) (l : List Nat) (m : MemState) (h : cellsWf m.cells = true) :
    cellsWf (l.foldl (fun x i => { x with cells := cellWipe x.cells (f i).1 (f i).2, parity := g x i }) m).cells = true := by
  induction l generalizing m with
  | nil => exact h
  | cons i l ih => exact ih _ (cellWipe_wf _ _ _ h)
theorem wipeSheets_evolves (x1 : BitVec 32) (h : Evolves r s) : Evolves r (wipeSheets x1 s) :=
  modMem_evolves _ h (foldl_wipe_wf (fun sh => (sramBase + sh * 16 * graverBytes, 16 * graverBytes)) _ _ _)
theorem wipeBanks_evolves (x1 : List Nat) (h : Evolves r s) : Evolves r (wipeBanks x1 s) :=
  modMem_evolves _ h (foldl_wipe_wf (fun b => (sramBase + b * bankBytes, bankBytes))
    (fun m b => m.parity.filter (fun w => !overlaps (sramBase + b * bankBytes) bankBytes (w * 8) 8)) _ _)
theorem dropSwaps_evolves (x1 : Swap → Bool) (h : Evolves r s) : Evolves r (dropSwaps x1 s) := by
  unfold dropSwaps; (try dsimp only); repeat' with_reducible first
    | assumption | apply Evolves.ite | apply modPla_evolves | apply Evolves.foldl | intro _
theorem endWork_evolves (x1 : Work) (h : Evolves r s) : Evolves r (endWork x1 s) := by
  unfold endWork; (try dsimp only); repeat' with_reducible first
    | assumption | apply modPrs_evolves | apply modPla_evolves | apply wipeSheets_evolves | apply Evolves.foldl | apply Evolves.elim
    | exact fun h => h | intro _

/-! ## Clock -/

theorem applyDivisors_evolves  (h : Evolves r s) : Evolves r (applyDivisors s).2 := by
  unfold applyDivisors; (try dsimp only); repeat' with_reducible first | assumption | apply modClk_evolves | split

/-! ## Regs -/

theorem countBad_evolves  (h : Evolves r s) : Evolves r (countBad s) := by
  unfold countBad; (try dsimp only); repeat' with_reducible first | assumption | apply modHif_evolves
theorem clkWrite_evolves (x1 : Nat) (x2 : Nat) (h : Evolves r s) : Evolves r (clkWrite x1 x2 s) := by
  unfold clkWrite; (try dsimp only); repeat' with_reducible first | assumption | apply Evolves.ite | apply modClk_evolves
theorem prsWrite_evolves (x1 : Nat) (x2 : Nat) (h : Evolves r s) : Evolves r (prsWrite x1 x2 s) := by
  unfold prsWrite; (try dsimp only); repeat' with_reducible first | assumption | apply Evolves.ite | apply modPrs_evolves | exact fun h => h
theorem cvuWrite_evolves (x1 : Nat) (x2 : Nat) (h : Evolves r s) : Evolves r (cvuWrite x1 x2 s) := by
  unfold cvuWrite; (try dsimp only); repeat' with_reducible first | assumption | apply Evolves.ite | apply modCvu_evolves
theorem plaWrite_evolves (x1 : Nat) (x2 : Nat) (h : Evolves r s) : Evolves r (plaWrite x1 x2 s) := by
  unfold plaWrite; (try dsimp only); repeat' with_reducible first | assumption | apply Evolves.ite | apply modPla_evolves
theorem hifWrite_evolves (x1 : Nat) (x2 : Nat) (h : Evolves r s) : Evolves r (hifWrite x1 x2 s) := by
  unfold hifWrite; (try dsimp only); repeat' with_reducible first | assumption | apply Evolves.ite | apply modHif_evolves | apply modFn_evolves
theorem mprWrite_evolves (x1 : Nat) (x2 : Nat) (h : Evolves r s) : Evolves r (mprWrite x1 x2 s) := by
  unfold mprWrite; (try dsimp only); repeat' with_reducible first | assumption | apply Evolves.ite | apply modMpr_evolves
theorem bufWrite_evolves (x1 : Nat) (x2 : Nat) (h : Evolves r s) : Evolves r (bufWrite x1 x2 s) := by
  unfold bufWrite; (try dsimp only); repeat' with_reducible first | assumption | apply Evolves.ite | apply modBuf_evolves
theorem mbxRegWrite_evolves (x1 : Nat) (x2 : Nat) (x3 : Nat) (x4 : Nat) (h : Evolves r s) : Evolves r (mbxRegWrite x1 x2 x3 x4 s) := by
  unfold mbxRegWrite; (try dsimp only); repeat' with_reducible first
    | assumption | apply Evolves.ite | apply modMbx_evolves | apply modBox_evolves | exact fun h => h | exact fun _ h => h
theorem windowStore_evolves (x1 x2 : Nat) (x3 : Bytes) (h : Evolves r s) : Evolves r (windowStore x1 x2 x3 s) :=
  .ite (modBox_evolves _ _ h (fun _ h => h)) (modBox_evolves _ _ h (fun _ h => cellWrite_wf _ _ _ h))
theorem otherWrite_evolves (x1 : Blk) (x2 : Nat) (x3 : Nat) (h : Evolves r s) : Evolves r (otherWrite x1 x2 x3 s) := by
  unfold otherWrite; (try dsimp only); repeat' with_reducible first
    | assumption | apply Evolves.ite | apply modRst_evolves | apply modEnt_evolves | apply modKst_evolves | apply modTst_evolves
    | apply modPtn_evolves | apply modHev_evolves | apply modRdm_evolves | apply modPort_evolves | exact fun h => h | exact Nat.le_refl _ | split
theorem regWrite_evolves (x1 : Blk) (x2 : Nat) (x3 : Nat) (x4 : Nat) (h : Evolves r s) : Evolves r (regWrite x1 x2 x3 x4 s) := by
  unfold regWrite; (try dsimp only); repeat' with_reducible first
    | assumption | apply Evolves.ite | apply clkWrite_evolves | apply prsWrite_evolves | apply cvuWrite_evolves | apply plaWrite_evolves
    | apply hifWrite_evolves | apply mprWrite_evolves | apply bufWrite_evolves | apply mbxRegWrite_evolves | apply windowStore_evolves
    | apply otherWrite_evolves | split
theorem latchHi_evolves (x1 : LoReg) (h : Evolves r s) : Evolves r (latchHi x1 s) := by
  unfold latchHi; (try dsimp only); repeat' with_reducible first
    | assumption | apply modPrs_evolves | apply modPla_evolves | apply modHev_evolves | exact fun h => h | split

/-! ## Telemetry -/

theorem pairedHi_evolves  (h : Evolves r s) : Evolves r (pairedHi s) := by
  unfold pairedHi; (try dsimp only); repeat' with_reducible first | assumption | apply modCvu_evolves | apply latchHi_evolves
theorem armSnapshot_evolves (x1 : Nat) (h : Evolves r s) : Evolves r (armSnapshot x1 s).2 := by
  unfold armSnapshot; (try dsimp only); repeat' with_reducible first
    | assumption | apply Evolves.ite | apply Evolves.ite_snd | apply modPrs_evolves | exact fun h => h | split
theorem cellsOf_wf (n : Nat) (f : Nat → Byte) : cellsWf (cellsOf n f) = true := (wf_filterMap _ f List.pairwise_lt_range).1
theorem modTst_latched (c : List Host.Cell) (k : TstState → Nat) (hc : cellsWf c = true) (h : Evolves r s) :
    Evolves r (modTst (fun t => { t with latched := c, seq := k t }) s) := modTst_evolves _ h (fun h => ⟨h.1, hc⟩)
theorem modTst_buffer (c : List Host.Cell) (hc : cellsWf c = true) (h : Evolves r s) :
    Evolves r (modTst (fun t => { t with buffer := c }) s) := modTst_evolves _ h (fun h => ⟨hc, h.2⟩)
theorem latchSnapshot_evolves (h : Evolves r s) : Evolves r (latchSnapshot s) := by
  unfold latchSnapshot
  have hc := cellsOf_wf 0x10000 (telemetryByte s s.prs.stroke)
  revert hc
  generalize cellsOf 0x10000 (telemetryByte s s.prs.stroke) = c
  exact fun hc => modTst_evolves _ (modPrs_evolves _ (set_draw_evolves _ h (Nat.le_succ _)) (fun h => h)) (fun h => ⟨h.1, hc⟩)
theorem cancelSnapshot_evolves (h : Evolves r s) : Evolves r (cancelSnapshot s) :=
  modTst_latched _ (·.seq) rfl (modPrs_evolves _ (.ite (modTst_buffer _ (cellsOf_wf _ _) (set_draw_evolves _ h (Nat.le_add_right _ _))) h) (fun h => h))
theorem armFromRegister_evolves  (h : Evolves r s) : Evolves r (armFromRegister s) := by
  unfold armFromRegister; (try dsimp only); repeat' with_reducible first | assumption | apply armSnapshot_evolves

/-! ## Mailbox -/

theorem mailboxGo_evolves (x1 : Nat) (h : Evolves r s) : Evolves r (mailboxGo x1 s) := by
  unfold mailboxGo; (try dsimp only); repeat' with_reducible first
    | assumption | apply Evolves.ite | apply modMbx_evolves | apply modBox_evolves | apply answer_evolves | exact fun h => h | exact fun _ h => h
    | split
theorem smbusRegWord_evolves (x1 : Nat) (x2 : Nat) (x3 : Nat) (h : Evolves r s) : Evolves r (smbusRegWord x1 x2 x3 s) := by
  unfold smbusRegWord; (try dsimp only); repeat' with_reducible first
    | assumption | apply Evolves.ite | apply mbxRegWrite_evolves | apply mailboxGo_evolves
theorem smbusBytes_evolves (x1 : Nat) (x2 : Option (Nat × Nat × Nat)) (bs : Bytes) (h : Evolves r s) : Evolves r (smbusBytes x1 x2 bs s) := by
  induction bs generalizing s x1 x2 with
  | nil =>
    unfold smbusBytes; split
    · exact smbusRegWord_evolves _ _ _ h
    · exact h
  | cons b bs ih =>
    unfold smbusBytes; dsimp only
    have hf : ∀ t, Evolves r t → Evolves r (match x2 with | some (w, v, m) => smbusRegWord w v m t | none => t) := by
      intro t ht
      split
      · exact smbusRegWord_evolves _ _ _ ht
      · exact ht
    split
    · exact ih _ _ (windowStore_evolves _ _ _ (hf _ h))
    · split
      · split
        · exact ih _ _ h
        · exact ih _ _ (smbusRegWord_evolves _ _ _ h)
      · exact ih _ _ h
theorem postFallback_evolves  (h : Evolves r s) : Evolves r (postFallback s) := by
  unfold postFallback; (try dsimp only); repeat' with_reducible first
    | assumption | apply Evolves.ite | apply modMbx_evolves | apply postEvent_evolves | apply Evolves.foldl | exact fun h => h | intro _
theorem eventDoorbell_evolves (x1 : Nat) (h : Evolves r s) : Evolves r (eventDoorbell x1 s) := by
  have hr := fun g => modBuf_evolves g h
  unfold eventDoorbell
  split
  · exact hr _
  · exact .ite (hr _) (modMbx_evolves _ h (fun h => h) (fun h => h))

/-! ## Fabric -/

theorem noEarly_evolves (x1 : Bytes) (h : Evolves r s) : Evolves r (noEarly x1 s).2 := by
  unfold noEarly; (try dsimp only); repeat' with_reducible first
    | assumption | apply Evolves.ite | apply Evolves.ite_snd | intro _
theorem fetchSource_evolves (x1 : Job) (x2 : Bool) (x3 : Nat) (x4 : Nat) (x5 : Nat) (x6 : Early) (x7 : Except Status Bytes → State → State) (h :
    Evolves r s) (hx6 : ∀ b t, Evolves r t → Evolves r (x6 b t).2) (hx7 : ∀ y0 y1, Evolves r y1 → Evolves r (x7 y0 y1)) : Evolves r (fetchSource x1 x2 x3 x4 x5 x6 x7 s) := by
  unfold fetchSource; (try dsimp only); repeat' with_reducible first
    | assumption | apply Evolves.ite | apply Evolves.ite_snd | apply answer_evolves | apply waitJob_evolves | apply hostReadHead_evolves
    | apply modJob_evolves | apply devRead_evolves | apply hx6 | apply hx7 | exact Nat.le_refl _ | exact Nat.le_add_right _ _ | split | intro _
theorem onReads_evolves (x1 : MbReads) (x2 : Nat) (x3 : Job → State) (h : Evolves r s) (hx3 : ∀ j, Evolves r (x3 j)) :
    Evolves r (onReads x1 x2 s x3) := onNewJob_evolves _ _ _ h (fun _ => hx3 _)
theorem grant_evolves (w : Work) (m : BitVec 32) (twin : Bool) (n : Nat) (h : Evolves r s) : ∀ t, grant w m twin n s = some t → Evolves r t := by
  intro t ht
  unfold grant at ht
  split at ht
  · cases ht
  · obtain ⟨b, -, rfl⟩ := Option.map_eq_some_iff.1 ht
    exact wipeBanks_evolves _ (modPla_evolves _ (set_draw_evolves _ h (Nat.le_succ _)))
theorem rejectPlate_evolves (x1 : Job) (x2 : Nat) (h : Evolves r s) : Evolves r (rejectPlate x1 x2 s) := by
  unfold rejectPlate; (try dsimp only); repeat' with_reducible first | assumption | apply modPla_evolves | apply refuseWith_evolves
theorem plateEarly_evolves (x1 : Job) (x2 : Bytes) (h : Evolves r s) : Evolves r (plateEarly x1 x2 s).2 := by
  unfold plateEarly; (try dsimp only); repeat' with_reducible first
    | assumption | apply Evolves.ite | apply Evolves.ite_snd | apply rejectPlate_evolves | intro _
theorem plateStageData_evolves (x1 : Job) (x2 : Bool) (x3 : Except Status Bytes) (h : Evolves r s) : Evolves r (plateStageData x1 x2 x3 s) := by
  unfold plateStageData; (try dsimp only); repeat' with_reducible first
    | assumption | apply Evolves.ite | apply Evolves.ite_snd | apply answer_evolves | apply rejectPlate_evolves | apply modPla_evolves
    | apply freshHandle_evolves | apply finish_evolves | apply writeLines_evolves | split | intro _
theorem startLoads_evolves  (h : Evolves r s) : Evolves r (startLoads s) := by
  unfold startLoads; (try dsimp only); repeat' with_reducible first | assumption | apply Evolves.ite | apply modPla_evolves
theorem applySwap_evolves (x1 : Swap) (h : Evolves r s) : Evolves r (applySwap x1 s) := by
  unfold applySwap; (try dsimp only); repeat' with_reducible first | assumption | apply Evolves.ite | apply modPla_evolves
theorem applySwaps_evolves  (h : Evolves r s) : Evolves r (applySwaps s) := by
  unfold applySwaps; (try dsimp only); repeat' with_reducible first | assumption | apply applySwap_evolves | apply Evolves.foldl | intro _
theorem invokePlate_evolves (x1 : Work) (x2 : Option Nat) (x3 : Active) (x4 : Nat) (h : Evolves r s) : Evolves r (invokePlate x1 x2 x3 x4 s) := by
  unfold invokePlate; (try dsimp only); repeat' with_reducible first
    | assumption | apply Evolves.ite | apply modPrs_evolves | exact Nat.le_refl _ | exact Nat.le_add_right _ _ | split | exact fun h => h | intro _
theorem invokeKind_evolves (x1 : Work) (x2 : Option Nat) (x3 : Nat) (x4 : Nat) (h : Evolves r s) : Evolves r (invokeKind x1 x2 x3 x4 s) := by
  unfold invokeKind; (try dsimp only); repeat' with_reducible first
    | assumption | apply Evolves.ite | apply invokePlate_evolves | apply Evolves.foldl | exact Nat.le_refl _ | exact Nat.le_add_right _ _ | intro _

/-! ## WorkRings -/

theorem freeDrained_evolves (x1 : WRing) (h : Evolves r s) : Evolves r (freeDrained x1 s) := by
  unfold freeDrained; (try dsimp only); repeat' with_reducible first
    | assumption | apply Evolves.ite | apply Evolves.ite_snd | apply modBuf_evolves | apply conclude_evolves | split | intro _
theorem abandonFetch_evolves (x1 : WRing) (h : Evolves r s) : Evolves r (abandonFetch x1 s) := by
  unfold abandonFetch; (try dsimp only); repeat' with_reducible first
    | assumption | apply Evolves.ite | apply modCring_evolves | apply dropReads_evolves | split
theorem rejectDoorbell_evolves  (h : Evolves r s) : Evolves r (rejectDoorbell s) := by
  unfold rejectDoorbell; (try dsimp only); repeat' with_reducible first | assumption | apply modBuf_evolves
theorem workDoorbell_evolves (x1 : Nat) (x2 : Nat) (x3 : Nat) (h : Evolves r s) : Evolves r (workDoorbell x1 x2 x3 s) := by
  unfold workDoorbell; (try dsimp only); repeat' with_reducible first
    | assumption | apply Evolves.ite | apply modWring_evolves | apply rejectDoorbell_evolves | split
theorem completionDoorbell_evolves (x1 : Nat) (x2 : Nat) (x3 : Nat) (h : Evolves r s) : Evolves r (completionDoorbell x1 x2 x3 s) := by
  unfold completionDoorbell; (try dsimp only); repeat' with_reducible first
    | assumption | apply Evolves.ite | apply modCring_evolves | apply rejectDoorbell_evolves | split
theorem fetched_evolves (x1 : WRing) (x2 : Bytes) (x3 : Bool) (h : Evolves r s) : Evolves r (fetched x1 x2 x3 s) := by
  unfold fetched; (try dsimp only); repeat' with_reducible first
    | assumption | apply Evolves.ite | apply modBuf_evolves | apply modWring_evolves | apply completeDesc_evolves
theorem ringReadFault_evolves (x1 : WRing) (h : Evolves r s) : Evolves r (ringReadFault x1 s) := by
  unfold ringReadFault; (try dsimp only); repeat' with_reducible first
    | assumption | apply Evolves.ite | apply modBuf_evolves | apply postEvent_evolves | apply modWring_evolves | apply modCring_evolves

/-! ## Hev -/

theorem modCtx_evolves (x1 : Nat) (x2 : HCtx → HCtx) (h : Evolves r s) : Evolves r (modCtx x1 x2 s) := by
  unfold modCtx; (try dsimp only); repeat' with_reducible first | assumption | apply modHev_evolves
theorem ctxResources_evolves (x1 : Nat) (x2 : Bytes) (h : Evolves r s) : ∀ t, ctxResources x1 x2 s = some t → Evolves r t := by
  intro t ht
  obtain ⟨u, hu, ht⟩ := Option.bind_eq_some_iff.1 ht
  dsimp only at ht
  split at ht
  · cases ht; exact hold_evolves _ (placeHbm_eq (grant_evolves _ _ _ _ h _ hu) (by assumption))
  · cases ht
theorem closeCtx_evolves (x1 : Nat) (h : Evolves r s) : Evolves r (closeCtx x1 s) := by
  unfold closeCtx; (try dsimp only); repeat' with_reducible first
    | assumption | apply modHev_evolves | apply release_evolves | apply endWork_evolves | split
theorem keyEarly_evolves (x1 : Job) (x2 : Bytes) (h : Evolves r s) : Evolves r (keyEarly x1 x2 s).2 := by
  unfold keyEarly; (try dsimp only); repeat' with_reducible first
    | assumption | apply Evolves.ite | apply Evolves.ite_snd | apply answer_evolves | split | intro _
theorem keyLoadData_evolves (x1 : Job) (x2 : Except Status Bytes) (h : Evolves r s) : Evolves r (keyLoadData x1 x2 s) := by
  unfold keyLoadData
  split
  · exact answer_evolves _ _ h
  · exact answer_evolves _ _ h
  · refine .ite (answer_evolves _ _ h) (.ite (answer_evolves _ _ h) ?_)
    dsimp only
    split
    · exact answer_evolves _ _ h
    · exact finish_evolves _ _ _ (modCtx_evolves _ _ (hold_evolves _ (placeHbm_eq (freshHandle_evolves _ h) (by assumption))))
theorem putSlot_evolves (x1 : Nat) (x2 : Nat) (x3 : HSlot) (h : Evolves r s) : Evolves r (putSlot x1 x2 x3 s) := by
  unfold putSlot; (try dsimp only); repeat' with_reducible first | assumption | apply modCtx_evolves
theorem invalidate_evolves (x1 : Nat) (x2 : Nat) (h : Evolves r s) : Evolves r (invalidate x1 x2 s) := by
  unfold invalidate; (try dsimp only); repeat' with_reducible first | assumption | apply putSlot_evolves | split
theorem finishOp_evolves (x1 : FDesc) (x2 : Status) (x3 : Nat) (x4 : Nat) (h : Evolves r s) : Evolves r (finishOp x1 x2 x3 x4 s) := by
  unfold finishOp; (try dsimp only); repeat' with_reducible first | assumption | apply modHev_evolves | apply completeDesc_evolves
theorem failOp_evolves (x1 : FDesc) (x2 : Status) (h : Evolves r s) : Evolves r (failOp x1 x2 s) := by
  unfold failOp; (try dsimp only); repeat' with_reducible first | assumption | apply finishOp_evolves
theorem ctxFaulted_evolves (x1 : Nat) (x2 : Status) (h : Evolves r s) : Evolves r (ctxFaulted x1 x2 s) := by
  unfold ctxFaulted; (try dsimp only); repeat' with_reducible first | assumption | apply Evolves.ite | apply postEvent_evolves | apply modCtx_evolves
theorem dropHevReads_evolves (x1 : Nat) (h : Evolves r s) : Evolves r (dropHevReads x1 s) := by
  unfold dropHevReads; (try dsimp only); repeat' with_reducible first | assumption | apply dropReads_evolves
theorem stopPlates_evolves (x1 : HOp) (h : Evolves r s) : Evolves r (stopPlates x1 s) := by
  unfold stopPlates; (try dsimp only); repeat' with_reducible first
    | assumption | apply Evolves.ite | apply modPrs_evolves | apply modPla_evolves | apply dropSwaps_evolves | exact fun h => h | intro _
theorem countRun_evolves (x1 : Bool) (x2 : HOp) (h : Evolves r s) : Evolves r (countRun x1 x2 s).2 := by
  unfold countRun; (try dsimp only); repeat' with_reducible first
    | assumption | apply Evolves.ite | apply Evolves.ite_snd | apply modHev_evolves | exact Nat.le_refl _ | exact Nat.le_add_right _ _ | intro _
    | apply set_draw_evolves
theorem failRun_evolves (x1 : HOp) (x2 : FDesc) (x3 : Status) (h : Evolves r s) : Evolves r (failRun x1 x2 x3 s) := by
  unfold failRun; (try dsimp only); repeat' with_reducible first
    | assumption | apply Evolves.ite | apply finishOp_evolves | apply stopPlates_evolves
theorem endBadly_evolves (x1 : Bool) (x2 : HOp) (x3 : FDesc) (x4 : Status) (h : Evolves r s) : Evolves r (endBadly x1 x2 x3 x4 s) := by
  unfold endBadly; (try dsimp only); repeat' with_reducible first
    | assumption | apply Evolves.ite | apply Evolves.ite_snd | apply countRun_evolves | apply stopPlates_evolves | apply finishOp_evolves
    | apply invalidate_evolves
theorem stopMidway_evolves (x1 : HOp) (x2 : FDesc) (x3 : Status) (h : Evolves r s) : Evolves r (stopMidway x1 x2 x3 s) := by
  unfold stopMidway; (try dsimp only); repeat' with_reducible first
    | assumption | apply Evolves.ite | apply endBadly_evolves
theorem stopOp_evolves (x1 : HOp) (x2 : Status) (h : Evolves r s) : Evolves r (stopOp x1 x2 s) := by
  unfold stopOp; (try dsimp only); repeat' with_reducible first | assumption | apply dropHevReads_evolves | apply stopMidway_evolves | split
theorem faultCtx_evolves (x1 : Nat) (x2 : Status) (x3 : Status) (h : Evolves r s) : Evolves r (faultCtx x1 x2 x3 s) := by
  unfold faultCtx; (try dsimp only); repeat' with_reducible first
    | assumption | apply Evolves.ite | apply stopOp_evolves | apply modPrs_evolves | apply ctxFaulted_evolves | apply dropSwaps_evolves
    | apply Evolves.foldl | exact Nat.le_refl _ | exact Nat.le_add_right _ _ | exact fun h => h | intro _
theorem tagMismatch_evolves (x1 : FDesc) (x2 : Nat) (x3 : HKey) (x4 : HParams) (x5 : Nat) (h : Evolves r s) : Evolves r (tagMismatch x1 x2 x3 x4
    x5 s) := by
  unfold tagMismatch; (try dsimp only); repeat' with_reducible first
    | assumption | apply Evolves.ite | apply modHev_evolves | apply invalidate_evolves | apply finishOp_evolves | exact Nat.le_refl _
    | exact Nat.le_add_right _ _ | split | intro _
theorem startBurnish_evolves (x1 : HCtx) (x2 : BurnishSet) (x3 : List Swap) (x4 : Nat) (h : Evolves r s) : Evolves r (startBurnish x1 x2 x3 x4 s)
    := by
  unfold startBurnish; (try dsimp only); repeat' with_reducible first
    | assumption | apply Evolves.ite | apply Evolves.ite_snd | apply modPla_evolves | apply modHev_evolves | exact Nat.le_refl _
    | exact Nat.le_add_right _ _ | intro _
theorem startPlates_evolves (x1 : Nat) (x2 : Nat) (h : Evolves r s) : Evolves r (startPlates x1 x2 s) := by
  unfold startPlates; (try dsimp only); repeat' with_reducible first
    | assumption | apply Evolves.ite | apply modHev_evolves | apply invokeKind_evolves | apply Evolves.foldl | exact Nat.le_refl _
    | exact Nat.le_add_right _ _ | intro _
theorem startOp_evolves (x1 : HCtx) (x2 : FDesc) (h : Evolves r s) : Evolves r (startOp x1 x2 s) := by
  unfold startOp; (try dsimp only); repeat' with_reducible first
    | assumption | apply Evolves.ite | apply modHev_evolves | apply takeDesc_evolves | apply startBurnish_evolves | apply startPlates_evolves
    | split | intro _
theorem exportInvalid_evolves (x1 : HCtx) (x2 : FDesc) (h : Evolves r s) : Evolves r (exportInvalid x1 x2 s) := by
  unfold exportInvalid; (try dsimp only); repeat' with_reducible first
    | assumption | apply Evolves.ite | apply Evolves.ite_snd | apply failOp_evolves | apply finishOp_evolves | apply postData_evolves
    | apply memWrite_evolves | exact Nat.le_refl _ | exact Nat.le_add_right _ _ | split | intro _ | apply set_draw_evolves
theorem onOp_evolves (x1 : Nat) (x2 : Nat) (x3 : HOp → FDesc → HCtx → State) (h : Evolves r s) (hx3 : ∀ y0 y1 y2, Evolves r (x3 y0 y1 y2)) : Evolves
    r (onOp x1 x2 s x3) := by
  unfold onOp; (try dsimp only); repeat' with_reducible first | assumption | apply hx3 | split | intro _
theorem modOp_evolves (x1 : Nat) (x2 : HOp → HOp) (h : Evolves r s) : Evolves r (modOp x1 x2 s) := by
  unfold modOp; (try dsimp only); repeat' with_reducible first | assumption | apply modHev_evolves
theorem setResult_evolves (x1 : Nat) (x2 : Option HSlot) (x3 : Nat) (x4 : Nat) (x5 : Nat) (h : Evolves r s) : Evolves r (setResult x1 x2 x3 x4 x5 s)
    := by
  unfold setResult; (try dsimp only); repeat' with_reducible first | assumption | apply modOp_evolves
theorem onPair_evolves (x1 : Nat) (x2 : Nat) (x3 : HCtx →   FDesc → HSlot → HSlot → HSlot) (h : Evolves r s) : Evolves r (onPair x1 x2 s x3) := by
  unfold onPair; (try dsimp only); repeat' with_reducible first
    | assumption | apply onOp_evolves | apply setResult_evolves | exact Nat.le_refl _ | exact Nat.le_add_right _ _ | split | exact fun h => h
    | intro _ | split
theorem onSingle_evolves (x1 : Nat) (x2 : Nat) (x3 : HCtx → HSlot → HSlot) (h : Evolves r s) : Evolves r (onSingle x1 x2 s x3) := by
  unfold onSingle; (try dsimp only); repeat' with_reducible first
    | assumption | apply onOp_evolves | apply setResult_evolves | exact Nat.le_refl _ | exact Nat.le_add_right _ _ | split | exact fun h => h
    | intro _ | split
theorem rotsumData_evolves (x1 : Nat) (x2 : Except Status Bytes) (h : Evolves r s) : Evolves r (rotsumData x1 x2 s) := by
  unfold rotsumData; (try dsimp only); repeat' with_reducible first
    | assumption | apply Evolves.ite | apply onOp_evolves | apply failRun_evolves | apply invalidate_evolves | apply tagMismatch_evolves
    | apply stopPlates_evolves | apply setResult_evolves | apply modOp_evolves | exact Nat.le_refl _ | exact Nat.le_add_right _ _ | split | intro _
theorem readFor_evolves (x1 : List MemFail) (x2 : FDesc) (x3 : Nat) (x4 : Nat) (x5 : ReadFor) (x6 : Except Status Bytes → State → State) (h :
    Evolves r s) (hx6 : ∀ y0 y1, Evolves r y1 → Evolves r (x6 y0 y1)) : Evolves r (readFor x1 x2 x3 x4 x5 x6 s) := by
  unfold readFor; (try dsimp only); repeat' with_reducible first
    | assumption | apply Evolves.ite | apply Evolves.ite_snd | apply hostReadReq_evolves | apply devRead_evolves | apply hx6 | exact Nat.le_refl _
    | exact Nat.le_add_right _ _ | split
theorem importFails_evolves (x1 : HOp) (x2 : FDesc) (x3 : HCtx) (x4 : Status) (h : Evolves r s) : Evolves r (importFails x1 x2 x3 x4 s) := by
  unfold importFails; (try dsimp only); repeat' with_reducible first
    | assumption | apply Evolves.ite | apply failRun_evolves | apply invalidate_evolves
theorem importBody_evolves (x1 : Nat) (x2 : Except Status Bytes) (h : Evolves r s) : Evolves r (importBody x1 x2 s) := by
  unfold importBody; (try dsimp only); repeat' with_reducible first
    | assumption | apply Evolves.ite | apply onOp_evolves | apply importFails_evolves | apply failRun_evolves | apply setResult_evolves
    | exact Nat.le_refl _ | exact Nat.le_add_right _ _ | split | intro _
theorem importHeader_evolves (x1 : List MemFail) (x2 : Nat) (x3 : Except Status Bytes) (h : Evolves r s) : Evolves r (importHeader x1 x2 x3 s) := by
  unfold importHeader; (try dsimp only); repeat' with_reducible first
    | assumption | apply Evolves.ite | apply onOp_evolves | apply importFails_evolves | apply failRun_evolves | apply readFor_evolves
    | apply importBody_evolves | apply modOp_evolves | exact Nat.le_refl _ | exact Nat.le_add_right _ _ | split | intro _
theorem hevImportData_evolves (x1 : Nat) (x2 : Except Status Bytes) (h : Evolves r s) : Evolves r (hevImportData x1 x2 s) := by
  unfold hevImportData; (try dsimp only); repeat' with_reducible first
    | assumption | apply Evolves.ite | apply importHeader_evolves | apply importBody_evolves | exact Nat.le_refl _ | exact Nat.le_add_right _ _
    | intro _
theorem writeExport_evolves (x1 : FDesc) (x2 : HCtx) (x3 : HSlot) (h : Evolves r s) : Evolves r (writeExport x1 x2 x3 s).2 := by
  unfold writeExport; (try dsimp only); repeat' with_reducible first
    | assumption | apply Evolves.ite | apply Evolves.ite_snd | apply postData_evolves | apply memWrite_evolves | split
theorem completeOp_evolves (x1 : HOp) (x2 : FDesc) (x3 : HCtx) (x4 : HSlot) (h : Evolves r s) : Evolves r (completeOp x1 x2 x3 x4 s) := by
  unfold completeOp; (try dsimp only); repeat' with_reducible first
    | assumption | apply Evolves.ite | apply Evolves.ite_snd | apply writeExport_evolves | apply putSlot_evolves | apply countRun_evolves
    | apply failOp_evolves | apply modHev_evolves | apply finishOp_evolves | intro _
theorem countMismatch_evolves (h : Evolves r s) : Evolves r (countMismatch s) := by
  unfold countMismatch; (try dsimp only); repeat' with_reducible first
    | assumption | apply Evolves.ite | apply modPla_evolves | split | intro _
theorem opMismatch_evolves (x1 : Bool) (x2 : HOp) (x3 : FDesc) (x4 : HCtx) (h : Evolves r s) : Evolves r (opMismatch x1 x2 x3 x4 s) := by
  unfold opMismatch; (try dsimp only); repeat' with_reducible first
    | assumption | apply Evolves.ite | apply Evolves.ite_snd | apply endBadly_evolves | apply countRun_evolves | apply stopPlates_evolves
    | apply modOp_evolves | apply dropHevReads_evolves | apply startBurnish_evolves | apply dropSwaps_evolves | apply startPlates_evolves | split
    | intro _
theorem rerunMidway_evolves (x1 : HOp) (h : Evolves r s) : Evolves r (rerunMidway x1 s) := by
  unfold rerunMidway; (try dsimp only); repeat' with_reducible first
    | assumption | apply Evolves.ite | apply opMismatch_evolves | split
theorem failWords_evolves (x1 : HCtx) (x2 : List MemFail) (h : Evolves r s) : Evolves r (failWords x1 x2 s) := by
  unfold failWords; (try dsimp only); repeat' with_reducible first
    | assumption | apply Evolves.ite | apply Evolves.ite_snd | apply checkedRead_evolves | apply Evolves.foldl | intro _

/-! ## Platen -/

theorem modRound_evolves (x1 : Nat) (x2 : Round → Round) (h : Evolves r s) : Evolves r (modRound x1 x2 s) := by
  unfold modRound; (try dsimp only); repeat' with_reducible first | assumption | apply modPtn_evolves
theorem poisonSlice_evolves (x1 : Nat) (x2 : Nat) (h : Evolves r s) : Evolves r (poisonSlice x1 x2 s) := by
  unfold poisonSlice; (try dsimp only); repeat' with_reducible first
    | assumption | apply Evolves.ite | apply modPtn_evolves | apply postEvent_evolves | apply modRound_evolves
theorem readPieces_evolves (x1 : List MemFail) (ps : List (Nat × Nat)) (h : Evolves r s) : Evolves r (readPieces x1 ps s).2 := by
  have fold : ∀ (l : List (Nat × Nat)) (x : Bool × State), Evolves r x.2 →
      Evolves r (l.foldl (fun x p => let c := checkedRead x1 p.1 p.2 x.2; (x.1 || c.2.1, c.2.2)) x).2 := by
    intro l
    induction l with
    | nil => exact fun _ hx => hx
    | cons p l ih => exact fun x hx => ih _ (checkedRead_evolves _ _ _ hx)
  exact fold ps (false, s) h
theorem mendPieces_evolves (x1 : List (Nat × Nat)) (h : Evolves r s) : Evolves r (mendPieces x1 s) := by
  unfold mendPieces; (try dsimp only); repeat' with_reducible first
    | assumption | apply Evolves.ite | apply Evolves.ite_snd | apply modMem_evolves | exact Nat.le_refl _ | exact Nat.le_add_right _ _
    | exact fun h => h | intro _
theorem addToSlice_evolves (x1 : Nat) (x2 : Nat) (x3 : List Nat) (x4 : Bool) (x5 : List MemFail) (h : Evolves r s) : Evolves r (addToSlice x1 x2
    x3 x4 x5 s) := by
  unfold addToSlice; (try dsimp only); repeat' with_reducible first
    | assumption | apply Evolves.ite | apply Evolves.ite_snd | apply readPieces_evolves | apply mendPieces_evolves | apply poisonSlice_evolves
    | apply modRound_evolves | exact Nat.le_refl _ | exact Nat.le_add_right _ _ | split | intro _
theorem admitSlice_evolves (x1 : Staged) (x2 : List MemFail) (h : Evolves r s) : Evolves r (admitSlice x1 x2 s).2 := by
  unfold admitSlice; (try dsimp only); repeat' with_reducible first
    | assumption | apply Evolves.ite | apply Evolves.ite_snd | apply modPtn_evolves | apply modRound_evolves | apply addToSlice_evolves
    | apply invokeKind_evolves | split | intro _
theorem roundResources_evolves (x1 : Round) (x2 : BitVec 32) (h : Evolves r s) : ∀ t, roundResources x1 x2 s = some t → Evolves r t := by
  intro t ht
  obtain ⟨u, hu, ht⟩ := Option.bind_eq_some_iff.1 ht
  have hu : Evolves r u := by
    split at hu
    · exact grant_evolves _ _ _ _ h _ hu
    · cases hu; exact h
  split at ht
  · cases ht; exact hold_evolves _ (placeHbm_eq hu (by assumption))
  · cases ht
theorem wipeRound_evolves (x1 : Nat) (h : Evolves r s) : Evolves r (wipeRound x1 s) := by
  unfold wipeRound; (try dsimp only); repeat' with_reducible first | assumption | apply modPtn_evolves | apply release_evolves | apply endWork_evolves
theorem abortRound_evolves (x1 : Nat) (h : Evolves r s) : Evolves r (abortRound x1 s) := by
  unfold abortRound; (try dsimp only); repeat' with_reducible first
    | assumption | apply Evolves.ite | apply Evolves.ite_snd | apply wipeRound_evolves | apply conclude_evolves | exact Nat.le_refl _
    | exact Nat.le_add_right _ _ | split | intro _
theorem abortRounds_evolves  (h : Evolves r s) : Evolves r (abortRounds s) := by
  unfold abortRounds; (try dsimp only); repeat' with_reducible first | assumption | apply abortRound_evolves | apply Evolves.foldl | intro _
theorem applyEntry_evolves (x1 : Nat) (x2 : List MemFail) (x3 : Bytes) (h : Evolves r s) : Evolves r (applyEntry x1 x2 x3 s) := by
  unfold applyEntry; (try dsimp only); repeat' with_reducible first
    | assumption | apply Evolves.ite | apply addToSlice_evolves | apply modPtn_evolves | apply Evolves.foldl | exact Nat.le_refl _
    | exact Nat.le_add_right _ _ | split | intro _
theorem applyEntries_evolves (x1 : Nat) (x2 : List MemFail) (es : List Bytes) (n : Nat) (h : Evolves r s) :
    Evolves r (applyEntries x1 x2 es n s).2.2 := by
  induction es generalizing s n with
  | nil => exact h
  | cons e es ih =>
    unfold applyEntries
    split
    · exact h
    · split
      · exact h
      · exact ih _ (applyEntry_evolves _ _ _ h)
theorem correctEnd_evolves (x1 : Job) (x2 : Status) (x3 : Nat) (h : Evolves r s) : Evolves r (correctEnd x1 x2 x3 s) := by
  unfold correctEnd; (try dsimp only); repeat' with_reducible first
    | assumption | apply Evolves.ite | apply finish_evolves | exact Nat.le_refl _ | exact Nat.le_add_right _ _
theorem correctEarly_evolves (x1 : Job) (x2 : Bytes) (h : Evolves r s) : Evolves r (correctEarly x1 x2 s).2 := by
  unfold correctEarly; (try dsimp only); repeat' with_reducible first
    | assumption | apply Evolves.ite | apply Evolves.ite_snd | apply applyEntries_evolves | apply modJob_evolves | apply correctEnd_evolves
    | apply Evolves.elim | intro _
theorem correctSecond_evolves (x1 : Job) (x2 : Except Status Bytes) (h : Evolves r s) : Evolves r (correctSecond x1 x2 s) := by
  unfold correctSecond; (try dsimp only); repeat' with_reducible first
    | assumption | apply Evolves.ite | apply Evolves.ite_snd | apply correctEnd_evolves | apply correctEarly_evolves | apply Evolves.elim | split
theorem checkEarly_evolves (x1 : Job) (x2 : Bytes) (h : Evolves r s) : Evolves r (checkEarly x1 x2 s).2 := by
  unfold checkEarly; (try dsimp only); repeat' with_reducible first
    | assumption | apply Evolves.ite | apply Evolves.ite_snd | apply answer_evolves | split | intro _
theorem secondPass_evolves (x1 : Job) (x2 x3 : Nat) (h : Evolves r s) : Evolves r (secondPass x1 x2 x3 s) := by
  have h1 := devRead_evolves x1.bad x2 (48 * x3) h
  unfold secondPass
  revert h1
  split <;> (rename_i e; rw [e]; intro h1)
  · exact correctSecond_evolves _ _ h1
  · dsimp only
    exact .ite (correctEarly_evolves _ _ h1) (correctSecond_evolves _ _ (correctEarly_evolves _ _ h1))
theorem correctFirst_evolves (x1 : Job) (x2 : Except Status Bytes) (h : Evolves r s) : Evolves r (correctFirst x1 x2 s) := by
  unfold correctFirst; (try dsimp only); repeat' with_reducible first
    | assumption | apply Evolves.ite | apply answer_evolves | apply waitJob_evolves | apply hostReadReq_evolves | apply correctSecond_evolves
    | apply secondPass_evolves | split
theorem putOut_evolves (x1 : Nat) (x2 : Nat) (x3 : Bytes) (h : Evolves r s) : Evolves r (putOut x1 x2 x3 s).2 := by
  unfold putOut; (try dsimp only); repeat' with_reducible first
    | assumption | apply Evolves.ite | apply Evolves.ite_snd | apply memWrite_evolves | apply postData_evolves | exact Nat.le_refl _
    | exact Nat.le_add_right _ _ | split
theorem releaseSlices_evolves (x1 : Round) (x2 : Nat) (x3 : List MemFail) (l : List Nat) (x : Released) (h : Evolves r s) :
    Evolves r (releaseSlices x1 x2 x3 l x s).2 := by
  induction l generalizing s x with
  | nil => exact h
  | cons i l ih =>
    unfold releaseSlices; dsimp only
    have hr := readPieces_evolves x3 (accPieces s x1 i) h
    have hp := putOut_evolves x2 (elemWidth x1.mode * i * x1.slice) (sumBytes x1 i) hr
    exact .ite_snd (ih _ h) (.ite_snd (ih _ h) (.ite_snd (ih _ (poisonSlice_evolves _ _ hr)) (.ite_snd (ih _ hp) hp)))

/-! ## Keys -/

theorem setDrbg_evolves (w : Bytes × Bytes) (h : Evolves r s) : Evolves r (setDrbg w s) :=
  modEnt_evolves _ (modKst_evolves _ h (fun h => h) (Nat.le_refl _))
theorem drbgTake_evolves (x1 : Nat) (h : Evolves r s) : Evolves r (drbgTake x1 s).2 := by
  exact setDrbg_evolves _ (modEnt_evolves _ h)
theorem fillSlot_evolves (x1 : KeySlot) (h : Evolves r s) : Evolves r (fillSlot x1 s) := by
  unfold fillSlot; (try dsimp only); repeat' with_reducible first | assumption | apply modKst_evolves | exact fun h => h | exact Nat.le_refl _
theorem clearSlots_evolves (x1 : Nat → Bool) (h : Evolves r s) : Evolves r (clearSlots x1 s) := by
  unfold clearSlots; (try dsimp only); repeat' with_reducible first | assumption | apply modKst_evolves | exact fun h => h | exact Nat.le_refl _
theorem denySlot_evolves (x1 : Job) (h : Evolves r s) : Evolves r (denySlot x1 s) := by
  unfold denySlot; (try dsimp only); repeat' with_reducible first
    | assumption | apply modKst_evolves | apply answer_evolves | exact fun h => h | exact Nat.le_refl _
theorem expandIdentity_evolves  (h : Evolves r s) : Evolves r (expandIdentity s) := by
  unfold expandIdentity; (try dsimp only); repeat' with_reducible first | assumption | apply fillSlot_evolves | split
theorem signWith_evolves (x1 : KeySlot) (x2 : Bytes) (h : Evolves r s) : Evolves r (signWith x1 x2 s).2 := by
  unfold signWith; (try dsimp only); repeat' with_reducible first | assumption | apply drbgTake_evolves | split
theorem makeAttest_evolves (h : Evolves r s) : Evolves r (makeAttest s) := by
  unfold makeAttest; dsimp only
  split
  · exact .ite h (modKst_evolves _ (signWith_evolves _ _ (fillSlot_evolves _ (drbgTake_evolves _ h))) (fun h => h) (Nat.le_refl _))
  · exact h
theorem keyGenerate_evolves (x1 : Job) (h : Evolves r s) : Evolves r (keyGenerate x1 s) := by
  unfold keyGenerate; (try dsimp only); repeat' with_reducible first
    | assumption | apply Evolves.ite | apply Evolves.ite_snd | apply answer_evolves | apply waitJob_evolves | apply drbgTake_evolves
    | apply finish_evolves | apply fillSlot_evolves | split | intro _
theorem keyRotate_evolves (x1 : Job) (h : Evolves r s) : Evolves r (keyRotate x1 s) := by
  unfold keyRotate; (try dsimp only); repeat' with_reducible first
    | assumption | apply Evolves.ite | apply Evolves.ite_snd | apply answer_evolves | apply waitJob_evolves | apply drbgTake_evolves
    | apply modMpr_evolves | apply fillSlot_evolves | split | intro _
theorem keyOrigin_evolves (x1 : Job) (h : Evolves r s) : Evolves r (keyOrigin x1 s) := by
  unfold keyOrigin; (try dsimp only); repeat' with_reducible first
    | assumption | apply Evolves.ite | apply Evolves.ite_snd | apply answer_evolves | apply waitJob_evolves | apply signWith_evolves
    | apply finish_evolves | split
theorem attestReport_evolves (x1 : Job) (h : Evolves r s) : Evolves r (attestReport x1 s) := by
  unfold attestReport; (try dsimp only); repeat' with_reducible first
    | assumption | apply Evolves.ite | apply Evolves.ite_snd | apply answer_evolves | apply waitJob_evolves | apply signWith_evolves
    | apply finish_evolves | split

/-! ## Links -/

theorem dropLinkKeys_evolves (x1 : Nat) (h : Evolves r s) : Evolves r (dropLinkKeys x1 s) := by
  unfold dropLinkKeys; (try dsimp only); repeat' with_reducible first | assumption | apply clearSlots_evolves
theorem hsSign_evolves (x1 : Bool) (x2 : Bytes) (x3 : Handshake) (h : Evolves r s) : Evolves r (hsSign x1 x2 x3 s).2 := by
  unfold hsSign; (try dsimp only); repeat' with_reducible first
    | assumption | apply Evolves.ite | apply Evolves.ite_snd | apply signWith_evolves | split
theorem startHandshake_evolves (x1 : Nat) (h : Evolves r s) : Evolves r (startHandshake x1 s) := by
  unfold startHandshake; (try dsimp only); repeat' with_reducible first
    | assumption | apply Evolves.ite | apply Evolves.ite_snd | apply modPort_evolves | apply drbgTake_evolves | apply hsSign_evolves
    | apply emit_evolves | exact Nat.le_refl _ | exact Nat.le_add_right _ _ | split | intro _
theorem installKeys_evolves (x1 : Nat) (x2 : Bytes) (x3 : Bytes) (x4 : Nat) (x5 : Nat) (h : Evolves r s) : Evolves r (installKeys x1 x2 x3 x4 x5 s)
    := by
  unfold installKeys; (try dsimp only); repeat' with_reducible first | assumption | apply modPort_evolves | apply fillSlot_evolves
theorem holdKeys_evolves (x1 : Nat) (x2 : Bytes) (x3 : Bytes) (x4 : Nat) (x5 : Nat) (h : Evolves r s) : Evolves r (holdKeys x1 x2 x3 x4 x5 s) := by
  unfold holdKeys; (try dsimp only); repeat' with_reducible first | assumption | apply modPort_evolves | apply fillSlot_evolves
theorem beginRekey_evolves (x1 : Nat) (h : Evolves r s) : Evolves r (beginRekey x1 s) := by
  unfold beginRekey; (try dsimp only); repeat' with_reducible first
    | assumption | apply Evolves.ite | apply startHandshake_evolves | apply emit_evolves | apply modPort_evolves | exact Nat.le_refl _
    | exact Nat.le_add_right _ _ | intro _
theorem ringBroken_evolves (x1 : Nat) (h : Evolves r s) : Evolves r (ringBroken x1 s) := by
  unfold ringBroken; (try dsimp only); repeat' with_reducible first
    | assumption | apply Evolves.ite | apply modRing_evolves | apply postEvent_evolves | split
theorem linkGoesDown_evolves (x1 : Nat) (x2 : Nat) (h : Evolves r s) : Evolves r (linkGoesDown x1 x2 s) := by
  unfold linkGoesDown; (try dsimp only); repeat' with_reducible first
    | assumption | apply Evolves.ite | apply modPort_evolves | apply postEvent_evolves | apply dropLinkKeys_evolves | apply ringBroken_evolves
theorem releasePort_evolves (x1 : Nat) (x2 : Nat) (h : Evolves r s) : Evolves r (releasePort x1 x2 s) := by
  unfold releasePort; (try dsimp only); repeat' with_reducible first
    | assumption | apply modBuf_evolves | apply modPort_evolves | apply dropLinkKeys_evolves | apply linkGoesDown_evolves
theorem countFec_evolves (x1 : Nat) (x2 : Codewords) (h : Evolves r s) : Evolves r (countFec x1 x2 s) := by
  unfold countFec; (try dsimp only); repeat' with_reducible first
    | assumption | apply Evolves.ite | apply modPort_evolves | exact Nat.le_refl _ | exact Nat.le_add_right _ _ | intro _
theorem emitDelimiter_evolves (x1 : Nat) (x2 : Delimiter) (h : Evolves r s) : Evolves r (emitDelimiter x1 x2 s) := by
  unfold emitDelimiter; (try dsimp only); repeat' with_reducible first
    | assumption | apply Evolves.ite | apply emit_evolves | apply Evolves.elim | exact Nat.le_refl _ | exact Nat.le_add_right _ _
theorem emitFrame_evolves (x1 : Nat) (x2 : RingFrame) (h : Evolves r s) : Evolves r (emitFrame x1 x2 s) := by
  unfold emitFrame; (try dsimp only); repeat' with_reducible first
    | assumption | apply Evolves.ite | apply emit_evolves | apply emitDelimiter_evolves | apply Evolves.elim | exact Nat.le_refl _
    | exact Nat.le_add_right _ _
theorem sendOn_evolves (x1 : Nat) (x2 : RingFrame) (h : Evolves r s) : Evolves r (sendOn x1 x2 s) := by
  unfold sendOn; (try dsimp only); repeat' with_reducible first
    | assumption | apply Evolves.ite | apply emitFrame_evolves | apply modPort_evolves | exact Nat.le_refl _ | exact Nat.le_add_right _ _ | intro _
    | apply set_draw_evolves
theorem ctrLimits_evolves (x1 : Nat) (h : Evolves r s) : Evolves r (ctrLimits x1 s) := by
  unfold ctrLimits; (try dsimp only); repeat' with_reducible first
    | assumption | apply Evolves.ite | apply beginRekey_evolves | apply linkGoesDown_evolves
theorem pump_evolves (x1 n : Nat) (h : Evolves r s) : Evolves r (pump x1 n s) := by
  induction n generalizing s with
  | zero => exact h
  | succ n ih =>
    unfold pump; dsimp only
    split
    · exact h
    · exact .ite (ih (ctrLimits_evolves _ (sendOn_evolves _ _ (modPort_evolves _ _ h)))) h
theorem pumpAll_evolves (x1 : Nat) (h : Evolves r s) : Evolves r (pumpAll x1 s) := by
  unfold pumpAll; (try dsimp only); repeat' with_reducible first | assumption | apply pump_evolves
theorem sendFrame_evolves (x1 : Nat) (x2 : RingFrame) (h : Evolves r s) : Evolves r (sendFrame x1 x2 s) := by
  unfold sendFrame; (try dsimp only); repeat' with_reducible first
    | assumption | apply Evolves.ite | apply modPort_evolves | apply pumpAll_evolves | split
theorem sendPieces_evolves (x1 : Nat) (x2 : Nat) (x3 : DatumName) (x4 : Bytes) (h : Evolves r s) : Evolves r (sendPieces x1 x2 x3 x4 s) := by
  unfold sendPieces; (try dsimp only); repeat' with_reducible first
    | assumption | apply Evolves.ite | apply Evolves.ite_snd | apply sendFrame_evolves | apply Evolves.foldl | exact Nat.le_refl _
    | exact Nat.le_add_right _ _ | split | intro _
theorem sendDatum_evolves (x1 : Nat) (x2 : DatumName) (x3 : Bytes) (h : Evolves r s) : Evolves r (sendDatum x1 x2 x3 s) := by
  unfold sendDatum; (try dsimp only); repeat' with_reducible first
    | assumption | apply Evolves.ite | apply sendPieces_evolves | exact Nat.le_refl _ | exact Nat.le_add_right _ _
theorem sendControl_evolves (x1 : Nat) (x2 : RingCtl) (h : Evolves r s) : Evolves r (sendControl x1 x2 s) := by
  unfold sendControl; (try dsimp only); repeat' with_reducible first | assumption | apply emit_evolves | apply sendFrame_evolves | split
theorem controlAll_evolves (x1 : RingCtl) (h : Evolves r s) : Evolves r (controlAll x1 s) := by
  unfold controlAll; (try dsimp only); repeat' with_reducible first | assumption | apply sendControl_evolves | apply Evolves.foldl | split | intro _
theorem shareSignal_evolves (x1 : Nat) (h : Evolves r s) : Evolves r (shareSignal x1 s) := by
  unfold shareSignal; (try dsimp only); repeat' with_reducible first | assumption | apply Evolves.ite | apply modBuf_evolves | apply modPort_evolves
theorem modCells_evolves (x1 : Nat) (x2 : Nat → Nat) (h : Evolves r s) : Evolves r (modCells x1 x2 s) := by
  unfold modCells; (try dsimp only); repeat' with_reducible first
    | assumption | apply Evolves.ite | apply modBuf_evolves | exact Nat.le_refl _ | exact Nat.le_add_right _ _ | intro _
theorem rewindFrame_evolves (x1 : Nat) (x2 : Nat) (h : Evolves r s) : Evolves r (rewindFrame x1 x2 s) := by
  unfold rewindFrame; (try dsimp only); repeat' with_reducible first
    | assumption | apply Evolves.ite | apply shareSignal_evolves | apply modCells_evolves | exact Nat.le_refl _ | exact Nat.le_add_right _ _
theorem freeWhere_evolves (x1 : DatumName → Bool) (h : Evolves r s) : Evolves r (freeWhere x1 s) := by
  unfold freeWhere; (try dsimp only); repeat' with_reducible first
    | assumption | apply Evolves.ite | apply Evolves.ite_snd | apply shareSignal_evolves | apply modBuf_evolves | apply Evolves.foldl
    | exact Nat.le_refl _ | exact Nat.le_add_right _ _ | intro _
theorem dropData_evolves (x1 : Datum → Bool) (h : Evolves r s) : Evolves r (dropData x1 s) := by
  unfold dropData; (try dsimp only); repeat' with_reducible first
    | assumption | apply Evolves.ite | apply freeWhere_evolves | apply modPrs_evolves | exact fun h => h | intro _
theorem pnWarn_evolves (x1 : Nat) (x2 : Nat) (h : Evolves r s) : Evolves r (pnWarn x1 x2 s) := by
  unfold pnWarn; (try dsimp only); repeat' with_reducible first | assumption | apply modPort_evolves | apply postEvent_evolves
theorem netFrame_evolves (x1 : Nat) (x2 : RoceOut) (x3 : Sa) (h : Evolves r s) : Evolves r (netFrame x1 x2 x3 s) := by
  unfold netFrame; (try dsimp only); repeat' with_reducible first
    | assumption | apply Evolves.ite | apply modPort_evolves | apply emit_evolves | apply pnWarn_evolves
theorem netPump_evolves (x1 : Nat) (l : List RoceOut) (h : Evolves r s) : Evolves r (netPump x1 l s) := by
  induction l generalizing s with
  | nil => exact h
  | cons m l ih =>
    unfold netPump; dsimp only
    have hw := fun g => ih (modPort_evolves x1 g h)
    split
    · exact .ite (ih (netFrame_evolves _ _ _ h)) (hw _)
    · exact hw _
theorem netFlush_evolves (x1 : Nat) (h : Evolves r s) : Evolves r (netFlush x1 s) := by
  unfold netFlush; (try dsimp only); repeat' with_reducible first | assumption | apply modPort_evolves | apply netPump_evolves
theorem netDrop_evolves (x1 : Nat) (x2 : Nat) (h : Evolves r s) : Evolves r (netDrop x1 x2 s) := by
  unfold netDrop; (try dsimp only); repeat' with_reducible first
    | assumption | apply Evolves.ite | apply modPort_evolves | exact Nat.le_refl _ | exact Nat.le_add_right _ _ | intro _
theorem netSend_evolves (x1 : Nat) (x2 : List RoceOut) (h : Evolves r s) : Evolves r (netSend x1 x2 s) := by
  unfold netSend; (try dsimp only); repeat' with_reducible first | assumption | apply modPort_evolves | apply netFlush_evolves

/-! ## Proof -/

theorem issueProof_evolves (x1 : Session) (h : Evolves r s) : Evolves r (issueProof x1 s) := by
  unfold issueProof; dsimp only
  split
  · exact h
  · exact postData_evolves _ _ _ (modDec_evolves _ (signWith_evolves _ _ (modKst_evolves _ h (fun h => h) (Nat.le_add_right _ _))))
theorem doneOut_evolves (x1 : OutDesc) (x2 : Status) (x3 : Nat) (x4 : Nat) (x5 : Nat) (h : Evolves r s) : Evolves r (doneOut x1 x2 x3 x4 x5 s) := by
  unfold doneOut; (try dsimp only); repeat' with_reducible first | assumption | apply completeDesc_evolves
theorem endOutput_evolves (x1 : Bool) (h : Evolves r s) : Evolves r (endOutput x1 s) := by
  unfold endOutput; (try dsimp only); repeat' with_reducible first
    | assumption | apply modDec_evolves | apply doneOut_evolves | apply Evolves.foldl | split | intro _
theorem replayEnd_evolves (h : Evolves r s) : Evolves r (replayEnd s) := by
  unfold replayEnd; (try dsimp only); repeat' with_reducible first
    | assumption | apply Evolves.ite | apply modDec_evolves | apply conclude_evolves | split | intro _
theorem dropActions_evolves (x1 : Work) (h : Evolves r s) : Evolves r (dropActions x1 s) := by
  unfold dropActions; (try dsimp only); repeat' with_reducible first | assumption | apply modPrs_evolves | exact fun h => h
theorem dropLoads_evolves (x1 : Work) (h : Evolves r s) : Evolves r (dropLoads x1 s) := by
  unfold dropLoads; (try dsimp only); repeat' with_reducible first
    | assumption | apply Evolves.ite | apply modPla_evolves | intro _
theorem signOrWait_evolves  (h : Evolves r s) : Evolves r (signOrWait s) := by
  unfold signOrWait; (try dsimp only); repeat' with_reducible first
    | assumption | apply Evolves.ite | apply modDec_evolves | apply issueProof_evolves | apply endOutput_evolves | apply replayEnd_evolves | split
theorem stopSession_evolves (x1 : Nat) (x2 : Status) (x3 : Bool) (h : Evolves r s) : Evolves r (stopSession x1 x2 x3 s) := by
  unfold stopSession; (try dsimp only); repeat' with_reducible first
    | assumption | apply Evolves.ite | apply dropLoads_evolves | apply dropActions_evolves | apply modDec_evolves | apply signOrWait_evolves
    | apply replayEnd_evolves | apply endOutput_evolves | exact Nat.le_refl _ | exact Nat.le_add_right _ _ | split | intro _
theorem quietRing_evolves (h : Evolves r s) : Evolves r (quietRing s) := by
  unfold quietRing; (try dsimp only); repeat' with_reducible first
    | assumption | apply Evolves.ite | split | intro _ | apply set_ports_evolves
theorem leaveSession_evolves (x1 : Status) (h : Evolves r s) : Evolves r (leaveSession x1 s) := by
  unfold leaveSession; (try dsimp only); repeat' with_reducible first
    | assumption | apply Evolves.ite | apply stopSession_evolves | apply quietRing_evolves
theorem decodeFault_evolves (x1 : Status) (h : Evolves r s) : Evolves r (decodeFault x1 s) := by
  unfold decodeFault; (try dsimp only); repeat' with_reducible first
    | assumption | apply Evolves.ite | apply modRing_evolves | apply controlAll_evolves | apply stopSession_evolves | apply leaveSession_evolves
    | split
theorem park_evolves  (h : Evolves r s) : Evolves r (park s) := by
  unfold park; (try dsimp only); repeat' with_reducible first | assumption | apply modDec_evolves
theorem settle_evolves  (h : Evolves r s) : Evolves r (settle s) := by
  unfold settle; (try dsimp only); repeat' with_reducible first
    | assumption | apply Evolves.ite | apply stopSession_evolves | apply park_evolves | split

/-! ## Storage -/

theorem storeRows_evolves (x1 : List (Nat × Bytes)) (h : Evolves r s) : Evolves r (storeRows x1 s) := by
  unfold storeRows; (try dsimp only); repeat' with_reducible first
    | assumption | apply Evolves.ite | apply Evolves.ite_snd | apply memWrite_evolves | apply Evolves.foldl | exact Nat.le_refl _
    | exact Nat.le_add_right _ _ | intro _
theorem countDraft_evolves (h : Evolves r s) : Evolves r (countDraft s) := by
  unfold countDraft; (try dsimp only); repeat' with_reducible first
    | assumption | apply Evolves.ite | apply Evolves.ite_snd | apply countParity_evolves | apply Evolves.foldl | apply Evolves.elim | intro _

/-! ## Decode -/

theorem dropWeights_evolves (h : Evolves r s) : Evolves r (dropWeights s) := by
  unfold dropWeights; dsimp only
  exact release_evolves _ (set_weights_evolves _ (.foldl (fun _ _ ht => setRegion_evolves _ _ _ ht) _ h))
theorem weightsEnd_evolves (x1 : Job) (x2 : ImageEnd) (h : Evolves r s) : Evolves r (weightsEnd x1 x2 s) := by
  unfold weightsEnd; dsimp only
  split
  · exact answer_evolves _ _ (dropWeights_evolves h)
  · exact refuseWith_evolves _ _ _ h
  · exact answer_evolves _ _ h
  · exact finish_evolves _ _ _ (setRegion_evolves _ _ _ (modMpr_evolves _ (hold_evolves _ (set_weights_evolves _
      (placeHbm_evolves _ (dropWeights_evolves h))))))
theorem weightsEarly_evolves (x1 : Job) (x2 : Bytes) (h : Evolves r s) : Evolves r (weightsEarly x1 x2 s).2 := by
  unfold weightsEarly; (try dsimp only); repeat' with_reducible first
    | assumption | apply Evolves.ite | apply Evolves.ite_snd | apply weightsEnd_evolves | split | intro _
theorem weightsLoadData_evolves (x1 : Job) (x2 : Except Status Bytes) (h : Evolves r s) : Evolves r (weightsLoadData x1 x2 s) := by
  unfold weightsLoadData; (try dsimp only); repeat' with_reducible first
    | assumption | apply Evolves.ite | apply answer_evolves | apply dropWeights_evolves | apply denySlot_evolves | apply weightsEnd_evolves
    | apply Evolves.elim | split | intro _
theorem placeStretch_evolves (x1 : Nat) (x2 : Bool) (h : Evolves r s) : ∀ t, placeStretch x1 x2 s = some t → Evolves r t := by
  intro t ht
  unfold placeStretch at ht
  dsimp only at ht
  split at ht
  · cases ht
  · have h1 := fun g => hold_evolves g (placeHbm_eq h (by assumption))
    split at ht
    · cases ht; exact h1 _
    · split at ht
      · cases ht
      · cases ht; exact hold_evolves _ (placeHbm_eq (h1 _) (by assumption))
theorem decodeOpen_evolves (x1 : Job) (h : Evolves r s) : Evolves r (decodeOpen x1 s) := by
  unfold decodeOpen; dsimp only
  repeat' refine .ite (answer_evolves _ _ h) ?_
  split
  · exact answer_evolves _ _ h
  · rename_i t e
    obtain ⟨g, hg, hp⟩ := Option.bind_eq_some_iff.1 e
    have ht := placeStretch_evolves _ _ (grant_evolves _ _ _ _ h g hg) t hp
    refine .ite (waitJob_evolves _ _ h) (finish_evolves _ _ _ ?_)
    have hr := freshHandle_evolves (workHandles (if bit (field x1.payload 4 4) 1 = true then drbgTake 32 t else (slice x1.payload 0x60 32, t)).2)
      (Evolves.ite_snd (c := bit (field x1.payload 4 4) 1 = true) (b := (slice x1.payload 0x60 32, t)) (drbgTake_evolves 32 ht) ht)
    exact .ite (set_dec_evolves _ hr) (controlAll_evolves _ (modRing_evolves _ (set_dec_evolves _ hr)))
theorem startPrefill_evolves  (h : Evolves r s) : Evolves r (startPrefill s) := by
  unfold startPrefill; (try dsimp only); repeat' with_reducible first | assumption | apply modDec_evolves | apply settle_evolves
theorem readyCheck_evolves  (h : Evolves r s) : Evolves r (readyCheck s) := by
  unfold readyCheck; (try dsimp only); repeat' with_reducible first
    | assumption | apply Evolves.ite | apply modDec_evolves | apply startPrefill_evolves | split
theorem dropDraft_evolves (h : Evolves r s) : Evolves r (dropDraft s) := by
  unfold dropDraft; (try dsimp only); repeat' with_reducible first
    | assumption | apply Evolves.ite | apply release_evolves | apply modDec_evolves | apply wipeBanks_evolves | apply Evolves.elim | intro _
theorem storeDraft_evolves (x1 : Bytes) (h : Evolves r s) : Evolves r (storeDraft x1 s) := by
  unfold storeDraft; (try dsimp only); repeat' with_reducible first
    | assumption | apply Evolves.ite | apply Evolves.ite_snd | apply memWrite_evolves | apply Evolves.foldl | intro _
theorem draftEnd_evolves (x1 : Job) (x2 : ImageEnd) (h : Evolves r s) : Evolves r (draftEnd x1 x2 s) := by
  unfold draftEnd; dsimp only
  split
  · exact answer_evolves _ _ (dropDraft_evolves h)
  · exact refuseWith_evolves _ _ _ h
  · exact answer_evolves _ _ h
  · split
    · exact answer_evolves _ _ h
    · exact finish_evolves _ _ _ (readyCheck_evolves (modDec_evolves _ (hold_evolves _ (storeDraft_evolves _
        (placeHbm_eq (dropDraft_evolves h) (by assumption))))))
theorem draftEarly_evolves (x1 : Job) (x2 : Bytes) (h : Evolves r s) : Evolves r (draftEarly x1 x2 s).2 := by
  unfold draftEarly; (try dsimp only); repeat' with_reducible first
    | assumption | apply Evolves.ite | apply Evolves.ite_snd | apply draftEnd_evolves | split | intro _
theorem draftLoadData_evolves (x1 : Job) (x2 : Except Status Bytes) (h : Evolves r s) : Evolves r (draftLoadData x1 x2 s) := by
  unfold draftLoadData; (try dsimp only); repeat' with_reducible first
    | assumption | apply Evolves.ite | apply answer_evolves | apply dropDraft_evolves | apply denySlot_evolves | apply draftEnd_evolves
    | apply Evolves.elim | split | intro _
theorem dropSession_evolves (h : Evolves r s) : Evolves r (dropSession s) := by
  unfold dropSession; (try dsimp only); repeat' with_reducible first
    | assumption | apply Evolves.ite | apply release_evolves | apply modRing_evolves | apply freeWhere_evolves | apply endWork_evolves | split
    | intro _ | apply set_dec_evolves
theorem doneInput_evolves (x1 : FDesc) (x2 : Status) (x3 : Nat) (x4 : Nat) (h : Evolves r s) : Evolves r (doneInput x1 x2 x3 x4 s) := by
  unfold doneInput; (try dsimp only); repeat' with_reducible first | assumption | apply completeDesc_evolves
theorem decodeInputData_evolves (x1 : FDesc) (x2 : Except Status Bytes) (h : Evolves r s) : Evolves r (decodeInputData x1 x2 s) := by
  unfold decodeInputData; (try dsimp only); repeat' with_reducible first
    | assumption | apply Evolves.ite | apply modDec_evolves | apply startPrefill_evolves | apply doneInput_evolves | apply Evolves.elim | split
    | intro _
theorem storeToken_evolves (x1 : Nat) (x2 : Nat) (h : Evolves r s) : Evolves r (storeToken x1 x2 s) := by
  unfold storeToken; (try dsimp only); repeat' with_reducible first
    | assumption | apply Evolves.ite | apply Evolves.ite_snd | apply memWrite_evolves | apply postData_evolves | exact Nat.le_refl _
    | exact Nat.le_add_right _ _ | split
theorem emitTokens_evolves (x1 : Bool) (p : Nat) (l : List Nat) (h : Evolves r s) : Evolves r (emitTokens x1 p l s) := by
  induction l generalizing s p with
  | nil => exact h
  | cons t l ih =>
    unfold emitTokens
    split
    · exact h
    · exact ih _ (.ite (doneOut_evolves _ _ _ _ _ (modDec_evolves _ (storeToken_evolves _ _ h))) (modDec_evolves _ (storeToken_evolves _ _ h)))
theorem streamDone_evolves  (h : Evolves r s) : Evolves r (streamDone s) := by
  unfold streamDone; (try dsimp only); repeat' with_reducible first
    | assumption | apply Evolves.ite | apply modDec_evolves | apply doneOut_evolves | split
theorem addExchange_evolves (x1 : Session) (x2 : PendingStep) (x3 : Nat) (h : Evolves r s) : Evolves r (addExchange x1 x2 x3 s) := by
  unfold addExchange; (try dsimp only); repeat' with_reducible first
    | assumption | apply Evolves.ite | apply Evolves.ite_snd | apply modPrs_evolves | exact Nat.le_refl _ | exact Nat.le_add_right _ _ | split
    | exact fun h => h | intro _
theorem beginStep_evolves (x1 : PendingStep) (x2 : List Nat) (h : Evolves r s) : Evolves r (beginStep x1 x2 s) := by
  unfold beginStep; (try dsimp only); repeat' with_reducible first
    | assumption | apply Evolves.ite | apply modDec_evolves | apply addExchange_evolves | apply invokeKind_evolves | apply Evolves.foldl
    | exact Nat.le_refl _ | exact Nat.le_add_right _ _ | split | intro _
theorem afterChunk_evolves  (h : Evolves r s) : Evolves r (afterChunk s) := by
  unfold afterChunk; (try dsimp only); repeat' with_reducible first
    | assumption | apply Evolves.ite | apply modDec_evolves | apply stopSession_evolves | apply settle_evolves | split
theorem keepDigests_evolves (x1 : Session) (x2 : PendingStep) (h : Evolves r s) : Evolves r (keepDigests s x1 x2) := by
  unfold keepDigests; (try dsimp only); repeat' with_reducible first
    | assumption | apply Evolves.ite | apply dropData_evolves | apply modRing_evolves | intro _
theorem commitPending_evolves (h : Evolves r s) : Evolves r (commitPending s) := by
  unfold commitPending; (try dsimp only); repeat' with_reducible first
    | assumption | apply Evolves.ite | apply decodeFault_evolves | apply modDec_evolves | apply keepDigests_evolves | apply storeRows_evolves
    | apply afterChunk_evolves | apply emitTokens_evolves | apply stopSession_evolves | apply settle_evolves | apply streamDone_evolves | split
    | intro _
theorem evaluateStep_evolves (h : Evolves r s) : Evolves r (evaluateStep s) := by
  unfold evaluateStep; (try dsimp only); repeat' with_reducible first
    | assumption | apply Evolves.ite | apply modDec_evolves | exact Nat.le_refl _ | exact Nat.le_add_right _ _ | split | intro _
theorem prefillNext_evolves (h : Evolves r s) : Evolves r (prefillNext s) := by
  unfold prefillNext; (try dsimp only); repeat' with_reducible first
    | assumption | apply Evolves.ite | apply commitPending_evolves | apply decodeFault_evolves | apply countDraft_evolves | apply beginStep_evolves
    | apply settle_evolves | split
theorem resume_evolves (x1 : Session) (h : Evolves r s) : Evolves r (resume x1 s) := by
  unfold resume; (try dsimp only); repeat' with_reducible first | assumption | apply modDec_evolves
theorem twinReplay_evolves (h : Evolves r s) : Evolves r (twinReplay s) := by
  unfold twinReplay; (try dsimp only); repeat' with_reducible first
    | assumption | apply Evolves.ite | apply stopSession_evolves | apply dropData_evolves | apply dropActions_evolves | apply modDec_evolves | split
    | intro _
theorem verdict_evolves (x1 : Job) (x2 : Nat) (h : Evolves r s) : Evolves r (verdict x1 x2 s) := by
  unfold verdict; (try dsimp only); repeat' with_reducible first | assumption | apply finish_evolves
theorem replayStart_evolves (x1 : Replay) (x2 : List Nat) (x3 : Bytes) (h : Evolves r s) : Evolves r (replayStart x1 x2 x3 s) := by
  unfold replayStart; (try dsimp only); repeat' with_reducible first
    | assumption | apply Evolves.ite | apply dropData_evolves | apply dropActions_evolves | apply modDec_evolves | apply startPrefill_evolves
    | exact Nat.le_refl _ | exact Nat.le_add_right _ _ | intro _
theorem replayRun_evolves (x1 : Job) (x2 : Bytes) (x3 : Bytes) (h : Evolves r s) : Evolves r (replayRun x1 x2 x3 s) := by
  unfold replayRun; (try dsimp only); repeat' with_reducible first
    | assumption | apply Evolves.ite | apply answer_evolves | apply verdict_evolves | apply stopSession_evolves | apply modDec_evolves
    | apply waitJob_evolves | apply replayStart_evolves | apply Evolves.elim | split | intro _
theorem replayFields_evolves (x1 : Job) (x2 : Except Status Bytes) (h : Evolves r s) : Evolves r (replayFields x1 x2 s) := by
  unfold replayFields; (try dsimp only); repeat' with_reducible first | assumption | apply answer_evolves | apply replayRun_evolves | split
theorem replayTokens_evolves (x1 : Job) (x2 : Except Status Bytes) (h : Evolves r s) : Evolves r (replayTokens x1 x2 s) := by
  unfold replayTokens; (try dsimp only); repeat' with_reducible first
    | assumption | apply Evolves.ite | apply Evolves.ite_snd | apply answer_evolves | apply modJob_evolves | apply waitJob_evolves
    | apply hostReadReq_evolves | apply replayFields_evolves | apply devRead_evolves | apply replayFields_evolves | split | intro _

/-! ## Copy -/

theorem copyStretches_evolves (x1 : Nat) (x2 : List Nat) (h : Evolves r s) : Evolves r (copyStretches x1 x2 s) := by
  unfold copyStretches; (try dsimp only); repeat' with_reducible first
    | assumption | apply Evolves.ite | apply decodeFault_evolves | apply emit_evolves | apply sendPieces_evolves | apply Evolves.foldl
    | exact Nat.le_refl _ | exact Nat.le_add_right _ _ | split | intro _
theorem copySessionTo_evolves (x1 : Nat) (h : Evolves r s) : Evolves r (copySessionTo x1 s) := by
  unfold copySessionTo; (try dsimp only); repeat' with_reducible first
    | assumption | apply Evolves.ite | apply Evolves.ite_snd | apply sendPieces_evolves | apply Evolves.foldl | exact Nat.le_refl _
    | exact Nat.le_add_right _ _ | split | intro _
theorem joinSession_evolves (x1 : Bytes) (h : Evolves r s) : Evolves r (joinSession x1 s) := by
  unfold joinSession; (try dsimp only); repeat' with_reducible first
    | assumption | apply Evolves.ite | apply modRing_evolves | apply modDec_evolves | apply Evolves.foldl | exact Nat.le_refl _
    | exact Nat.le_add_right _ _ | split | intro _
theorem takeCopy_evolves (x1 : DatumName) (x2 : Bytes × Bool) (h : Evolves r s) : Evolves r (takeCopy x1 x2 s) := by
  unfold takeCopy; (try dsimp only); repeat' with_reducible first
    | assumption | apply Evolves.ite | apply Evolves.ite_snd | apply decodeFault_evolves | apply joinSession_evolves | apply markPoison_evolves
    | apply storeRows_evolves | apply Evolves.foldl | split | intro _

/-! ## Ring -/

theorem ringBringUp_evolves (x1 : Nat) (x2 : Nat) (h : Evolves r s) : Evolves r (ringBringUp x1 x2 s) := by
  unfold ringBringUp; (try dsimp only); repeat' with_reducible first | assumption | apply modPort_evolves
theorem beginForm_evolves (x1 : Job) (x2 : Bool) (h : Evolves r s) : Evolves r (beginForm x1 x2 s) :=
  .ite (answer_evolves _ _ h) (.ite (answer_evolves _ _ h)
    (waitJob_evolves _ _ (.foldl (fun _ _ ht => ringBringUp_evolves _ _ ht) _ (set_ring_evolves _ h))))
theorem formFails_evolves (x1 : Status) (h : Evolves r s) : Evolves r (formFails x1 s) := by
  unfold formFails; (try dsimp only); repeat' with_reducible first
    | assumption | apply Evolves.ite | apply Evolves.ite_snd | apply releasePort_evolves | apply conclude_evolves | apply Evolves.foldl | split
    | intro _ | apply set_ring_evolves
theorem formCheck_evolves (h : Evolves r s) : Evolves r (formCheck s) := by
  unfold formCheck; (try dsimp only); repeat' with_reducible first
    | assumption | apply Evolves.ite | apply Evolves.ite_snd | apply formFails_evolves | apply modRing_evolves | apply conclude_evolves | split
    | intro _
theorem handshakeFails_evolves (x1 : Nat) (x2 : Nat) (h : Evolves r s) : Evolves r (handshakeFails x1 x2 s) := by
  unfold handshakeFails; (try dsimp only); repeat' with_reducible first
    | assumption | apply Evolves.ite | apply modPort_evolves | apply linkGoesDown_evolves | apply formCheck_evolves
theorem handshakeDone_evolves (x1 : Nat) (x2 : Ring) (x3 : Handshake) (x4 : Bytes) (x5 : Bytes) (x6 : Nat) (x7 : Nat) (h : Evolves r s) : Evolves r
    (handshakeDone x1 x2 x3 x4 x5 x6 x7 s) := by
  unfold handshakeDone; (try dsimp only); repeat' with_reducible first
    | assumption | apply Evolves.ite | apply modPort_evolves | apply installKeys_evolves | apply holdKeys_evolves | apply pumpAll_evolves
    | apply formCheck_evolves
theorem answerHandshake_evolves (x1 : Nat) (x2 : Handshake) (h : Evolves r s) : Evolves r (answerHandshake x1 x2 s) := by
  unfold answerHandshake; (try dsimp only); repeat' with_reducible first
    | assumption | apply Evolves.ite | apply Evolves.ite_snd | apply startHandshake_evolves | apply handshakeFails_evolves | apply modPort_evolves
    | apply drbgTake_evolves | apply hsSign_evolves | apply emit_evolves | apply handshakeDone_evolves | exact Nat.le_refl _
    | exact Nat.le_add_right _ _ | split | intro _
theorem goOnHandshake_evolves (x1 : Nat) (h : Evolves r s) : Evolves r (goOnHandshake x1 s) := by
  unfold goOnHandshake; (try dsimp only); repeat' with_reducible first
    | assumption | apply Evolves.ite | apply answerHandshake_evolves | apply startHandshake_evolves | exact Nat.le_refl _
    | exact Nat.le_add_right _ _ | split
theorem switchKey_evolves (x1 : Nat) (x2 : Nat) (h : Evolves r s) : Evolves r (switchKey x1 x2 s) := by
  unfold switchKey; (try dsimp only); repeat' with_reducible first
    | assumption | apply modPort_evolves | apply fillSlot_evolves | apply clearSlots_evolves | split
theorem resendAll_evolves (x1 : Nat) (h : Evolves r s) : Evolves r (resendAll x1 s) := by
  unfold resendAll; (try dsimp only); repeat' with_reducible first
    | assumption | apply Evolves.ite | apply emitFrame_evolves | apply modPort_evolves | apply linkGoesDown_evolves | apply Evolves.foldl
    | exact Nat.le_refl _ | exact Nat.le_add_right _ _ | intro _ | apply set_draw_evolves
theorem storeFragment_evolves (x1 : Nat) (x2 : RingFrame) (h : Evolves r s) : Evolves r (storeFragment x1 x2 s) := by
  unfold storeFragment; (try dsimp only); repeat' with_reducible first
    | assumption | apply Evolves.ite | apply Evolves.ite_snd | apply modBuf_evolves | apply shareSignal_evolves | apply poolFail_evolves
    | apply takeCopy_evolves | apply freeWhere_evolves | apply modPrs_evolves | exact Nat.le_refl _ | exact Nat.le_add_right _ _ | exact fun h => h
    | intro _
theorem forwardFrame_evolves (x1 : Nat) (x2 : RingFrame) (x3 : Ring) (h : Evolves r s) : Evolves r (forwardFrame x1 x2 x3 s) := by
  unfold forwardFrame; (try dsimp only); repeat' with_reducible first
    | assumption | apply Evolves.ite | apply modPort_evolves | apply pumpAll_evolves | split
theorem nak_evolves (x1 : Nat) (h : Evolves r s) : Evolves r (nak x1 s) := by
  unfold nak; (try dsimp only); repeat' with_reducible first | assumption | apply modPort_evolves
theorem switchReceive_evolves (x1 : Nat) (h : Evolves r s) : Evolves r (switchReceive x1 s) := by
  unfold switchReceive; (try dsimp only); repeat' with_reducible first
    | assumption | apply Evolves.ite | apply modPort_evolves | apply switchKey_evolves
theorem acceptFrame_evolves (x1 : Nat) (x2 : RingFrame) (x3 : Ring) (h : Evolves r s) : Evolves r (acceptFrame x1 x2 x3 s) := by
  unfold acceptFrame; (try dsimp only); repeat' with_reducible first
    | assumption | apply Evolves.ite | apply modPort_evolves | apply storeFragment_evolves | apply forwardFrame_evolves
theorem overrunShare_evolves (x1 : Nat) (h : Evolves r s) : Evolves r (overrunShare x1 s) := by
  unfold overrunShare; (try dsimp only); repeat' with_reducible first
    | assumption | apply Evolves.ite | apply nak_evolves | apply modBuf_evolves | exact Nat.le_refl _ | exact Nat.le_add_right _ _ | intro _
theorem receiveLimit_evolves (x1 : Nat) (h : Evolves r s) : Evolves r (receiveLimit x1 s) := by
  unfold receiveLimit; (try dsimp only); repeat' with_reducible first
    | assumption | apply Evolves.ite | apply startHandshake_evolves | exact Nat.le_refl _ | exact Nat.le_add_right _ _

/-! ## Recovery -/

theorem placeMirror_evolves (x1 : Ring) (ks : List Nat) {t : State} (h : Evolves r s) (e : placeMirror x1 ks s = some t) : Evolves r t := by
  induction ks generalizing s with
  | nil => exact (Option.some.inj e) ▸ h
  | cons k ks ih =>
    unfold placeMirror at e
    split at e
    · exact ih h e
    · split at e
      · exact ih (hold_evolves _ (placeHbm_eq h (by assumption))) e
      · cases e
theorem rebuildOne_evolves (x1 : HeldRun) (h : Evolves r s) : Evolves r (rebuildOne x1 s) := by
  have tail : ∀ (c : Prop) [Decidable c] (t : Nat) (ks : List Nat) (u : State), Evolves r u → Evolves r (if c then copyStretches t ks u else u) :=
    fun _ _ _ _ _ hu => .ite (copyStretches_evolves _ _ hu) hu
  unfold rebuildOne
  split
  · exact h
  · dsimp only
    refine .ite h (tail _ _ _ _ (.ite ?_ (modRing_evolves _ h)))
    split
    · exact modRing_evolves _ (placeMirror_evolves _ _ h (by assumption))
    · exact postEvent_evolves _ _ _ _ (modRing_evolves _ h)
theorem dropMirrors_evolves  (h : Evolves r s) : Evolves r (dropMirrors s) := by
  unfold dropMirrors; (try dsimp only); repeat' with_reducible first | assumption | apply modRing_evolves | apply release_evolves | split
theorem rebuildMirrors_evolves (h : Evolves r s) : Evolves r (rebuildMirrors s) := by
  unfold rebuildMirrors; (try dsimp only); repeat' with_reducible first
    | assumption | apply Evolves.ite | apply rebuildOne_evolves | apply Evolves.foldl | split | intro _
theorem promoteStorage_evolves (x1 : List Nat) (x2 : List Nat) (x3 : Ring) (h : Evolves r s) : Evolves r (promoteStorage x1 x2 x3 s) := by
  unfold promoteStorage; (try dsimp only); repeat' with_reducible first
    | assumption | apply Evolves.ite | apply modMem_evolves | exact fun h => h | split
theorem leaveRing_evolves (x1 : Status) (h : Evolves r s) : Evolves r (leaveRing x1 s) := by
  unfold leaveRing; (try dsimp only); repeat' with_reducible first | assumption | apply modRing_evolves | apply leaveSession_evolves
theorem parkForView_evolves  (h : Evolves r s) : Evolves r (parkForView s) := by
  unfold parkForView; (try dsimp only); repeat' with_reducible first
    | assumption | apply Evolves.ite | apply modDec_evolves | apply dropActions_evolves | split
theorem sendView_evolves  (h : Evolves r s) : Evolves r (sendView s) := by
  unfold sendView; (try dsimp only); repeat' with_reducible first
    | assumption | apply Evolves.ite | apply sendControl_evolves | apply Evolves.foldl | split | intro _
theorem dropAttempt_evolves (h : Evolves r s) : Evolves r (dropAttempt s) := by
  unfold dropAttempt; (try dsimp only); repeat' with_reducible first
    | assumption | apply Evolves.ite | apply dropActions_evolves | apply modDec_evolves | apply freeWhere_evolves | apply dropData_evolves | split
    | intro _
theorem catchUp_evolves (x1 : List ViewFrame) (h : Evolves r s) : Evolves r (catchUp x1 s) := by
  unfold catchUp; (try dsimp only); repeat' with_reducible first
    | assumption | apply Evolves.ite | apply Evolves.ite_snd | apply modRing_evolves | apply commitPending_evolves | apply modDec_evolves
    | apply leaveRing_evolves | split | intro _
theorem logFailures_evolves (x1 x2 : List Nat) (h : Evolves r s) : Evolves r (logFailures x1 x2 s) := by
  unfold logFailures
  split
  · exact h
  · exact modDec_evolves _ (set_draw_evolves _ h (Nat.le_succ _))
theorem resendCopies_evolves (h : Evolves r s) : Evolves r (resendCopies s) := by
  unfold resendCopies; (try dsimp only); repeat' with_reducible first
    | assumption | apply Evolves.ite | apply copyStretches_evolves | apply copySessionTo_evolves | apply Evolves.foldl | split | intro _
theorem installView_evolves (x1 : Ring) (h : Evolves r s) : Evolves r (installView x1 s) := by
  unfold installView; (try dsimp only); repeat' with_reducible first
    | assumption | apply Evolves.ite | apply leaveRing_evolves | apply promoteStorage_evolves | apply modRing_evolves | apply catchUp_evolves
    | apply resume_evolves | apply settle_evolves | apply rebuildMirrors_evolves | apply resendCopies_evolves | apply dropMirrors_evolves
    | apply dropAttempt_evolves | apply logFailures_evolves | split | intro _
theorem installJoin_evolves (x1 : Ring) (h : Evolves r s) : Evolves r (installJoin x1 s) := by
  unfold installJoin; (try dsimp only); repeat' with_reducible first
    | assumption | apply Evolves.ite | apply modRing_evolves | apply resendCopies_evolves | intro _
theorem installHandover_evolves (x1 : Ring) (x2 : Nat) (h : Evolves r s) : Evolves r (installHandover x1 x2 s) := by
  unfold installHandover; (try dsimp only); repeat' with_reducible first
    | assumption | apply Evolves.ite | apply modDec_evolves | apply modRing_evolves | apply modMem_evolves | apply release_evolves
    | apply resendCopies_evolves | exact Nat.le_refl _ | exact Nat.le_add_right _ _ | split | exact fun h => h | intro _ | apply set_draw_evolves
theorem tryJoin_evolves (h : Evolves r s) : Evolves r (tryJoin s) := by
  unfold tryJoin; (try dsimp only); repeat' with_reducible first
    | assumption | apply Evolves.ite | apply installJoin_evolves | apply installHandover_evolves | apply Evolves.elim | split | intro _
theorem spareAnswer_evolves (h : Evolves r s) : Evolves r (spareAnswer s) := by
  unfold spareAnswer; (try dsimp only); repeat' with_reducible first
    | assumption | apply Evolves.ite | apply tryJoin_evolves | apply sendView_evolves | apply modRing_evolves | split | intro _
theorem tryInstall_evolves  (h : Evolves r s) : Evolves r (tryInstall s) := by
  unfold tryInstall; (try dsimp only); repeat' with_reducible first
    | assumption | apply Evolves.ite | apply installView_evolves | apply tryJoin_evolves | split
theorem proposeView_evolves (x1 : BitVec 32) (h : Evolves r s) : Evolves r (proposeView x1 s) := by
  unfold proposeView; (try dsimp only); repeat' with_reducible first
    | assumption | apply modRing_evolves | apply parkForView_evolves | apply sendView_evolves | apply tryInstall_evolves
theorem declareFailed_evolves (x1 : List Nat) (x2 : Status) (h : Evolves r s) : Evolves r (declareFailed x1 x2 s) := by
  unfold declareFailed; (try dsimp only); repeat' with_reducible first
    | assumption | apply Evolves.ite | apply leaveRing_evolves | apply proposeView_evolves | apply Evolves.foldl | split | intro _
theorem loseLink_evolves (x1 : Nat) (h : Evolves r s) : Evolves r (loseLink x1 s) := by
  unfold loseLink; (try dsimp only); repeat' with_reducible first
    | assumption | apply Evolves.ite | apply modRing_evolves | apply proposeView_evolves | exact Nat.le_refl _ | exact Nat.le_add_right _ _ | split
    | intro _
theorem suspect_evolves (x1 : Nat) (x2 : Nat) (x3 : Option Nat) (h : Evolves r s) : Evolves r (suspect x1 x2 x3 s) := by
  unfold suspect; (try dsimp only); repeat' with_reducible first
    | assumption | apply Evolves.ite | apply Evolves.ite_snd | apply modRing_evolves | apply declareFailed_evolves | apply loseLink_evolves
    | exact Nat.le_refl _ | exact Nat.le_add_right _ _ | split | intro _
theorem releaseReplaced_evolves (x1 : Nat) (h : Evolves r s) : Evolves r (releaseReplaced x1 s) := by
  unfold releaseReplaced; (try dsimp only); repeat' with_reducible first
    | assumption | apply Evolves.ite | apply modRing_evolves | exact Nat.le_refl _ | exact Nat.le_add_right _ _ | split | intro _

/-! ## Ports -/

theorem applySetting_evolves (x1 : Nat) (x2 : Nat) (x3 : Bool) (h : Evolves r s) : Evolves r (applySetting x1 x2 x3 s) := by
  unfold applySetting; (try dsimp only); repeat' with_reducible first
    | assumption | apply Evolves.ite | apply modPort_evolves | apply linkGoesDown_evolves
theorem signalAt_evolves (x1 : Nat) (x2 : Nat) (h : Evolves r s) : Evolves r (signalAt x1 x2 s) := by
  unfold signalAt; (try dsimp only); repeat' with_reducible first
    | assumption | apply Evolves.ite | apply emit_evolves | apply modBuf_evolves | apply modPort_evolves | exact Nat.le_refl _
    | exact Nat.le_add_right _ _ | split | intro _
theorem channelSignal_evolves (x1 : Nat) (h : Evolves r s) : Evolves r (channelSignal x1 s) := by
  unfold channelSignal; (try dsimp only); repeat' with_reducible first
    | assumption | apply Evolves.ite | apply signalAt_evolves | apply Evolves.elim | exact Nat.le_refl _ | exact Nat.le_add_right _ _
theorem rewindPacket_evolves (x1 : Nat) (x2 : Nat) (x3 : Nat) (h : Evolves r s) : Evolves r (rewindPacket x1 x2 x3 s) := by
  unfold rewindPacket; (try dsimp only); repeat' with_reducible first
    | assumption | apply Evolves.ite | apply channelSignal_evolves | apply signalAt_evolves | apply modBuf_evolves | exact Nat.le_refl _
    | exact Nat.le_add_right _ _ | split | intro _
theorem storePacket_evolves (x1 : Nat) (x2 : Nat) (x3 : Nat) (x4 : Bool) (h : Evolves r s) : Evolves r (storePacket x1 x2 x3 x4 s) := by
  unfold storePacket; (try dsimp only); repeat' with_reducible first
    | assumption | apply Evolves.ite | apply rewindPacket_evolves | apply channelSignal_evolves | apply modBuf_evolves | exact Nat.le_refl _
    | exact Nat.le_add_right _ _ | split | intro _
theorem dropPacketAt_evolves (x1 : Nat) (x2 : Nat) (x3 : Nat) (h : Evolves r s) : Evolves r (dropPacketAt x1 x2 x3 s) := by
  unfold dropPacketAt; (try dsimp only); repeat' with_reducible first
    | assumption | apply Evolves.ite | apply channelSignal_evolves | apply modBuf_evolves | exact Nat.le_refl _ | exact Nat.le_add_right _ _
    | intro _
theorem drainPacket_evolves (x1 : Nat) (x2 : Nat) (h : Evolves r s) : Evolves r (drainPacket x1 x2 s) := by
  unfold drainPacket; (try dsimp only); repeat' with_reducible first | assumption | apply modBuf_evolves | apply channelSignal_evolves
theorem takeFrame_evolves (x1 : Nat) (x2 : NetFrame) (x3 : Nat) (x4 : Nat) (h : Evolves r s) : Evolves r (takeFrame x1 x2 x3 x4 s) := by
  unfold takeFrame; (try dsimp only); repeat' with_reducible first
    | assumption | apply Evolves.ite | apply modPort_evolves | apply storePacket_evolves | exact Nat.le_refl _ | exact Nat.le_add_right _ _ | split
    | intro _

/-! ## Rdm -/

theorem modConn_evolves (x1 : Nat) (x2 : Conn → Conn) (h : Evolves r s) : Evolves r (modConn x1 x2 s) := by
  unfold modConn; (try dsimp only); repeat' with_reducible first | assumption | apply modRdm_evolves
theorem roceSend_evolves (x1 : Conn) (x2 : List RoceOut) (h : Evolves r s) : Evolves r (roceSend x1 x2 s) := by
  unfold roceSend; (try dsimp only); repeat' with_reducible first | assumption | apply netSend_evolves
theorem raiseTrigger_evolves (x1 : Nat) (x2 : Nat) (h : Evolves r s) : Evolves r (raiseTrigger x1 x2 s) := by
  unfold raiseTrigger; (try dsimp only); repeat' with_reducible first | assumption | apply modRdm_evolves
theorem rdmFail_evolves (x1 : FDesc) (x2 : Status) (h : Evolves r s) : Evolves r (rdmFail x1 x2 s) := by
  unfold rdmFail; (try dsimp only); repeat' with_reducible first | assumption | apply completeDesc_evolves
theorem cutDesc_evolves (x1 : FDesc) (x2 : Status) (x3 : Nat) (h : Evolves r s) : Evolves r (cutDesc x1 x2 x3 s) := by
  unfold cutDesc; (try dsimp only); repeat' with_reducible first
    | assumption | apply Evolves.ite | apply completeDesc_evolves | exact Nat.le_refl _ | exact Nat.le_add_right _ _
theorem flushDesc_evolves (x1 : FDesc) (x2 : Nat) (h : Evolves r s) : Evolves r (flushDesc x1 x2 s) := by
  unfold flushDesc; (try dsimp only); repeat' with_reducible first
    | assumption | apply Evolves.ite | apply cutDesc_evolves | apply modRdm_evolves | exact Nat.le_refl _ | exact Nat.le_add_right _ _ | intro _
theorem countPoison_evolves  (h : Evolves r s) : Evolves r (countPoison s) := by
  unfold countPoison; (try dsimp only); repeat' with_reducible first | assumption | apply modRdm_evolves
theorem flushConn_evolves (x1 : Nat) (h : Evolves r s) : Evolves r (flushConn x1 s) := by
  unfold flushConn; (try dsimp only); repeat' with_reducible first
    | assumption | apply Evolves.ite | apply dropReads_evolves | apply flushDesc_evolves | apply Evolves.foldl | exact Nat.le_refl _
    | exact Nat.le_add_right _ _ | split | intro _
theorem dropWaiting_evolves (x1 : Nat) (h : Evolves r s) : Evolves r (dropWaiting x1 s) := by
  have hf : ∀ (p q : Nat) (l : List Nat) t, Evolves r t → Evolves r (l.foldr (fun i st => dropPacketAt p q i st) t) := by
    intro p q l t ht
    induction l with
    | nil => exact ht
    | cons i l ih => exact dropPacketAt_evolves _ _ _ ih
  unfold dropWaiting; dsimp only
  split
  · exact h
  · exact .foldl (fun _ _ ht => hf _ _ _ _ ht) _ (netDrop_evolves _ _ (modRdm_evolves _ h))
theorem abandonMessages_evolves (x1 : Nat) (h : Evolves r s) : Evolves r (abandonMessages x1 s) := by
  unfold abandonMessages; (try dsimp only); repeat' with_reducible first
    | assumption | apply modPtn_evolves | apply modConn_evolves | apply dropWaiting_evolves
theorem connError_evolves (x1 : Nat) (x2 : Status) (h : Evolves r s) : Evolves r (connError x1 x2 s) := by
  unfold connError; (try dsimp only); repeat' with_reducible first
    | assumption | apply Evolves.ite | apply postEvent_evolves | apply modConn_evolves | apply flushConn_evolves | apply abandonMessages_evolves
    | split
theorem growSpill_evolves (x1 : Nat) (h : Evolves r s) : ∀ t, growSpill x1 s = some t → Evolves r t := by
  intro t ht
  unfold growSpill at ht
  split at ht
  · cases ht; exact h
  · split at ht
    · cases ht; exact modRdm_evolves _ (hold_evolves _ (placeHbm_eq h (by assumption)))
    · cases ht
theorem evictContext_evolves  (h : Evolves r s) : Evolves r (evictContext s) := by
  unfold evictContext; (try dsimp only); repeat' with_reducible first
    | assumption | apply Evolves.ite | apply modConn_evolves | apply Evolves.foldl | split | intro _
theorem touch_evolves (x1 : Nat) (h : Evolves r s) : Evolves r (touch x1 s) := by
  unfold touch; (try dsimp only); repeat' with_reducible first | assumption | apply modRdm_evolves | apply modConn_evolves
theorem freshQpn_evolves  (h : Evolves r s) : Evolves r (freshQpn s).2 := by
  unfold freshQpn; (try dsimp only); repeat' with_reducible first
    | assumption | apply Evolves.ite | apply Evolves.ite_snd | apply set_draw_evolves | exact Nat.le_add_right _ _ | split
theorem closeConn_evolves (x1 : Nat) (h : Evolves r s) : Evolves r (closeConn x1 s) := by
  unfold closeConn; (try dsimp only); repeat' with_reducible first
    | assumption | apply Evolves.ite | apply modRdm_evolves | apply release_evolves | apply flushConn_evolves | apply abandonMessages_evolves | split
theorem transmit_evolves (x1 : FDesc) (x2 : Bytes) (h : Evolves r s) : Evolves r (transmit x1 x2 s) := by
  unfold transmit; (try dsimp only); repeat' with_reducible first
    | assumption | apply Evolves.ite | apply modConn_evolves | apply roceSend_evolves | split
theorem rdmSourceData_evolves (x1 : Nat) (x2 : Except Status Bytes) (h : Evolves r s) : Evolves r (rdmSourceData x1 x2 s) := by
  unfold rdmSourceData; (try dsimp only); repeat' with_reducible first
    | assumption | apply rdmFail_evolves | apply countPoison_evolves | apply transmit_evolves | split
theorem fireRequest_evolves (x1 : List MemFail) (x2 : FDesc) (h : Evolves r s) : Evolves r (fireRequest x1 x2 s) := by
  unfold fireRequest; (try dsimp only); repeat' with_reducible first
    | assumption | apply Evolves.ite | apply Evolves.ite_snd | apply touch_evolves | apply takeDesc_evolves | apply transmit_evolves
    | apply hostReadReq_evolves | apply checkedRead_evolves | apply rdmSourceData_evolves | split
theorem runRequest_evolves (x1 : List MemFail) (x2 : FDesc) (h : Evolves r s) : Evolves r (runRequest x1 x2 s) := by
  unfold runRequest; (try dsimp only); repeat' with_reducible first
    | assumption | apply Evolves.ite | apply rdmFail_evolves | apply flushDesc_evolves | apply fireRequest_evolves
theorem onRequest_evolves (x1 : DescReads) (x2 : FDesc → Bool) (h : Evolves r s) : Evolves r (onRequest x1 s x2) := by
  unfold onRequest; (try dsimp only); repeat' with_reducible first
    | assumption | apply Evolves.ite | apply runRequest_evolves | split
theorem completeOut_evolves (x1 : Nat) (x2 : Outgoing) (x3 : Nat) (h : Evolves r s) : Evolves r (completeOut x1 x2 x3 s) := by
  unfold completeOut; (try dsimp only); repeat' with_reducible first
    | assumption | apply Evolves.ite | apply completeDesc_evolves | apply modConn_evolves | apply raiseTrigger_evolves | split
theorem ackThrough_evolves (x1 : Nat) (x2 : Nat) (x3 : Bool) (h : Evolves r s) : Evolves r (ackThrough x1 x2 x3 s) := by
  unfold ackThrough; (try dsimp only); repeat' with_reducible first
    | assumption | apply Evolves.ite | apply completeOut_evolves | apply modConn_evolves | apply Evolves.foldl | exact Nat.le_refl _
    | exact Nat.le_add_right _ _ | split | intro _
theorem resendFrom_evolves (x1 : Nat) (x2 : Nat) (h : Evolves r s) : Evolves r (resendFrom x1 x2 s) := by
  unfold resendFrom; (try dsimp only); repeat' with_reducible first | assumption | apply modRdm_evolves | apply roceSend_evolves | split
theorem giveUp_evolves (x1 : Nat) (x2 : Outgoing) (h : Evolves r s) : Evolves r (giveUp x1 x2 s) := by
  unfold giveUp; (try dsimp only); repeat' with_reducible first
    | assumption | apply Evolves.ite | apply connError_evolves | apply modRdm_evolves | apply completeOut_evolves | exact Nat.le_refl _
    | exact Nat.le_add_right _ _ | intro _
theorem takeAck_evolves (x1 : Nat) (x2 : Nat) (x3 : Option Nat) (h : Evolves r s) : Evolves r (takeAck x1 x2 x3 s) := by
  unfold takeAck; (try dsimp only); repeat' with_reducible first
    | assumption | apply Evolves.ite | apply ackThrough_evolves | apply completeOut_evolves | apply modConn_evolves | exact Nat.le_refl _
    | exact Nat.le_add_right _ _ | split | intro _
theorem placeLocal_evolves (x1 : FDesc) (x2 : Nat) (x3 : Bytes) (h : Evolves r s) : Evolves r (placeLocal x1 x2 x3 s).2 := by
  unfold placeLocal; (try dsimp only); repeat' with_reducible first
    | assumption | apply Evolves.ite | apply Evolves.ite_snd | apply postData_evolves | apply memWrite_evolves | exact Nat.le_refl _
    | exact Nat.le_add_right _ _ | split
theorem takeReadResponse_evolves (x1 : Nat) (x2 : Nat) (x3 : PoolData) (x4 : Bool) (h : Evolves r s) : Evolves r (takeReadResponse x1 x2 x3 x4 s)
    := by
  unfold takeReadResponse; (try dsimp only); repeat' with_reducible first
    | assumption | apply Evolves.ite | apply Evolves.ite_snd | apply ackThrough_evolves | apply poolFail_evolves | apply placeLocal_evolves
    | apply countPoison_evolves | apply markPoison_evolves | apply modConn_evolves | apply completeOut_evolves | exact Nat.le_refl _
    | exact Nat.le_add_right _ _ | split | intro _
theorem takeNak_evolves (x1 : Nat) (x2 : Nat) (x3 : NakKind) (h : Evolves r s) : Evolves r (takeNak x1 x2 x3 s) := by
  unfold takeNak; (try dsimp only); repeat' with_reducible first
    | assumption | apply Evolves.ite | apply ackThrough_evolves | apply connError_evolves | apply completeOut_evolves | exact Nat.le_refl _
    | exact Nat.le_add_right _ _ | split | intro _
theorem takeSeqNak_evolves (x1 : Nat) (x2 : Nat) (h : Evolves r s) : Evolves r (takeSeqNak x1 x2 s) := by
  unfold takeSeqNak; (try dsimp only); repeat' with_reducible first
    | assumption | apply Evolves.ite | apply resendFrom_evolves | apply ackThrough_evolves | exact Nat.le_refl _ | exact Nat.le_add_right _ _
    | split
theorem takeRnrNak_evolves (x1 : Nat) (x2 : Nat) (h : Evolves r s) : Evolves r (takeRnrNak x1 x2 s) := by
  unfold takeRnrNak; (try dsimp only); repeat' with_reducible first
    | assumption | apply Evolves.ite | apply modRdm_evolves | apply ackThrough_evolves | apply giveUp_evolves | apply modConn_evolves
    | exact Nat.le_refl _ | exact Nat.le_add_right _ _ | split | intro _
theorem takeCnp_evolves (x1 : Nat) (h : Evolves r s) : Evolves r (takeCnp x1 s) := by
  unfold takeCnp; (try dsimp only); repeat' with_reducible first | assumption | apply Evolves.ite | apply modRdm_evolves | apply modConn_evolves

/-! ## Press -/

theorem consume_evolves (x1 : Action) (x2 : DatumName) (h : Evolves r s) : Evolves r (consume x1 s x2) := by
  unfold consume; (try dsimp only); repeat' with_reducible first
    | assumption | apply Evolves.ite | apply dropData_evolves | apply modPrs_evolves | split | exact fun h => h | intro _
theorem actionReads_evolves (x1 : List MemFail) (x2 : Action) (l : List MemRef) (h : Evolves r s) : Evolves r (actionReads x1 x2 l s).2.2 := by
  induction l generalizing s with
  | nil => exact h
  | cons m l ih =>
    unfold actionReads
    split
    · exact ih h
    · exact ih (checkedRead_evolves _ _ _ h)
theorem readPoison_evolves (x1 : Action) (h : Evolves r s) : Evolves r (readPoison x1 s) := by
  unfold readPoison; (try dsimp only); repeat' with_reducible first
    | assumption | apply Evolves.ite | apply decodeFault_evolves | apply modHev_evolves | split | intro _
theorem noteExchange_evolves (x1 : Action) (x2 : List (DatumName × Bytes)) (h : Evolves r s) : Evolves r (noteExchange x1 x2 s) := by
  unfold noteExchange; (try dsimp only); repeat' with_reducible first
    | assumption | apply Evolves.ite | apply modDec_evolves | intro _
theorem endAllWork_evolves  (h : Evolves r s) : Evolves r (endAllWork s) := by
  unfold endAllWork; (try dsimp only); repeat' with_reducible first
    | assumption | apply faultCtx_evolves | apply abortRounds_evolves | apply decodeFault_evolves | apply engineFault_evolves | apply Evolves.foldl
    | intro _
theorem engineFault_evolves  (h : Evolves r s) : Evolves r (engineFault s) := by
  unfold engineFault; (try dsimp only); repeat' with_reducible first | assumption | apply controlAll_evolves | apply endAllWork_evolves | split
-- SKIP publish : a@Sys2Proof.Machine.Action@e;r@Bool × Sys2Proof.Machine.State@e;o@Sys2Proof.DatumName × Nat@e
theorem evaluateFor_evolves (x1 : Action) (h : Evolves r s) : Evolves r (evaluateFor x1 s) := by
  unfold evaluateFor; (try dsimp only); repeat' with_reducible first
    | assumption | apply Evolves.ite | apply evaluateStep_evolves
theorem leaveInGraver_evolves (x1 : Action) (x2 : Worked) (h : Evolves r s) : Evolves r (leaveInGraver x1 x2 s) := by
  unfold leaveInGraver; dsimp only
  exact .ite (.foldl (fun _ _ ht => .ite (memWrite_evolves _ _ ht) ht) _ (modPla_evolves _ h)) h
theorem dropChecks_evolves (h : Evolves r s) : Evolves r (dropChecks s) := by
  unfold dropChecks; (try dsimp only); repeat' with_reducible first
    | assumption | apply Evolves.ite | apply modPrs_evolves | exact fun h => h | intro _
theorem twinMismatch_evolves (x1 : Work) (h : Evolves r s) : Evolves r (twinMismatch s x1) := by
  unfold twinMismatch; (try dsimp only); repeat' with_reducible first
    | assumption | apply Evolves.ite | apply modPrs_evolves | apply twinReplay_evolves | apply countMismatch_evolves | apply rerunMidway_evolves
    | apply Evolves.foldl | split | exact fun h => h | intro _
theorem applyShadows_evolves  (h : Evolves r s) : Evolves r (applyShadows s) := by
  unfold applyShadows; (try dsimp only); repeat' with_reducible first
    | assumption | apply Evolves.ite | apply modClk_evolves | apply modPrs_evolves | apply applyDivisors_evolves | exact fun h => h
theorem burnishTurn_turn (x1 : HOp) (l : List (Nat × Nat)) (h : Evolves r s) : Evolves r (burnishTurn.turn x1 l s) := by
  induction l generalizing s with
  | nil => unfold burnishTurn.turn; (try dsimp only); exact modHev_evolves _ h
  | cons p l ih =>
    obtain ⟨a, b⟩ := p
    unfold burnishTurn.turn
    refine .ite (modHev_evolves _ h) (.ite (ih h) ?_)
    split
    · exact ih (invokePlate_evolves _ _ _ _ h)
    · exact modHev_evolves _ h
theorem burnishTurn_evolves (x1 : HOp) (h : Evolves r s) : Evolves r (burnishTurn s x1) := burnishTurn_turn _ _ h
theorem beginStroke_evolves (h : Evolves r s) : Evolves r (beginStroke s) := by
  unfold beginStroke; (try dsimp only); repeat' with_reducible first
    | assumption | apply Evolves.ite | apply applySwaps_evolves | apply applyShadows_evolves | apply latchSnapshot_evolves
    | apply startLoads_evolves | apply spareAnswer_evolves | apply readyCheck_evolves | apply burnishTurn_evolves | apply Evolves.foldl
theorem rebase_evolves (h : Evolves r s) : Evolves r (rebase s) :=
  applyShadows_evolves (postEvent_evolves _ _ _ _ (modPrs_evolves _ (cancelSnapshot_evolves h) (fun _ => Nat.two_pow_pos 48)))
theorem exhaust_evolves (h : Evolves r s) : Evolves r (exhaust s) := by
  unfold exhaust; (try dsimp only); repeat' with_reducible first
    | assumption | apply Evolves.ite | apply abortRounds_evolves | apply stopSession_evolves | apply faultCtx_evolves | apply Evolves.foldl
    | intro _
theorem boundary_evolves (h : Evolves r s) : Evolves r (boundary s) := by
  unfold boundary
  refine .ite (rebase_evolves h) ?_
  split
  · exact exhaust_evolves h
  · have hx : s.prs.stroke ≠ 0xFFFFFFFFFFFF := by simp_all [exhausted]
    have h1 := fun g a b c => modPrs_evolves (fun p => { p with stroke := p.stroke + 1, advances := a, stalled := b, sticky := c, limitMs := g }) h
      (by intro hs; show s.prs.stroke + 1 < 2 ^ 48; omega)
    exact .ite (exhaust_evolves (beginStroke_evolves (h1 ..))) (beginStroke_evolves (h1 ..))
theorem retireStroke_evolves (h : Evolves r s) : Evolves r (retireStroke s) := by
  unfold retireStroke; (try dsimp only); repeat' with_reducible first
    | assumption | apply Evolves.ite | apply boundary_evolves | apply dropChecks_evolves | apply twinMismatch_evolves | apply Evolves.foldl | split
theorem loadFault_evolves (x1 : Work) (h : Evolves r s) : Evolves r (loadFault x1 s) := by
  unfold loadFault; (try dsimp only); repeat' with_reducible first
    | assumption | apply faultCtx_evolves | apply abortRound_evolves | apply decodeFault_evolves | split
theorem poisonedPlate_evolves (x1 : Nat) (h : Evolves r s) : Evolves r (poisonedPlate x1 s) := by
  unfold poisonedPlate; (try dsimp only); repeat' with_reducible first
    | assumption | apply Evolves.ite | apply modPla_evolves | apply loadFault_evolves | apply Evolves.foldl | exact Nat.le_refl _
    | exact Nat.le_add_right _ _ | split | intro _
theorem readPlate_evolves (x1 : Nat) (x2 : List MemFail) (h : Evolves r s) : Evolves r (readPlate x1 x2 s).2 := by
  unfold readPlate; (try dsimp only); repeat' with_reducible first
    | assumption | apply Evolves.ite | apply Evolves.ite_snd | apply checkedRead_evolves | exact Nat.le_refl _ | exact Nat.le_add_right _ _ | split

/-! ## Responder -/

theorem placePacket_evolves (x1 : Incoming) (x2 : Nat × Bytes × List Nat) (h : Evolves r s) : Evolves r (placePacket x1 x2 s).2 := by
  unfold placePacket; (try dsimp only); repeat' with_reducible first
    | assumption | apply Evolves.ite | apply Evolves.ite_snd | apply placeLocal_evolves | apply markPoison_evolves | apply memWrite_evolves
    | exact Nat.le_refl _ | exact Nat.le_add_right _ _ | split | intro _
theorem placeHeld_evolves (x1 : Incoming) (h : Evolves r s) : Evolves r (placeHeld x1 s).2 := by
  unfold placeHeld
  generalize ({ x1 with held := [] } : Incoming) = y
  generalize x1.held = l
  induction l generalizing y s with
  | nil => exact h
  | cons a l ih => exact ih (placePacket_evolves _ _ h) _
theorem answerBad_evolves (x1 : Nat) (x2 : Nat) (x3 : Status) (h : Evolves r s) : Evolves r (answerBad x1 x2 x3 s) := by
  unfold answerBad; (try dsimp only); repeat' with_reducible first
    | assumption | apply Evolves.ite | apply nak_evolves | apply roceSend_evolves | apply connError_evolves | split
theorem completeRecv_evolves (x1 : Incoming) (x2 : Status) (h : Evolves r s) : Evolves r (completeRecv x1 x2 s) := by
  unfold completeRecv; (try dsimp only); repeat' with_reducible first | assumption | apply Evolves.ite | apply completeDesc_evolves | split
theorem endMessage_evolves (x1 : Nat) (x2 : Incoming) (x3 : Status) (h : Evolves r s) : Evolves r (endMessage x1 x2 x3 s) := by
  unfold endMessage; (try dsimp only); repeat' with_reducible first
    | assumption | apply Evolves.ite | apply completeRecv_evolves | apply raiseTrigger_evolves | apply postEvent_evolves | apply modRdm_evolves
    | apply countPoison_evolves | apply modConn_evolves | apply answerBad_evolves | apply roceSend_evolves | apply Evolves.elim
    | exact Nat.le_refl _ | exact Nat.le_add_right _ _ | split | intro _
theorem sendResponse_evolves (x1 : Conn) (x2 : Nat) (x3 : Bytes) (h : Evolves r s) : Evolves r (sendResponse x1 x2 x3 s) := by
  unfold sendResponse; (try dsimp only); repeat' with_reducible first | assumption | apply roceSend_evolves | split
theorem readWindow_evolves (x1 : List MemFail) (x2 : Nat) (x3 : Nat) (x4 : Nat) (h : Evolves r s) : Evolves r (readWindow x1 x2 x3 x4 s).2 := by
  unfold readWindow; (try dsimp only); repeat' with_reducible first
    | assumption | apply Evolves.ite | apply Evolves.ite_snd | apply checkedRead_evolves | exact Nat.le_refl _ | exact Nat.le_add_right _ _ | split
    | intro _
theorem settleConn_evolves (x1 n : Nat) (h : Evolves r s) : Evolves r (settleConn x1 n s) := by
  induction n generalizing s with
  | zero => exact h
  | succ n ih =>
    unfold settleConn
    split
    · exact h
    · split
      · exact h
      · have hp := fun (t : State) (ht : Evolves r t) g => modConn_evolves x1 g ht
        dsimp only
        split
        · exact ih (endMessage_evolves _ _ _ (hp _ h _))
        · refine .ite h (.ite ?_ (ih (endMessage_evolves _ _ _ (hp _ (placeHeld_evolves _ h) _))))
          split
          · exact ih (endMessage_evolves _ _ _ (sendResponse_evolves _ _ _ (hp _ (readWindow_evolves _ _ _ _ h) _)))
          · exact ih (endMessage_evolves _ _ _ (hp _ (readWindow_evolves _ _ _ _ h) _))
theorem settleAll_evolves (x1 : Nat) (h : Evolves r s) : Evolves r (settleAll x1 s) := by
  unfold settleAll; (try dsimp only); repeat' with_reducible first | assumption | apply settleConn_evolves | apply Evolves.elim | intro _
theorem badPacket_evolves (x1 : Option Conn) (x2 : Nat) (h : Evolves r s) : Evolves r (badPacket x1 x2 s) := by
  unfold badPacket; (try dsimp only); repeat' with_reducible first
    | assumption | apply modRdm_evolves | apply nak_evolves | apply roceSend_evolves | split
theorem stageData_evolves (x1 : Nat) (x2 : RocePacket) (h : Evolves r s) : Evolves r (stageData x1 x2 s) := by
  unfold stageData; (try dsimp only); repeat' with_reducible first | assumption | apply modPtn_evolves
theorem takePacket_evolves (x1 : Nat) (x2 : Incoming) (x3 : RocePacket) (h : Evolves r s) : Evolves r (takePacket x1 x2 x3 s) := by
  unfold takePacket; (try dsimp only); repeat' with_reducible first
    | assumption | apply Evolves.ite | apply Evolves.ite_snd | apply poolFail_evolves | apply stageData_evolves | apply placeHeld_evolves
    | apply modConn_evolves | apply settleAll_evolves | exact Nat.le_refl _ | exact Nat.le_add_right _ _ | split | intro _
theorem beginSlice_evolves (x1 : Nat) (x2 : Window) (x3 : RocePacket) (h : Evolves r s) : Evolves r (beginSlice x1 x2 x3 s).2 := by
  unfold beginSlice; (try dsimp only); repeat' with_reducible first | assumption | apply modPtn_evolves | split
theorem startMessage_evolves (x1 : Conn) (x2 : RocePacket) (h : Evolves r s) : Evolves r (startMessage x1 x2 s) := by
  unfold startMessage; (try dsimp only); repeat' with_reducible first
    | assumption | apply Evolves.ite | apply modPtn_evolves | apply modRdm_evolves | apply modConn_evolves | apply roceSend_evolves
    | apply takePacket_evolves | apply beginSlice_evolves | split
theorem restartMessage_evolves (x1 : Conn) (x2 : Incoming) (h : Evolves r s) : Evolves r (restartMessage x1 x2 s) := by
  unfold restartMessage; (try dsimp only); repeat' with_reducible first | assumption | apply modPtn_evolves | apply modConn_evolves | split
theorem duplicateRead_evolves (x1 : Conn) (x2 : RocePacket) (h : Evolves r s) : Evolves r (duplicateRead x1 x2 s) := by
  unfold duplicateRead; (try dsimp only); repeat' with_reducible first
    | assumption | apply Evolves.ite | apply Evolves.ite_snd | apply readWindow_evolves | apply sendResponse_evolves | apply answerBad_evolves
    | apply countPoison_evolves | split | intro _
theorem sendDuplicate_evolves (x1 : Conn) (x2 : Nat) (x3 : Status) (h : Evolves r s) : Evolves r (sendDuplicate x1 x2 x3 s) := by
  unfold sendDuplicate; (try dsimp only); repeat' with_reducible first
    | assumption | apply Evolves.ite | apply roceSend_evolves | apply answerBad_evolves
theorem duplicatePacket_evolves (x1 : Conn) (x2 : RocePacket) (h : Evolves r s) : Evolves r (duplicatePacket x1 x2 s) := by
  unfold duplicatePacket; (try dsimp only); repeat' with_reducible first
    | assumption | apply Evolves.ite | apply modRdm_evolves | apply modConn_evolves | apply duplicateRead_evolves | apply sendDuplicate_evolves
    | split
theorem answerMark_evolves (x1 : Conn) (x2 : Bool) (h : Evolves r s) : Evolves r (answerMark x1 x2 s) := by
  unfold answerMark; (try dsimp only); repeat' with_reducible first
    | assumption | apply Evolves.ite | apply modRdm_evolves | apply modConn_evolves | apply roceSend_evolves
theorem requestPacket_evolves (x1 : Conn) (x2 : RocePacket) (h : Evolves r s) : Evolves r (requestPacket x1 x2 s) := by
  unfold requestPacket; (try dsimp only); repeat' with_reducible first
    | assumption | apply Evolves.ite | apply roceSend_evolves | apply badPacket_evolves | apply takePacket_evolves | apply startMessage_evolves
    | apply restartMessage_evolves | apply duplicatePacket_evolves | apply answerMark_evolves | apply Evolves.elim | split | intro _
theorem strayPacket_evolves (x1 : Nat) (x2 : Nat) (x3 : Arrival) (h : Evolves r s) : Evolves r (strayPacket x1 x2 x3 s) := by
  unfold strayPacket; (try dsimp only); repeat' with_reducible first
    | assumption | apply Evolves.ite | apply badPacket_evolves | apply drainPacket_evolves | apply modRdm_evolves | exact Nat.le_refl _
    | exact Nat.le_add_right _ _ | split | intro _
theorem missPacket_evolves (x1 : Conn) (x2 : Arrival) (h : Evolves r s) : Evolves r (missPacket x1 x2 s) := by
  unfold missPacket; (try dsimp only); repeat' with_reducible first | assumption | apply Evolves.ite | apply modRdm_evolves | apply modConn_evolves
theorem serve_evolves (x1 : Nat) (x2 : Arrival) (h : Evolves r s) : Evolves r (serve x1 x2 s) := by
  unfold serve; (try dsimp only); repeat' with_reducible first
    | assumption | apply Evolves.ite | apply requestPacket_evolves | apply takeAck_evolves | apply takeReadResponse_evolves | apply takeNak_evolves
    | apply takeSeqNak_evolves | apply takeRnrNak_evolves | apply takeCnp_evolves | apply Evolves.elim | exact Nat.le_refl _
    | exact Nat.le_add_right _ _ | split | intro _
theorem dropPacket_evolves (x1 : Arrival) (h : Evolves r s) : Evolves r (dropPacket x1 s) := by
  unfold dropPacket; (try dsimp only); repeat' with_reducible first
    | assumption | apply Evolves.ite | apply modRdm_evolves | split | intro _
theorem arrive_evolves (x1 : Nat) (x2 : Nat) (x3 : Arrival) (x4 : Bool) (h : Evolves r s) : Evolves r (arrive x1 x2 x3 x4 s) := by
  unfold arrive; (try dsimp only); repeat' with_reducible first
    | assumption | apply Evolves.ite | apply strayPacket_evolves | apply modRdm_evolves | apply drainPacket_evolves | apply dropPacket_evolves
    | apply missPacket_evolves | apply serve_evolves | apply touch_evolves | exact Nat.le_refl _ | exact Nat.le_add_right _ _ | split | intro _
theorem answerPacket_evolves (x1 : Nat) (x2 : Arrival) (h : Evolves r s) : Evolves r (answerPacket x1 x2 s) := by
  unfold answerPacket; (try dsimp only); repeat' with_reducible first
    | assumption | apply Evolves.ite | apply strayPacket_evolves | apply arrive_evolves | exact Nat.le_refl _ | exact Nat.le_add_right _ _ | split

/-! ## Ending -/

theorem completeAll_evolves (x1 : Nat) (x2 : Status) (x3 : Option Nat) (h : Evolves r s) : Evolves r (completeAll x1 x2 x3 s) := by
  unfold completeAll; (try dsimp only); repeat' with_reducible first | assumption | apply finishDesc_evolves | apply Evolves.foldl | intro _
theorem endDecode_evolves (x1 : Status) (h : Evolves r s) : Evolves r (endDecode x1 s) := by
  unfold endDecode; (try dsimp only); repeat' with_reducible first
    | assumption | apply Evolves.ite | apply modRing_evolves | apply controlAll_evolves | apply stopSession_evolves | apply leaveSession_evolves
    | split
theorem fenceEngine_evolves (x1 : Nat) (x2 : Status) (h : Evolves r s) : Evolves r (fenceEngine x1 x2 s) := by
  unfold fenceEngine; (try dsimp only); repeat' with_reducible first
    | assumption | apply Evolves.ite | apply modDec_evolves | apply faultCtx_evolves | apply abortRounds_evolves | apply connError_evolves
    | apply completeAll_evolves | apply endDecode_evolves | apply Evolves.foldl | intro _
theorem dropFnReads_evolves (x1 : Nat) (h : Evolves r s) : Evolves r (dropFnReads x1 s) := by
  unfold dropFnReads; (try dsimp only); repeat' with_reducible first
    | assumption | apply dropReads_evolves | apply abandonFetch_evolves | apply Evolves.foldl | intro _
theorem fenceWith_evolves (x1 : Status) (x2 : Nat) (h : Evolves r s) : Evolves r (fenceWith x1 s x2) := by
  unfold fenceWith; (try dsimp only); repeat' with_reducible first
    | assumption | apply Evolves.ite | apply modHif_evolves | apply modBuf_evolves | apply modFn_evolves | apply postEvent_evolves
    | apply fenceEngine_evolves | apply dropFnReads_evolves
theorem fence_evolves (x1 : Nat) (h : Evolves r s) : Evolves r (fence x1 s) := by
  unfold fence; (try dsimp only); repeat' with_reducible first | assumption | apply fenceWith_evolves
theorem tdiError_evolves  (h : Evolves r s) : Evolves r (tdiError s) := by
  unfold tdiError; (try dsimp only); repeat' with_reducible first
    | assumption | apply modHif_evolves | apply fence_evolves | apply Evolves.foldl | intro _
theorem dropWorks_evolves  (h : Evolves r s) : Evolves r (dropWorks s) := by
  unfold dropWorks; (try dsimp only); repeat' with_reducible first
    | assumption | apply modPrs_evolves | apply modPla_evolves | apply modPtn_evolves | apply modHev_evolves | apply release_evolves
    | apply set_dec_evolves | exact fun h => h | split
theorem dropRings_evolves  (h : Evolves r s) : Evolves r (dropRings s) := by
  unfold dropRings; (try dsimp only); repeat' with_reducible first | assumption | apply modBuf_evolves
theorem dropRdm_evolves  (h : Evolves r s) : Evolves r (dropRdm s) := by
  unfold dropRdm; (try dsimp only); repeat' with_reducible first
    | assumption | apply modRdm_evolves | apply release_evolves | apply Evolves.foldl | split | intro _
theorem dropFrames_evolves  (h : Evolves r s) : Evolves r (dropFrames s) := by
  unfold dropFrames; (try dsimp only); repeat' with_reducible first | assumption | apply modBuf_evolves | apply set_ports_evolves
theorem dropRing_evolves (h : Evolves r s) : Evolves r (dropRing s) := by
  unfold dropRing
  split
  · exact h
  · exact .foldl (fun _ x ht => releasePort_evolves 8 x ht) _ (set_ring_evolves none h)
theorem dissolveTrained_evolves (h : Evolves r s) : Evolves r (dissolveTrained s) := by
  unfold dissolveTrained; (try dsimp only); repeat' with_reducible first
    | assumption | apply Evolves.ite | apply modPort_evolves | apply releasePort_evolves | apply Evolves.foldl | split | intro _
    | apply set_ring_evolves
theorem wipeSram_evolves (h : Evolves r s) : Evolves r (wipeSram s) := by
  unfold wipeSram
  exact modMem_evolves _ (dropFrames_evolves h) (cells_filter_wf _ _)
theorem cryptoErase_evolves (h : Evolves r s) : Evolves r (cryptoErase s) := by
  unfold cryptoErase
  exact modPla_evolves _ (modMem_evolves _ (modMpr_evolves _ (clearSlots_evolves _ (dropWeights_evolves h))) (cells_filter_wf _ _))
theorem startFill_evolves  (h : Evolves r s) : Evolves r (startFill s) := by
  unfold startFill; (try dsimp only); repeat' with_reducible first
    | assumption | apply Evolves.ite | apply modMpr_evolves | apply drbgTake_evolves | apply fillSlot_evolves
theorem resumeHandshakes_evolves (x1 : Bool) (h : Evolves r s) : Evolves r (resumeHandshakes x1 s) :=
  .foldl (fun _ _ ht => .ite (goOnHandshake_evolves _ ht) ht) _ h
theorem serveJobs_evolves (x1 : Nat) (x2 : Job → State → State) (h : Evolves r s) (hx2 : ∀ y0 y1, Evolves r y1 → Evolves r (x2 y0 y1)) : Evolves
    r (serveJobs x1 x2 s) := by
  unfold serveJobs; (try dsimp only); repeat' with_reducible first
    | assumption | apply Evolves.ite | apply hx2 | apply Evolves.foldl | apply Evolves.elim | exact Nat.le_refl _ | exact Nat.le_add_right _ _
    | intro _
theorem serveInternal_evolves (h : Evolves r s) : Evolves r (serveInternal s) := by
  unfold serveInternal
  have h1 := serveJobs_evolves 0x0301 keyGenerate (makeAttest_evolves (startFill_evolves h)) (fun j _ ht => keyGenerate_evolves j ht)
  have h2 := serveJobs_evolves 0x0309 keyRotate h1 (fun j _ ht => keyRotate_evolves j ht)
  clear h1; revert h2
  generalize serveJobs 0x0309 keyRotate _ = a
  intro h2
  have h3 := serveJobs_evolves 0x0305 keyOrigin (resumeHandshakes_evolves true (resumeHandshakes_evolves false h2)) (fun j _ ht => keyOrigin_evolves j ht)
  have h4 := serveJobs_evolves 0x0501 decodeOpen (serveJobs_evolves 0x0306 attestReport h3 (fun j _ ht => attestReport_evolves j ht))
    (fun j _ ht => decodeOpen_evolves j ht)
  clear h3; revert h4; dsimp only
  generalize serveJobs 0x0501 decodeOpen _ = b
  exact fun h4 => .ite (signOrWait_evolves h4) h4
theorem destroyTenant_evolves  (h : Evolves r s) : Evolves r (destroyTenant s) := by
  unfold destroyTenant; (try dsimp only); repeat' with_reducible first
    | assumption | apply dropWorks_evolves | apply dropRings_evolves | apply dropRdm_evolves | apply wipeSram_evolves
theorem endJobs_evolves (x1 : Job → Bool) (x2 : Status) (h : Evolves r s) : Evolves r (endJobs x1 x2 s) := by
  unfold endJobs; (try dsimp only); repeat' with_reducible first
    | assumption | apply Evolves.ite | apply conclude_evolves | apply Evolves.foldl | intro _
theorem dropBurnish_evolves (h : Evolves r s) : Evolves r (dropBurnish s) := by
  unfold dropBurnish; (try dsimp only); repeat' with_reducible first
    | assumption | apply Evolves.ite | apply modBuf_evolves | apply modHev_evolves | intro _
theorem stopTenant_evolves (x1 : Removal) (h : Evolves r s) : Evolves r (stopTenant x1 s) := by
  unfold stopTenant; (try dsimp only); repeat' with_reducible first
    | assumption | apply Evolves.ite | apply modMbx_evolves | apply modLife_evolves | apply dropBurnish_evolves | apply modRdm_evolves
    | apply abortRounds_evolves | apply fenceWith_evolves | apply completeAll_evolves | apply dropFnReads_evolves | apply modHif_evolves
    | apply Evolves.foldl | exact fun h => h | intro _
theorem clearSas_evolves  (h : Evolves r s) : Evolves r (clearSas s) := by
  unfold clearSas; (try dsimp only); repeat' with_reducible first | assumption | apply set_ports_evolves
theorem dropIde_evolves (h : Evolves r s) : Evolves r (dropIde s) := modHif_evolves _ h
theorem wipeTenant_evolves  (h : Evolves r s) : Evolves r (wipeTenant s) := by
  unfold wipeTenant; (try dsimp only); repeat' with_reducible first
    | assumption | apply modEnt_evolves | apply modKst_evolves | apply modLife_evolves | apply modHif_evolves | apply clearSlots_evolves
    | apply dropRing_evolves | apply cryptoErase_evolves | apply destroyTenant_evolves | apply clearSas_evolves | apply dropIde_evolves
    | exact fun h => h | exact Nat.le_refl _
theorem removeTenant_evolves (x1 : Removal) (h : Evolves r s) : Evolves r (removeTenant x1 s) := by
  unfold removeTenant; (try dsimp only); repeat' with_reducible first
    | assumption | apply startFill_evolves | apply stopTenant_evolves | apply wipeTenant_evolves
theorem endRemoval_evolves (x1 : Removal) (h : Evolves r s) : Evolves r (endRemoval x1 s) := by
  have h1 := fun f g k => modHif_evolves f (modKst_evolves (fun k => { k with seedBlown := k.seedBlown || g }) (modLife_evolves k h)
    (fun h => by simp [h]) (Nat.le_refl _))
  unfold endRemoval; dsimp only
  have h2 := fun a b c d f g k => postEvent_evolves a b c d (.ite (c := x1.target == .retired) (h1 f g k) (makeAttest_evolves (h1 f g k)))
  split
  · exact conclude_evolves _ _ _ (h2 ..)
  · exact h2 ..
theorem logTamper_evolves (x1 : Nat) (x2 : Nat) (x3 : Nat) (h : Evolves r s) : Evolves r (logTamper x1 x2 x3 s) := by
  unfold logTamper; (try dsimp only); repeat' with_reducible first | assumption | apply set_backup_evolves
theorem dropJobReads_evolves (h : Evolves r s) : Evolves r (dropJobReads s) := by
  unfold dropJobReads; (try dsimp only); repeat' with_reducible first
    | assumption | apply Evolves.ite | apply dropReads_evolves | split | intro _
theorem tamperWipe_evolves (h : Evolves r s) : Evolves r (tamperWipe s) := by
  unfold tamperWipe; dsimp only
  have h1 := Evolves.foldl (fun _ fn ht => fenceEngine_evolves fn .dataPoisoned (dropFnReads_evolves fn ht)) [1, 2, 3, 4] h
  revert h1
  generalize List.foldl _ s [1, 2, 3, 4] = t
  intro h1
  have h2 := dropJobReads_evolves (endJobs_evolves alarmEnds .tamperLocked h1)
  revert h2
  generalize dropJobReads (endJobs alarmEnds .tamperLocked t) = u
  intro h2
  with_reducible apply modTst_evolves _ (destroyTenant_evolves (dropIde_evolves (modEnt_evolves _ _)))
  · exact fun h => h
  · with_reducible apply modKst_evolves _ (clearSlots_evolves _ (cryptoErase_evolves (clearSas_evolves (dropRing_evolves h2))))
    · exact fun h => h
    · exact Nat.le_refl _
theorem tamperAlarm_evolves (x1 : Nat) (h : Evolves r s) : Evolves r (tamperAlarm x1 s) := by
  unfold tamperAlarm; (try dsimp only); repeat' with_reducible first
    | assumption | apply Evolves.ite | apply modRst_evolves | apply modPins_evolves | apply modLife_evolves | apply postEvent_evolves
    | apply endRemoval_evolves | apply logTamper_evolves | apply tamperWipe_evolves | split
theorem list4_map4 {p : α → Prop} (x : Four α) (f : α → α) (hf : ∀ a, p a → p (f a)) (h : ∀ a ∈ list4 x, p a) :
    ∀ a ∈ list4 (map4 x f), p a := by
  simp only [list4, map4, List.mem_cons, List.not_mem_nil, or_false, forall_eq_or_imp, forall_eq] at h ⊢
  exact ⟨hf _ h.1, hf _ h.2.1, hf _ h.2.2.1, hf _ h.2.2.2⟩
theorem clearCore_evolves (h : Evolves r s) : Evolves r (clearCore s) := by
  have h1 := clearSlots_evolves (fun n => decide (8 ≤ n ∧ n ≤ 23)) (dropRdm_evolves (dropRings_evolves (dropWorks_evolves (wipeSram_evolves
    (dissolveTrained_evolves (cancelSnapshot_evolves (set_idsOk_evolves false h)))))))
  unfold clearCore; dsimp only
  revert h1
  generalize clearSlots (fun n => decide (8 ≤ n ∧ n ≤ 23)) _ = t
  intro h1
  with_reducible apply modTst_evolves _ (modPins_evolves _ (modMbx_evolves _ (modHif_evolves _ (dropReads_evolves _ (modCvu_evolves _
    (modPla_evolves _ (modClk_evolves _ (modPrs_evolves _ h1 _)))))) _ _))
  · exact fun h => h
  · exact fun _ => Nat.two_pow_pos 48
  · exact fun h => h
  · exact list4_map4 _ _ (fun _ h => h)
theorem clearSystem_evolves (h : Evolves r s) : Evolves r (clearSystem s) := by
  refine h.trans ?_
  constructor
  case boxes => intro _ b hb; simp_all [clearSystem, list4, State.reset, cellsWf]
  all_goals first | rfl | exact fun h => h | exact List.prefix_refl _ | exact Nat.le_refl _ | exact fun _ => Nat.two_pow_pos _ | exact fun _ => rfl | exact fun _ => ⟨rfl, rfl⟩
theorem clearPowerOn_evolves (h : Evolves r s) : Evolves r (clearPowerOn s) := by
  refine (clearSystem_evolves h).trans ?_
  constructor
  case boxes => intro _ b hb; simp_all [clearPowerOn, list4, State.reset, cellsWf]
  all_goals first | rfl | exact fun h => h | exact List.prefix_refl _ | exact Nat.le_refl _ | exact fun _ => Nat.two_pow_pos _ | exact fun _ => rfl | exact fun _ => ⟨rfl, rfl⟩

/-! ## Firmware -/

theorem modComp_evolves (x1 : Nat) (f : FwComp → FwComp) (h : Evolves r s) (hf : ∀ x, x.counter ≤ (f x).counter) : Evolves r (modComp x1 f s) :=
  .ite (set_ctrlFw_evolves _ h (hf _)) (set_secFw_evolves _ h (hf _))
theorem emptyStage_evolves (x1 : Nat) (h : Evolves r s) : Evolves r (emptyStage x1 s) :=
  modComp_evolves _ _ h (fun x => by unfold setFwSlot; split <;> exact Nat.le_refl _)
theorem emptySome_evolves  (h : Evolves r s) : Evolves r (emptySome s) := by
  unfold emptySome; (try dsimp only); repeat' with_reducible first
    | assumption | apply Evolves.ite | apply emptyStage_evolves | apply set_draw_evolves | exact Nat.le_add_right _ _
theorem refuseStage_evolves (x1 : Job) (x2 : Bytes) (x3 : Status) (h : Evolves r s) : Evolves r (refuseStage x1 x2 x3 s) := by
  unfold refuseStage; (try dsimp only); repeat' with_reducible first
    | assumption | apply Evolves.ite | apply answer_evolves | apply emptyStage_evolves
theorem fwEarly_evolves (x1 : Job) (x2 : Bytes) (h : Evolves r s) : Evolves r (fwEarly x1 x2 s).2 := by
  unfold fwEarly; (try dsimp only); repeat' with_reducible first
    | assumption | apply Evolves.ite | apply Evolves.ite_snd | apply modJob_evolves | apply refuseStage_evolves | split | intro _
theorem emptyNamed_evolves (x1 : Nat) (h : Evolves r s) : Evolves r (emptyNamed x1 s) := by
  unfold emptyNamed; (try dsimp only); repeat' with_reducible first
    | assumption | apply Evolves.ite | apply emptySome_evolves | apply emptyStage_evolves | exact Nat.le_refl _ | exact Nat.le_add_right _ _
theorem setFwSlot_counter (i : Nat) (x : FwSlot) (f : FwComp) : (setFwSlot i x f).counter = f.counter := by unfold setFwSlot; split <;> rfl
theorem fwStageData_evolves (x1 : Job) (x2 : Bool) (x3 : Except Status Bytes) (h : Evolves r s) : Evolves r (fwStageData x1 x2 x3 s) := by
  unfold fwStageData
  split
  · exact answer_evolves _ _ (emptyNamed_evolves _ h)
  · have hr := fun st img => refuseStage_evolves x1 img st h
    refine .ite (hr _ _) (.ite (hr _ _) (.ite (hr _ _) (finish_evolves _ _ _ (modComp_evolves _ _ h ?_))))
    exact fun x => Nat.le_of_eq (setFwSlot_counter _ _ x).symm
theorem blowTo_evolves (x1 x2 : Nat) (h : Evolves r s) : Evolves r (blowTo x1 x2 s) := modComp_evolves _ _ h (fun _ => Nat.le_max_left _ _)
theorem abandonFirmware_evolves (h : Evolves r s) : Evolves r (abandonFirmware s) := by
  unfold abandonFirmware; (try dsimp only); repeat' with_reducible first
    | assumption | apply Evolves.ite | apply Evolves.ite_snd | apply emptyNamed_evolves | apply drawNat_evolves | apply blowTo_evolves
    | exact Nat.le_refl _ | exact Nat.le_add_right _ _ | split | intro _
theorem runSlot_counter (i : Nat) (f : FwComp) : (runSlot i f).counter = f.counter := by unfold runSlot; simp [setFwSlot_counter]
theorem bootFirmware_evolves (c : Nat) (x y : Bool) (h : Evolves r s) : ∀ t, bootFirmware c x y s = some t → Evolves r t := by
  intro t ht
  obtain ⟨q, hq, rfl⟩ := Option.map_eq_some_iff.1 ht
  have hc : (compOf s c).counter ≤ q.1.counter := by
    unfold bootComp at hq
    repeat' split at hq
    all_goals first | cases hq | skip
    all_goals exact Nat.le_of_eq (runSlot_counter _ _).symm
  have h1 : Evolves r (modComp c (fun _ => q.1) s) := by
    unfold modComp compOf at *
    split
    · exact set_ctrlFw_evolves _ h (by simp_all)
    · exact set_secFw_evolves _ h (by simp_all)
  exact .ite (modMbx_evolves _ h1 (fun h => h) (fun h => h)) h1

/-! ## Boot -/

theorem powerOnReset_evolves (h : Evolves r s) : Evolves r (powerOnReset s) :=
  set_backup_evolves _ (modClk_evolves _ (modRst_evolves _ (clearPowerOn_evolves (abandonFirmware_evolves h))))
theorem beginOptionLoad_evolves  (h : Evolves r s) : Evolves r (beginOptionLoad s) := by
  unfold beginOptionLoad; (try dsimp only); repeat' with_reducible first
    | assumption | apply Evolves.ite | apply modRst_evolves | apply set_backup_evolves
theorem latchedAlarms_evolves (h : Evolves r s) : Evolves r (latchedAlarms s) := by
  have h1 : Evolves r (s.backup.latched.foldl (fun t x => logTamper x 0 0 t) s) := .foldl (fun _ _ ht => logTamper_evolves _ _ _ ht) _ h
  have h2 := fun v => set_backup_evolves v h1
  unfold latchedAlarms; dsimp only
  exact .ite (h2 _) (modLife_evolves _ (h2 _))
theorem recordCause_evolves  (h : Evolves r s) : Evolves r (recordCause s) := by
  unfold recordCause; (try dsimp only); repeat' with_reducible first | assumption | apply Evolves.ite | apply modRst_evolves
theorem startSecurity_evolves (x y : Bool) (h : Evolves r s) : Evolves r (startSecurity x y s) := by
  have h1 := expandIdentity_evolves h
  unfold startSecurity; dsimp only
  split
  · exact bootFirmware_evolves _ _ _ h1 _ (by assumption)
  · exact modMbx_evolves _ h1 (fun h => h) (fun h => h)
theorem startConsole_evolves (h : Evolves r s) : Evolves r (startConsole s) := by
  unfold startConsole; (try dsimp only); repeat' with_reducible first
    | assumption | apply Evolves.ite | apply emit_evolves | apply modPins_evolves | intro _
theorem powerOff_evolves (h : Evolves r s) : Evolves r (powerOff s) := by
  unfold powerOff; (try dsimp only); repeat' with_reducible first
    | assumption | apply Evolves.ite | apply clearPowerOn_evolves | apply abandonFirmware_evolves | apply modRst_evolves | apply modPins_evolves
    | intro _
theorem inputLost_evolves  (h : Evolves r s) : Evolves r (inputLost s) := by
  unfold inputLost; (try dsimp only); repeat' with_reducible first | assumption | apply Evolves.ite | apply powerOff_evolves
theorem standbyWrite_evolves (x1 : Nat) (h : Evolves r s) : Evolves r (standbyWrite x1 s) := by
  unfold standbyWrite; (try dsimp only); repeat' with_reducible first
    | assumption | apply Evolves.ite | apply modRst_evolves | apply modClk_evolves | apply powerOff_evolves

/-! ## Cvu -/

theorem cvuStart_evolves  (h : Evolves r s) : Evolves r (cvuStart s) := by
  unfold cvuStart; (try dsimp only); repeat' with_reducible first | assumption | apply modCvu_evolves
theorem cvuData_evolves (x1 : Nat) (x2 : Nat) (h : Evolves r s) : Evolves r (cvuData x1 x2 s) := by
  unfold cvuData; (try dsimp only); repeat' with_reducible first | assumption | apply modCvu_evolves
theorem cvuRead_evolves  (h : Evolves r s) : Evolves r (cvuRead s) := by
  unfold cvuRead; (try dsimp only); repeat' with_reducible first | assumption | apply Evolves.ite | apply modCvu_evolves | apply emit_evolves

/-! ## Entropy -/

theorem condition_evolves (x1 : BitVec 1024) (h : Evolves r s) : Evolves r (condition x1 s) := by
  unfold condition; (try dsimp only); repeat' with_reducible first | assumption | apply Evolves.ite | apply modEnt_evolves
theorem seedDrbg_evolves (w : Bytes × Bytes) (h : Evolves r s) : Evolves r (seedDrbg w s) := by
  unfold seedDrbg; (try dsimp only); repeat' with_reducible first
    | assumption | apply modEnt_evolves | apply fillSlot_evolves | apply serveInternal_evolves

/-! ## HostIf -/

theorem countReject_evolves  (h : Evolves r s) : Evolves r (countReject s) := by
  unfold countReject; (try dsimp only); repeat' with_reducible first | assumption | apply modHif_evolves
theorem bar0Write_evolves (x1 : Bool) (x2 : State → State) (h : Evolves r s) (hx2 : ∀ y0, Evolves r y0 → Evolves r (x2 y0)) : Evolves r (bar0Write x1
    s x2) := by
  unfold bar0Write; (try dsimp only); repeat' with_reducible first
    | assumption | apply Evolves.ite | apply tdiError_evolves | apply countReject_evolves | apply hx2 | intro _
theorem setAer_evolves (x1 : Nat) (x2 : Nat) (h : Evolves r s) : Evolves r (setAer x1 x2 s) := by
  unfold setAer; (try dsimp only); repeat' with_reducible first
    | assumption | apply Evolves.ite | apply modFn_evolves | exact Nat.le_refl _ | exact Nat.le_add_right _ _ | intro _
theorem refuseRead_evolves (x1 : Nat) (x2 : Bool) (h : Evolves r s) : Evolves r (refuseRead x1 x2 s) := by
  unfold refuseRead; (try dsimp only); repeat' with_reducible first
    | assumption | apply Evolves.ite | apply emit_evolves | apply setAer_evolves | exact Nat.le_refl _ | exact Nat.le_add_right _ _
theorem bar0Read_evolves (x1 : Nat) (x2 : Bool) (x3 : State → State) (h : Evolves r s) (hx3 : ∀ y0, Evolves r y0 → Evolves r (x3 y0)) : Evolves r
    (bar0Read x1 x2 s x3) := by
  unfold bar0Read; (try dsimp only); repeat' with_reducible first
    | assumption | apply Evolves.ite | apply refuseRead_evolves | apply countReject_evolves | apply hx3 | exact Nat.le_refl _
    | exact Nat.le_add_right _ _
theorem lockedWrite_evolves (x1 : State → State) (h : Evolves r s) (hx1 : ∀ y0, Evolves r y0 → Evolves r (x1 y0)) : Evolves r (lockedWrite s x1) := by
  unfold lockedWrite; (try dsimp only); repeat' with_reducible first
    | assumption | apply Evolves.ite | apply tdiError_evolves | apply hx1 | split
theorem modCfg_evolves (x1 : Nat) (x2 : ConfigSpace → ConfigSpace) (h : Evolves r s) : Evolves r (modCfg x1 x2 s) := by
  unfold modCfg; (try dsimp only); repeat' with_reducible first
    | assumption | apply Evolves.ite | apply modFn_evolves | exact Nat.le_refl _ | exact Nat.le_add_right _ _ | intro _
theorem plainWrite_evolves (x1 : Nat) (x2 : Nat) (x3 : Nat) (x4 : Nat) (h : Evolves r s) : Evolves r (plainWrite x1 x2 x3 x4 s) := by
  unfold plainWrite; (try dsimp only); repeat' with_reducible first
    | assumption | apply Evolves.ite | apply countBad_evolves | apply regWrite_evolves | exact Nat.le_refl _ | exact Nat.le_add_right _ _ | split
theorem placeWrite_evolves (x1 : Nat) (x2 : Bool) (x3 : RegPlace) (x4 : Nat) (x5 : Nat) (h : Evolves r s) : Evolves r (placeWrite x1 x2 x3 x4 x5
    s) := by
  unfold placeWrite; (try dsimp only); repeat' with_reducible first
    | assumption | apply Evolves.ite | apply bar0Write_evolves | apply plainWrite_evolves | apply lockedWrite_evolves | apply modCfg_evolves
    | apply countReject_evolves | exact Nat.le_refl _ | exact Nat.le_add_right _ _ | split | intro _
theorem bar2Denied_evolves  (h : Evolves r s) : Evolves r (bar2Denied s) := by
  unfold bar2Denied; (try dsimp only); repeat' with_reducible first | assumption | apply modHif_evolves
theorem integrityAlarm_evolves (x1 : List MemFail) (x2 : Nat) (x3 : Nat) (h : Evolves r s) : Evolves r (integrityAlarm x1 x2 x3 s) := by
  unfold integrityAlarm; (try dsimp only); repeat' with_reducible first
    | assumption | apply Evolves.ite | apply tamperAlarm_evolves | exact Nat.le_refl _ | exact Nat.le_add_right _ _ | intro _
theorem deviceRead_evolves (x1 : Nat) (x2 : Nat) (x3 : List MemFail) (h : Evolves r s) : Evolves r (deviceRead x1 x2 x3 s) := by
  unfold deviceRead; (try dsimp only); repeat' with_reducible first
    | assumption | apply Evolves.ite | apply Evolves.ite_snd | apply emit_evolves | apply countBad_evolves | apply checkedRead_evolves
    | apply integrityAlarm_evolves | exact Nat.le_refl _ | exact Nat.le_add_right _ _
theorem deviceWrite_evolves (x1 : Nat) (x2 : Bytes) (x3 : List MemFail) (h : Evolves r s) : Evolves r (deviceWrite x1 x2 x3 s) := by
  unfold deviceWrite; (try dsimp only); repeat' with_reducible first
    | assumption | apply Evolves.ite | apply Evolves.ite_snd | apply countBad_evolves | apply memWrite_evolves | apply integrityAlarm_evolves
    | apply failReads_evolves | apply modMem_evolves | apply Evolves.foldl | exact Nat.le_refl _ | exact Nat.le_add_right _ _ | split
    | exact fun h => h | intro _
theorem commandData_evolves (x1 : Job) (x2 : Bool) (x3 : Except Status Bytes) (h : Evolves r s) : Evolves r (commandData x1 x2 x3 s) := by
  unfold commandData; (try dsimp only); repeat' with_reducible first
    | assumption | apply Evolves.ite | apply plateStageData_evolves | apply keyLoadData_evolves | apply correctFirst_evolves
    | apply weightsLoadData_evolves | apply draftLoadData_evolves | apply replayTokens_evolves | apply fwStageData_evolves
theorem descriptorData_evolves (x1 : Nat) (x2 : Except Status Bytes) (h : Evolves r s) : Evolves r (descriptorData x1 x2 s) := by
  unfold descriptorData; (try dsimp only); repeat' with_reducible first
    | assumption | apply drawBytes_evolves | apply fetched_evolves | apply ringReadFault_evolves | split
theorem readDone_evolves (x1 : ReadFor) (x2 : Except Status Bytes) (h : Evolves r s) : Evolves r (readDone x1 x2 s) := by
  unfold readDone; (try dsimp only); repeat' with_reducible first
    | assumption | apply rotsumData_evolves | apply hevImportData_evolves | apply correctSecond_evolves | apply decodeInputData_evolves
    | apply replayFields_evolves | apply rdmSourceData_evolves | apply commandData_evolves | apply descriptorData_evolves | apply Evolves.elim | split
    | intro _
theorem commandEarly_evolves (x1 : Job) (x2 : Bytes) (h : Evolves r s) : Evolves r (commandEarly x1 x2 s).2 := by
  unfold commandEarly
  repeat' split
  · exact plateEarly_evolves _ _ h
  · exact weightsEarly_evolves _ _ h
  · exact draftEarly_evolves _ _ h
  · exact checkEarly_evolves _ _ h
  · exact keyEarly_evolves _ _ h
  · exact fwEarly_evolves _ _ h
  · exact noEarly_evolves _ h
theorem readEarly_evolves (x1 : ReadFor) (x2 : Bytes) (h : Evolves r s) : Evolves r (readEarly x1 x2 s).2 := by
  unfold readEarly
  split
  · cases jobAt s _ with
    | none => exact h
    | some j => exact commandEarly_evolves _ _ h
  · cases jobAt s _ with
    | none => exact h
    | some j => exact correctEarly_evolves _ _ h
  · exact h
theorem issueHeld_evolves (x1 : Nat) (h : Evolves r s) : Evolves r (issueHeld x1 s) :=
  .foldl (fun _ _ ht => .ite (issueRead_evolves _ (modHif_evolves _ ht)) ht) _ h
theorem closeRead_evolves (x1 : HostRead) (h : Evolves r s) : Evolves r (closeRead x1 s) := by
  unfold closeRead; (try dsimp only); repeat' with_reducible first
    | assumption | apply Evolves.ite | apply issueHeld_evolves | apply modHif_evolves | intro _
theorem nextRead_evolves (x1 : HostRead) (h : Evolves r s) : Evolves r (nextRead x1 s) := by
  unfold nextRead; (try dsimp only); repeat' with_reducible first
    | assumption | apply Evolves.ite | apply modHif_evolves | apply issueRead_evolves | intro _
theorem takeAnswer_evolves (x1 : HostRead) (x2 : Arrived) (h : Evolves r s) : Evolves r (takeAnswer x1 x2 s) := by
  unfold takeAnswer; (try dsimp only); repeat' with_reducible first
    | assumption | apply Evolves.ite | apply Evolves.ite_snd | apply readDone_evolves | apply closeRead_evolves | apply readEarly_evolves
    | apply nextRead_evolves | split
theorem takeArrived_evolves (x1 : Nat) (h : Evolves r s) : Evolves r (takeArrived x1 s) := by
  unfold takeArrived; (try dsimp only); repeat' with_reducible first
    | assumption | apply Evolves.ite | apply takeAnswer_evolves | apply Evolves.elim | exact Nat.le_refl _ | exact Nat.le_add_right _ _ | split
    | intro _
theorem countHostErr_evolves (x1 : Nat) (x2 : Status) (h : Evolves r s) : Evolves r (countHostErr x1 x2 s) := by
  unfold countHostErr; (try dsimp only); repeat' with_reducible first
    | assumption | apply Evolves.ite | apply modHif_evolves | apply nextRead_evolves | apply setAer_evolves | apply Evolves.elim
    | exact Nat.le_refl _ | exact Nat.le_add_right _ _ | intro _
theorem endRead_evolves (x1 : Nat) (x2 : Nat → Arrived) (h : Evolves r s) : Evolves r (endRead x1 x2 s) := by
  unfold endRead; (try dsimp only); repeat' with_reducible first
    | assumption | apply Evolves.ite | apply countHostErr_evolves | apply takeAnswer_evolves | apply modHif_evolves | apply nextRead_evolves
    | exact Nat.le_refl _ | exact Nat.le_add_right _ _ | split | intro _
theorem releaseHeld_evolves (x1 : Nat) (h : Evolves r s) : Evolves r (releaseHeld x1 s) := by
  unfold releaseHeld; (try dsimp only); repeat' with_reducible first
    | assumption | apply Evolves.ite | apply Evolves.ite_snd | apply issueHeld_evolves | apply send_evolves | apply modHif_evolves
    | apply nextRead_evolves | apply Evolves.foldl | exact Nat.le_refl _ | exact Nat.le_add_right _ _ | intro _
theorem resetConfig_evolves (x1 : Nat) (h : Evolves r s) : Evolves r (resetConfig x1 s) := by
  unfold resetConfig; (try dsimp only); repeat' with_reducible first | assumption | apply modFn_evolves
theorem flrQuiesced_evolves (x1 : Nat) (h : Evolves r s) : Evolves r (flrQuiesced x1 s) := by
  unfold flrQuiesced; (try dsimp only); repeat' with_reducible first
    | assumption | apply modHif_evolves | apply modBuf_evolves | apply modFn_evolves | apply freeDrained_evolves | apply dropFnReads_evolves
    | apply Evolves.foldl | intro _
theorem flrFn_evolves (x1 : Nat) (h : Evolves r s) : Evolves r (flrFn x1 s) := by
  unfold flrFn; (try dsimp only); repeat' with_reducible first
    | assumption | apply Evolves.ite | apply fence_evolves | apply resetConfig_evolves | apply flrQuiesced_evolves
theorem flrPf0_evolves (h : Evolves r s) : Evolves r (flrPf0 s) := by
  unfold flrPf0; dsimp only
  refine modHif_evolves _ (modMbx_evolves _ h (fun h => h) ?_)
  simp only [list4, List.mem_cons, List.not_mem_nil, or_false, forall_eq_or_imp, forall_eq]
  exact fun h => h
theorem flrGate_evolves  (h : Evolves r s) : Evolves r (flrGate s) := by
  unfold flrGate; (try dsimp only); repeat' with_reducible first | assumption | apply Evolves.ite | apply tdiError_evolves
theorem flr_evolves (x1 : List Nat) (h : Evolves r s) : Evolves r (flr x1 s) := by
  unfold flr; (try dsimp only); repeat' with_reducible first
    | assumption | apply Evolves.ite | apply flrPf0_evolves | apply flrFn_evolves | apply flrGate_evolves | apply resetConfig_evolves
    | apply Evolves.foldl | exact Nat.le_refl _ | exact Nat.le_add_right _ _ | intro _
theorem pf0Extra_evolves (x1 : Nat) (x2 : Nat) (x3 : Nat) (h : Evolves r s) : Evolves r (pf0Extra x1 x2 x3 s) := by
  unfold pf0Extra; (try dsimp only); repeat' with_reducible first
    | assumption | apply Evolves.ite | apply armFromRegister_evolves | apply mailboxGo_evolves | apply eventDoorbell_evolves
    | apply standbyWrite_evolves | apply cvuStart_evolves | apply cvuData_evolves
theorem pf0Write_evolves (x1 : Nat) (x2 : Nat) (x3 : Nat) (h : Evolves r s) : Evolves r (pf0Write x1 x2 x3 s) := by
  unfold pf0Write; (try dsimp only); repeat' with_reducible first
    | assumption | apply Evolves.ite | apply plainWrite_evolves | apply pf0Extra_evolves | exact Nat.le_refl _ | exact Nat.le_add_right _ _
theorem pf0Read_evolves (x1 : Nat) (x2 : Nat) (h : Evolves r s) : Evolves r (pf0Read x1 x2 s) := by
  unfold pf0Read; (try dsimp only); repeat' with_reducible first
    | assumption | apply Evolves.ite | apply emit_evolves | apply countBad_evolves | apply cvuRead_evolves | apply latchHi_evolves
    | exact Nat.le_refl _ | exact Nat.le_add_right _ _ | split | apply set_draw_evolves
theorem firmwareResumes_evolves (h : Evolves r s) : Evolves r (firmwareResumes s) := by
  unfold firmwareResumes; (try dsimp only); repeat' with_reducible first
    | assumption | apply Evolves.ite | apply deliverEnded_evolves | apply serveInternal_evolves | apply takeArrived_evolves | apply Evolves.foldl
    | intro _

/-! ## Lifecycle -/

theorem changeState_evolves (x1 : Job) (x2 : Lifecycle) (x3 : Nat) (x4 : Bytes) (x5 : Bool) (h : Evolves r s) : Evolves r (changeState x1 x2 x3 x4 x5
    s) := by
  unfold changeState; (try dsimp only); repeat' with_reducible first
    | assumption | apply modLife_evolves | apply waitJob_evolves | apply removeTenant_evolves

/-! ## SelfTest -/

theorem startTest_evolves (x1 : Job) (x2 : Nat) (x3 : BitVec 32) (x4 : Nat) (h : Evolves r s) : Evolves r (startTest x1 x2 x3 x4 s) := by
  unfold startTest; (try dsimp only); repeat' with_reducible first
    | assumption | apply Evolves.ite | apply dropJobReads_evolves | apply endJobs_evolves | apply waitJob_evolves | apply modTst_evolves
    | exact Nat.le_refl _ | exact Nat.le_add_right _ _ | exact fun h => h | intro _
theorem seedMasks_evolves (h : Evolves r s) : Evolves r (seedMasks s) := by
  unfold seedMasks; (try dsimp only); repeat' with_reducible first
    | assumption | apply Evolves.ite | apply Evolves.ite_snd | apply drbgTake_evolves | apply fillSlot_evolves
theorem countFailures_evolves (x1 : Nat) (h : Evolves r s) : Evolves r (countFailures x1 s) := by
  unfold countFailures; (try dsimp only); repeat' with_reducible first | assumption | apply Evolves.ite | apply modTst_evolves | exact fun h => h
theorem clearBuffers_evolves (x1 : BitVec 32) (h : Evolves r s) : Evolves r (clearBuffers x1 s) := by
  unfold clearBuffers; (try dsimp only); repeat' with_reducible first | assumption | apply modPla_evolves | apply Evolves.foldl | intro _
theorem wipePool_evolves (h : Evolves r s) : Evolves r (wipePool s) := by
  unfold wipePool
  exact modMem_evolves _ h (cells_filter_wf _ _)
theorem clearRange_evolves (x1 x2 : Nat) (h : Evolves r s) : Evolves r (clearRange x1 x2 s) := by
  unfold clearRange; dsimp only
  exact modMem_evolves _ (writeLines_evolves _ _ (writeLines_evolves _ _ h)) (cellWipe_wf _ _ _)
theorem logicDone_evolves (x1 : Job) (x2 : BitVec 32) (x3 : Nat) (x4 : List (BitVec 64)) (h : Evolves r s) : Evolves r (logicDone x1 x2 x3 x4 s) := by
  unfold logicDone; (try dsimp only); repeat' with_reducible first
    | assumption | apply Evolves.ite | apply finish_evolves | apply wipeSheets_evolves | apply clearBuffers_evolves | apply countFailures_evolves
    | exact Nat.le_refl _ | exact Nat.le_add_right _ _ | split
theorem memoryDone_evolves (x1 : Job) (x2 : BitVec 32) (x3 : Nat) (x4 : List (BitVec 64)) (h : Evolves r s) : Evolves r (memoryDone x1 x2 x3 x4
    s) := by
  unfold memoryDone; (try dsimp only); repeat' with_reducible first
    | assumption | apply Evolves.ite | apply wipeSheets_evolves | apply countFailures_evolves | apply finish_evolves | apply wipePool_evolves
    | exact Nat.le_refl _ | exact Nat.le_add_right _ _ | split | intro _
theorem patternDone_evolves (x1 : Job) (x2 : List PatternErr) (h : Evolves r s) : Evolves r (patternDone x1 x2 s) := by
  unfold patternDone; (try dsimp only); repeat' with_reducible first
    | assumption | apply Evolves.ite | apply Evolves.ite_snd | apply failReads_evolves | apply drawNat_evolves | apply finish_evolves
    | apply clearRange_evolves | apply countFailures_evolves | exact Nat.le_refl _ | exact Nat.le_add_right _ _ | split | intro _

/-! ## Spdm -/

theorem spdmError_evolves (x1 : String) (h : Evolves r s) : Evolves r (spdmError x1 s) := by
  unfold spdmError; (try dsimp only); repeat' with_reducible first | assumption | apply emit_evolves
theorem spdmBody_evolves (x1 : String) (h : Evolves r s) : Evolves r (spdmBody x1 s).2 := by
  unfold spdmBody; (try dsimp only); repeat' with_reducible first | assumption | apply set_draw_evolves | exact Nat.le_add_right _ _ | split
theorem spdmAnswer_evolves (x1 : String) (h : Evolves r s) : Evolves r (spdmAnswer x1 s) := by
  unfold spdmAnswer; (try dsimp only); repeat' with_reducible first | assumption | apply emit_evolves | apply spdmBody_evolves
theorem spdmAt_evolves (x1 : Nat) (x2 : State → State) (h : Evolves r s) (hx2 : ∀ y0, Evolves r y0 → Evolves r (x2 y0)) : Evolves r (spdmAt x1 s x2)
    := by
  unfold spdmAt; (try dsimp only); repeat' with_reducible first | assumption | apply Evolves.ite | apply spdmError_evolves | apply hx2 | intro _
theorem withAttest_evolves (x1 : KeySlot → State → State) (h : Evolves r s) (hx1 : ∀ y0 y1, Evolves r y1 → Evolves r (x1 y0 y1)) : Evolves r
    (withAttest s x1) := by
  unfold withAttest; (try dsimp only); repeat' with_reducible first
    | assumption | apply Evolves.ite | apply spdmError_evolves | apply hx1 | split | intro _
theorem withSign_evolves (x1 : Nat) (x2 : KeySlot → State → State) (h : Evolves r s) (hx2 : ∀ y0 y1, Evolves r y1 → Evolves r (x2 y0 y1)) :
    Evolves r (withSign x1 s x2) := by
  unfold withSign; (try dsimp only); repeat' with_reducible first
    | assumption | apply Evolves.ite | apply withAttest_evolves | apply spdmError_evolves | apply hx2 | exact Nat.le_refl _
    | exact Nat.le_add_right _ _ | intro _
theorem spdmSigned_evolves (x1 : String) (x2 : Bytes) (x3 : KeySlot) (h : Evolves r s) : Evolves r (spdmSigned x1 x2 x3 s) := by
  unfold spdmSigned; (try dsimp only); repeat' with_reducible first | assumption | apply emit_evolves | apply signWith_evolves
theorem inSession_evolves (x1 : State → State) (h : Evolves r s) (hx1 : ∀ y0, Evolves r y0 → Evolves r (x1 y0)) : Evolves r (inSession s x1) := by
  unfold inSession; (try dsimp only); repeat' with_reducible first | assumption | apply Evolves.ite | apply spdmError_evolves | apply hx1 | intro _
theorem modStream_evolves (x1 : Nat) (x2 : IdeStream → IdeStream) (h : Evolves r s) : Evolves r (modStream x1 x2 s) := by
  unfold modStream; (try dsimp only); repeat' with_reducible first | assumption | apply Evolves.ite | apply modHif_evolves
theorem tdisp_evolves (x1 : FnId) (x2 : State → State) (h : Evolves r s) (hx2 : ∀ y0, Evolves r y0 → Evolves r (x2 y0)) : Evolves r (tdisp x1 s x2)
    := by
  unfold tdisp; (try dsimp only); repeat' with_reducible first | assumption | apply Evolves.ite | apply spdmError_evolves | apply hx2 | intro _

end Sys2Proof.Machine
end

