-- ==== Sys2Proof/Laws/PerInstr.lean ====
section
/-! SUPPORT. The family of statements made instruction by instruction: a row that is a mailbox command carries an opcode of
Table 16-4. -/

open Sys2Proof

/-- An opcode that the row carries is one of Table 16-4 (R317). -/
def Sys2Proof.Laws.CommandOpcode.Statement (i : Instr) : Prop :=
  ∀ op, opcodeOf i = some op → op ∈ opcodeCatalogue

theorem Sys2Proof.Laws.CommandOpcode.listed {i : Instr} {op : Nat} (h : opcodeOf i = some op)
    (m : op ∈ opcodeCatalogue) : Sys2Proof.Laws.CommandOpcode.Statement i := by
  intro op' h'
  rw [h] at h'
  cases h'
  exact m

theorem Sys2Proof.Laws.CommandOpcode.unlisted {i : Instr} (h : opcodeOf i = none) :
    Sys2Proof.Laws.CommandOpcode.Statement i := by
  intro op' h'
  rw [h] at h'
  cases h'

theorem Sys2Proof.Laws.CommandOpcode.registerWrite (fn : FnId) (secure : Bool) (place : RegPlace) (width : Nat) (v : BitVec 64) : Sys2Proof.Laws.CommandOpcode.Statement (.registerWrite fn secure place width v) :=
  Sys2Proof.Laws.CommandOpcode.unlisted rfl

theorem Sys2Proof.Laws.CommandOpcode.badRegisterAccess (fn : FnId) (secure : Bool) (off : Nat) (width : Nat) (isWrite : Bool) : Sys2Proof.Laws.CommandOpcode.Statement (.badRegisterAccess fn secure off width isWrite) :=
  Sys2Proof.Laws.CommandOpcode.unlisted rfl

theorem Sys2Proof.Laws.CommandOpcode.loRegisterRead (secure : Bool) (r : LoReg) : Sys2Proof.Laws.CommandOpcode.Statement (.loRegisterRead secure r) :=
  Sys2Proof.Laws.CommandOpcode.unlisted rfl

theorem Sys2Proof.Laws.CommandOpcode.snapCtrlArm (secure : Bool) : Sys2Proof.Laws.CommandOpcode.Statement (.snapCtrlArm secure) :=
  Sys2Proof.Laws.CommandOpcode.unlisted rfl

theorem Sys2Proof.Laws.CommandOpcode.mailboxGo (mb : MbId) (secure : Bool) : Sys2Proof.Laws.CommandOpcode.Statement (.mailboxGo mb secure) :=
  Sys2Proof.Laws.CommandOpcode.unlisted rfl

theorem Sys2Proof.Laws.CommandOpcode.commandDispatch (mb : MbId) : Sys2Proof.Laws.CommandOpcode.Statement (.commandDispatch mb) :=
  Sys2Proof.Laws.CommandOpcode.unlisted rfl

theorem Sys2Proof.Laws.CommandOpcode.smbusBlockWrite (place : SmbPlace) (data : Bytes) (pecOk : Bool) : Sys2Proof.Laws.CommandOpcode.Statement (.smbusBlockWrite place data pecOk) :=
  Sys2Proof.Laws.CommandOpcode.unlisted rfl

theorem Sys2Proof.Laws.CommandOpcode.smbusProcessCall (place : SmbPlace) (count : Nat) (pecOk : Bool) : Sys2Proof.Laws.CommandOpcode.Statement (.smbusProcessCall place count pecOk) :=
  Sys2Proof.Laws.CommandOpcode.unlisted rfl

theorem Sys2Proof.Laws.CommandOpcode.identityGet (mb : MbId) : Sys2Proof.Laws.CommandOpcode.Statement (.identityGet mb) :=
  Sys2Proof.Laws.CommandOpcode.listed rfl (by decide)

theorem Sys2Proof.Laws.CommandOpcode.moduleStatus (mb : MbId) : Sys2Proof.Laws.CommandOpcode.Statement (.moduleStatus mb) :=
  Sys2Proof.Laws.CommandOpcode.listed rfl (by decide)

theorem Sys2Proof.Laws.CommandOpcode.eventRingSet (mb : MbId) : Sys2Proof.Laws.CommandOpcode.Statement (.eventRingSet mb) :=
  Sys2Proof.Laws.CommandOpcode.listed rfl (by decide)

theorem Sys2Proof.Laws.CommandOpcode.eventRingClear (mb : MbId) : Sys2Proof.Laws.CommandOpcode.Statement (.eventRingClear mb) :=
  Sys2Proof.Laws.CommandOpcode.listed rfl (by decide)

theorem Sys2Proof.Laws.CommandOpcode.lifecycleGet (mb : MbId) : Sys2Proof.Laws.CommandOpcode.Statement (.lifecycleGet mb) :=
  Sys2Proof.Laws.CommandOpcode.listed rfl (by decide)

theorem Sys2Proof.Laws.CommandOpcode.ownerClaim (mb : MbId) (sigOk : Bool) : Sys2Proof.Laws.CommandOpcode.Statement (.ownerClaim mb sigOk) :=
  Sys2Proof.Laws.CommandOpcode.listed rfl (by decide)

theorem Sys2Proof.Laws.CommandOpcode.modeSet (mb : MbId) (sigOk : Bool) : Sys2Proof.Laws.CommandOpcode.Statement (.modeSet mb sigOk) :=
  Sys2Proof.Laws.CommandOpcode.listed rfl (by decide)

theorem Sys2Proof.Laws.CommandOpcode.ownerRelease (mb : MbId) (sigOk : Bool) : Sys2Proof.Laws.CommandOpcode.Statement (.ownerRelease mb sigOk) :=
  Sys2Proof.Laws.CommandOpcode.listed rfl (by decide)

theorem Sys2Proof.Laws.CommandOpcode.retire (mb : MbId) (sigOk : Bool) : Sys2Proof.Laws.CommandOpcode.Statement (.retire mb sigOk) :=
  Sys2Proof.Laws.CommandOpcode.listed rfl (by decide)

theorem Sys2Proof.Laws.CommandOpcode.tamperUnlock (m : MbSensors) (sigOk : Bool) : Sys2Proof.Laws.CommandOpcode.Statement (.tamperUnlock m sigOk) :=
  Sys2Proof.Laws.CommandOpcode.listed rfl (by decide)

theorem Sys2Proof.Laws.CommandOpcode.keyGenerate (mb : MbId) : Sys2Proof.Laws.CommandOpcode.Statement (.keyGenerate mb) :=
  Sys2Proof.Laws.CommandOpcode.listed rfl (by decide)

theorem Sys2Proof.Laws.CommandOpcode.keyImportWrapped (mb : MbId) : Sys2Proof.Laws.CommandOpcode.Statement (.keyImportWrapped mb) :=
  Sys2Proof.Laws.CommandOpcode.listed rfl (by decide)

theorem Sys2Proof.Laws.CommandOpcode.keyDestroy (mb : MbId) : Sys2Proof.Laws.CommandOpcode.Statement (.keyDestroy mb) :=
  Sys2Proof.Laws.CommandOpcode.listed rfl (by decide)

theorem Sys2Proof.Laws.CommandOpcode.keySlotStatus (mb : MbId) : Sys2Proof.Laws.CommandOpcode.Statement (.keySlotStatus mb) :=
  Sys2Proof.Laws.CommandOpcode.listed rfl (by decide)

theorem Sys2Proof.Laws.CommandOpcode.keyOriginStatement (mb : MbId) : Sys2Proof.Laws.CommandOpcode.Statement (.keyOriginStatement mb) :=
  Sys2Proof.Laws.CommandOpcode.listed rfl (by decide)

theorem Sys2Proof.Laws.CommandOpcode.attestReport (mb : MbId) : Sys2Proof.Laws.CommandOpcode.Statement (.attestReport mb) :=
  Sys2Proof.Laws.CommandOpcode.listed rfl (by decide)

theorem Sys2Proof.Laws.CommandOpcode.certChainGet (mb : MbId) : Sys2Proof.Laws.CommandOpcode.Statement (.certChainGet mb) :=
  Sys2Proof.Laws.CommandOpcode.listed rfl (by decide)

theorem Sys2Proof.Laws.CommandOpcode.plateKeyEnroll (mb : MbId) (sigOk : Bool) : Sys2Proof.Laws.CommandOpcode.Statement (.plateKeyEnroll mb sigOk) :=
  Sys2Proof.Laws.CommandOpcode.listed rfl (by decide)

theorem Sys2Proof.Laws.CommandOpcode.hbmKeyRotate (mb : MbId) : Sys2Proof.Laws.CommandOpcode.Statement (.hbmKeyRotate mb) :=
  Sys2Proof.Laws.CommandOpcode.listed rfl (by decide)

theorem Sys2Proof.Laws.CommandOpcode.randomGet (mb : MbId) : Sys2Proof.Laws.CommandOpcode.Statement (.randomGet mb) :=
  Sys2Proof.Laws.CommandOpcode.listed rfl (by decide)

theorem Sys2Proof.Laws.CommandOpcode.randomGetTimeout (mb : MbId) : Sys2Proof.Laws.CommandOpcode.Statement (.randomGetTimeout mb) :=
  Sys2Proof.Laws.CommandOpcode.unlisted rfl

theorem Sys2Proof.Laws.CommandOpcode.plateStage (m : MbReads) (sigOk : Bool) : Sys2Proof.Laws.CommandOpcode.Statement (.plateStage m sigOk) :=
  Sys2Proof.Laws.CommandOpcode.listed rfl (by decide)

theorem Sys2Proof.Laws.CommandOpcode.plateBind (mb : MbId) : Sys2Proof.Laws.CommandOpcode.Statement (.plateBind mb) :=
  Sys2Proof.Laws.CommandOpcode.listed rfl (by decide)

theorem Sys2Proof.Laws.CommandOpcode.plateUnstage (mb : MbId) : Sys2Proof.Laws.CommandOpcode.Statement (.plateUnstage mb) :=
  Sys2Proof.Laws.CommandOpcode.listed rfl (by decide)

theorem Sys2Proof.Laws.CommandOpcode.fabricStatus (mb : MbId) : Sys2Proof.Laws.CommandOpcode.Statement (.fabricStatus mb) :=
  Sys2Proof.Laws.CommandOpcode.listed rfl (by decide)

theorem Sys2Proof.Laws.CommandOpcode.decodeOpen (mb : MbId) : Sys2Proof.Laws.CommandOpcode.Statement (.decodeOpen mb) :=
  Sys2Proof.Laws.CommandOpcode.listed rfl (by decide)

theorem Sys2Proof.Laws.CommandOpcode.weightsLoad (m : MbReads) : Sys2Proof.Laws.CommandOpcode.Statement (.weightsLoad m) :=
  Sys2Proof.Laws.CommandOpcode.listed rfl (by decide)

theorem Sys2Proof.Laws.CommandOpcode.draftLoad (m : MbReads) : Sys2Proof.Laws.CommandOpcode.Statement (.draftLoad m) :=
  Sys2Proof.Laws.CommandOpcode.listed rfl (by decide)

theorem Sys2Proof.Laws.CommandOpcode.weightsUnload (mb : MbId) : Sys2Proof.Laws.CommandOpcode.Statement (.weightsUnload mb) :=
  Sys2Proof.Laws.CommandOpcode.listed rfl (by decide)

theorem Sys2Proof.Laws.CommandOpcode.decodeFinish (mb : MbId) : Sys2Proof.Laws.CommandOpcode.Statement (.decodeFinish mb) :=
  Sys2Proof.Laws.CommandOpcode.listed rfl (by decide)

theorem Sys2Proof.Laws.CommandOpcode.decodeClose (mb : MbId) : Sys2Proof.Laws.CommandOpcode.Statement (.decodeClose mb) :=
  Sys2Proof.Laws.CommandOpcode.listed rfl (by decide)

theorem Sys2Proof.Laws.CommandOpcode.decodeStatus (mb : MbId) : Sys2Proof.Laws.CommandOpcode.Statement (.decodeStatus mb) :=
  Sys2Proof.Laws.CommandOpcode.listed rfl (by decide)

theorem Sys2Proof.Laws.CommandOpcode.replayVerify (m : MbReads) (sigOk : Bool) : Sys2Proof.Laws.CommandOpcode.Statement (.replayVerify m sigOk) :=
  Sys2Proof.Laws.CommandOpcode.listed rfl (by decide)

theorem Sys2Proof.Laws.CommandOpcode.ringForm (mb : MbId) : Sys2Proof.Laws.CommandOpcode.Statement (.ringForm mb) :=
  Sys2Proof.Laws.CommandOpcode.listed rfl (by decide)

theorem Sys2Proof.Laws.CommandOpcode.ringFormTimeout (mb : MbId) : Sys2Proof.Laws.CommandOpcode.Statement (.ringFormTimeout mb) :=
  Sys2Proof.Laws.CommandOpcode.unlisted rfl

theorem Sys2Proof.Laws.CommandOpcode.ringStatus (mb : MbId) : Sys2Proof.Laws.CommandOpcode.Statement (.ringStatus mb) :=
  Sys2Proof.Laws.CommandOpcode.listed rfl (by decide)

theorem Sys2Proof.Laws.CommandOpcode.ringDissolve (mb : MbId) : Sys2Proof.Laws.CommandOpcode.Statement (.ringDissolve mb) :=
  Sys2Proof.Laws.CommandOpcode.listed rfl (by decide)

theorem Sys2Proof.Laws.CommandOpcode.ringSpareJoin (mb : MbId) : Sys2Proof.Laws.CommandOpcode.Statement (.ringSpareJoin mb) :=
  Sys2Proof.Laws.CommandOpcode.listed rfl (by decide)

theorem Sys2Proof.Laws.CommandOpcode.ringAdmit (mb : MbId) : Sys2Proof.Laws.CommandOpcode.Statement (.ringAdmit mb) :=
  Sys2Proof.Laws.CommandOpcode.listed rfl (by decide)

theorem Sys2Proof.Laws.CommandOpcode.roundOpen (mb : MbId) : Sys2Proof.Laws.CommandOpcode.Statement (.roundOpen mb) :=
  Sys2Proof.Laws.CommandOpcode.listed rfl (by decide)

theorem Sys2Proof.Laws.CommandOpcode.roundClose (mb : MbId) : Sys2Proof.Laws.CommandOpcode.Statement (.roundClose mb) :=
  Sys2Proof.Laws.CommandOpcode.listed rfl (by decide)

theorem Sys2Proof.Laws.CommandOpcode.roundCorrect (m : MbReads) : Sys2Proof.Laws.CommandOpcode.Statement (.roundCorrect m) :=
  Sys2Proof.Laws.CommandOpcode.listed rfl (by decide)

theorem Sys2Proof.Laws.CommandOpcode.roundRelease (m : MbReads) : Sys2Proof.Laws.CommandOpcode.Statement (.roundRelease m) :=
  Sys2Proof.Laws.CommandOpcode.listed rfl (by decide)

theorem Sys2Proof.Laws.CommandOpcode.roundAbort (mb : MbId) : Sys2Proof.Laws.CommandOpcode.Statement (.roundAbort mb) :=
  Sys2Proof.Laws.CommandOpcode.listed rfl (by decide)

theorem Sys2Proof.Laws.CommandOpcode.roundStatus (mb : MbId) : Sys2Proof.Laws.CommandOpcode.Statement (.roundStatus mb) :=
  Sys2Proof.Laws.CommandOpcode.listed rfl (by decide)

theorem Sys2Proof.Laws.CommandOpcode.roundCounts (mb : MbId) : Sys2Proof.Laws.CommandOpcode.Statement (.roundCounts mb) :=
  Sys2Proof.Laws.CommandOpcode.listed rfl (by decide)

theorem Sys2Proof.Laws.CommandOpcode.roundBitmap (mb : MbId) : Sys2Proof.Laws.CommandOpcode.Statement (.roundBitmap mb) :=
  Sys2Proof.Laws.CommandOpcode.listed rfl (by decide)

theorem Sys2Proof.Laws.CommandOpcode.hevCtxOpen (mb : MbId) : Sys2Proof.Laws.CommandOpcode.Statement (.hevCtxOpen mb) :=
  Sys2Proof.Laws.CommandOpcode.listed rfl (by decide)

theorem Sys2Proof.Laws.CommandOpcode.hevCtxClose (mb : MbId) : Sys2Proof.Laws.CommandOpcode.Statement (.hevCtxClose mb) :=
  Sys2Proof.Laws.CommandOpcode.listed rfl (by decide)

theorem Sys2Proof.Laws.CommandOpcode.hevKeyLoad (m : MbReads) : Sys2Proof.Laws.CommandOpcode.Statement (.hevKeyLoad m) :=
  Sys2Proof.Laws.CommandOpcode.listed rfl (by decide)

theorem Sys2Proof.Laws.CommandOpcode.hevKeyDrop (mb : MbId) : Sys2Proof.Laws.CommandOpcode.Statement (.hevKeyDrop mb) :=
  Sys2Proof.Laws.CommandOpcode.listed rfl (by decide)

theorem Sys2Proof.Laws.CommandOpcode.hevCtxStatus (mb : MbId) : Sys2Proof.Laws.CommandOpcode.Statement (.hevCtxStatus mb) :=
  Sys2Proof.Laws.CommandOpcode.listed rfl (by decide)

theorem Sys2Proof.Laws.CommandOpcode.hevBurnishSet (mb : MbId) : Sys2Proof.Laws.CommandOpcode.Statement (.hevBurnishSet mb) :=
  Sys2Proof.Laws.CommandOpcode.listed rfl (by decide)

theorem Sys2Proof.Laws.CommandOpcode.portSet (mb : MbId) : Sys2Proof.Laws.CommandOpcode.Statement (.portSet mb) :=
  Sys2Proof.Laws.CommandOpcode.listed rfl (by decide)

theorem Sys2Proof.Laws.CommandOpcode.portStatus (mb : MbId) : Sys2Proof.Laws.CommandOpcode.Statement (.portStatus mb) :=
  Sys2Proof.Laws.CommandOpcode.listed rfl (by decide)

theorem Sys2Proof.Laws.CommandOpcode.macsecSaSet (mb : MbId) : Sys2Proof.Laws.CommandOpcode.Statement (.macsecSaSet mb) :=
  Sys2Proof.Laws.CommandOpcode.listed rfl (by decide)

theorem Sys2Proof.Laws.CommandOpcode.macsecSaClear (mb : MbId) : Sys2Proof.Laws.CommandOpcode.Statement (.macsecSaClear mb) :=
  Sys2Proof.Laws.CommandOpcode.listed rfl (by decide)

theorem Sys2Proof.Laws.CommandOpcode.linkRekey (mb : MbId) : Sys2Proof.Laws.CommandOpcode.Statement (.linkRekey mb) :=
  Sys2Proof.Laws.CommandOpcode.listed rfl (by decide)

theorem Sys2Proof.Laws.CommandOpcode.rdmPdAlloc (mb : MbId) : Sys2Proof.Laws.CommandOpcode.Statement (.rdmPdAlloc mb) :=
  Sys2Proof.Laws.CommandOpcode.listed rfl (by decide)

theorem Sys2Proof.Laws.CommandOpcode.rdmPdFree (mb : MbId) : Sys2Proof.Laws.CommandOpcode.Statement (.rdmPdFree mb) :=
  Sys2Proof.Laws.CommandOpcode.listed rfl (by decide)

theorem Sys2Proof.Laws.CommandOpcode.rdmRegionReg (mb : MbId) : Sys2Proof.Laws.CommandOpcode.Statement (.rdmRegionReg mb) :=
  Sys2Proof.Laws.CommandOpcode.listed rfl (by decide)

theorem Sys2Proof.Laws.CommandOpcode.rdmRegionDereg (mb : MbId) : Sys2Proof.Laws.CommandOpcode.Statement (.rdmRegionDereg mb) :=
  Sys2Proof.Laws.CommandOpcode.listed rfl (by decide)

theorem Sys2Proof.Laws.CommandOpcode.rdmWindowOpen (mb : MbId) : Sys2Proof.Laws.CommandOpcode.Statement (.rdmWindowOpen mb) :=
  Sys2Proof.Laws.CommandOpcode.listed rfl (by decide)

theorem Sys2Proof.Laws.CommandOpcode.rdmWindowRevoke (mb : MbId) : Sys2Proof.Laws.CommandOpcode.Statement (.rdmWindowRevoke mb) :=
  Sys2Proof.Laws.CommandOpcode.listed rfl (by decide)

theorem Sys2Proof.Laws.CommandOpcode.rdmConnOpen (mb : MbId) : Sys2Proof.Laws.CommandOpcode.Statement (.rdmConnOpen mb) :=
  Sys2Proof.Laws.CommandOpcode.listed rfl (by decide)

theorem Sys2Proof.Laws.CommandOpcode.rdmConnClose (mb : MbId) : Sys2Proof.Laws.CommandOpcode.Statement (.rdmConnClose mb) :=
  Sys2Proof.Laws.CommandOpcode.listed rfl (by decide)

theorem Sys2Proof.Laws.CommandOpcode.rdmConnStatus (mb : MbId) : Sys2Proof.Laws.CommandOpcode.Statement (.rdmConnStatus mb) :=
  Sys2Proof.Laws.CommandOpcode.listed rfl (by decide)

theorem Sys2Proof.Laws.CommandOpcode.rdmTrigger (mb : MbId) : Sys2Proof.Laws.CommandOpcode.Statement (.rdmTrigger mb) :=
  Sys2Proof.Laws.CommandOpcode.listed rfl (by decide)

theorem Sys2Proof.Laws.CommandOpcode.wringCreate (mb : MbId) : Sys2Proof.Laws.CommandOpcode.Statement (.wringCreate mb) :=
  Sys2Proof.Laws.CommandOpcode.listed rfl (by decide)

theorem Sys2Proof.Laws.CommandOpcode.wringDestroy (mb : MbId) : Sys2Proof.Laws.CommandOpcode.Statement (.wringDestroy mb) :=
  Sys2Proof.Laws.CommandOpcode.listed rfl (by decide)

theorem Sys2Proof.Laws.CommandOpcode.cringCreate (mb : MbId) : Sys2Proof.Laws.CommandOpcode.Statement (.cringCreate mb) :=
  Sys2Proof.Laws.CommandOpcode.listed rfl (by decide)

theorem Sys2Proof.Laws.CommandOpcode.cringDestroy (mb : MbId) : Sys2Proof.Laws.CommandOpcode.Statement (.cringDestroy mb) :=
  Sys2Proof.Laws.CommandOpcode.listed rfl (by decide)

theorem Sys2Proof.Laws.CommandOpcode.wringStatus (mb : MbId) : Sys2Proof.Laws.CommandOpcode.Statement (.wringStatus mb) :=
  Sys2Proof.Laws.CommandOpcode.listed rfl (by decide)

theorem Sys2Proof.Laws.CommandOpcode.funcQuiesce (mb : MbId) : Sys2Proof.Laws.CommandOpcode.Statement (.funcQuiesce mb) :=
  Sys2Proof.Laws.CommandOpcode.listed rfl (by decide)

theorem Sys2Proof.Laws.CommandOpcode.bistLogic (mb : MbId) : Sys2Proof.Laws.CommandOpcode.Statement (.bistLogic mb) :=
  Sys2Proof.Laws.CommandOpcode.listed rfl (by decide)

theorem Sys2Proof.Laws.CommandOpcode.bistMemory (mb : MbId) : Sys2Proof.Laws.CommandOpcode.Statement (.bistMemory mb) :=
  Sys2Proof.Laws.CommandOpcode.listed rfl (by decide)

theorem Sys2Proof.Laws.CommandOpcode.hbmPatternTest (mb : MbId) : Sys2Proof.Laws.CommandOpcode.Statement (.hbmPatternTest mb) :=
  Sys2Proof.Laws.CommandOpcode.listed rfl (by decide)

theorem Sys2Proof.Laws.CommandOpcode.snapshotArm (mb : MbId) : Sys2Proof.Laws.CommandOpcode.Statement (.snapshotArm mb) :=
  Sys2Proof.Laws.CommandOpcode.listed rfl (by decide)

theorem Sys2Proof.Laws.CommandOpcode.snapshotRead (mb : MbId) : Sys2Proof.Laws.CommandOpcode.Statement (.snapshotRead mb) :=
  Sys2Proof.Laws.CommandOpcode.listed rfl (by decide)

theorem Sys2Proof.Laws.CommandOpcode.fwStage (m : MbReads) (sigOk : Bool) : Sys2Proof.Laws.CommandOpcode.Statement (.fwStage m sigOk) :=
  Sys2Proof.Laws.CommandOpcode.listed rfl (by decide)

theorem Sys2Proof.Laws.CommandOpcode.fwActivate (mb : MbId) : Sys2Proof.Laws.CommandOpcode.Statement (.fwActivate mb) :=
  Sys2Proof.Laws.CommandOpcode.listed rfl (by decide)

theorem Sys2Proof.Laws.CommandOpcode.fwStatus (mb : MbId) : Sys2Proof.Laws.CommandOpcode.Statement (.fwStatus mb) :=
  Sys2Proof.Laws.CommandOpcode.listed rfl (by decide)

theorem Sys2Proof.Laws.CommandOpcode.rollbackAdvance (mb : MbId) : Sys2Proof.Laws.CommandOpcode.Statement (.rollbackAdvance mb) :=
  Sys2Proof.Laws.CommandOpcode.listed rfl (by decide)

theorem Sys2Proof.Laws.CommandOpcode.workRingDoorbell (fn : FnId) (secure : Bool) (ring : Nat) (v : BitVec 64) : Sys2Proof.Laws.CommandOpcode.Statement (.workRingDoorbell fn secure ring v) :=
  Sys2Proof.Laws.CommandOpcode.unlisted rfl

theorem Sys2Proof.Laws.CommandOpcode.completionRingDoorbell (fn : FnId) (secure : Bool) (ring : Nat) (v : BitVec 64) : Sys2Proof.Laws.CommandOpcode.Statement (.completionRingDoorbell fn secure ring v) :=
  Sys2Proof.Laws.CommandOpcode.unlisted rfl

theorem Sys2Proof.Laws.CommandOpcode.eventRingDoorbell (secure : Bool) (v : BitVec 64) : Sys2Proof.Laws.CommandOpcode.Statement (.eventRingDoorbell secure v) :=
  Sys2Proof.Laws.CommandOpcode.unlisted rfl

theorem Sys2Proof.Laws.CommandOpcode.descriptorFetch (f : FnReads) : Sys2Proof.Laws.CommandOpcode.Statement (.descriptorFetch f) :=
  Sys2Proof.Laws.CommandOpcode.unlisted rfl

theorem Sys2Proof.Laws.CommandOpcode.completionCoalesceExpire (cring : Nat) : Sys2Proof.Laws.CommandOpcode.Statement (.completionCoalesceExpire cring) :=
  Sys2Proof.Laws.CommandOpcode.unlisted rfl

theorem Sys2Proof.Laws.CommandOpcode.wringDrainDone (wring : Nat) : Sys2Proof.Laws.CommandOpcode.Statement (.wringDrainDone wring) :=
  Sys2Proof.Laws.CommandOpcode.unlisted rfl

theorem Sys2Proof.Laws.CommandOpcode.decodeInputDescriptor (d : DescReads) : Sys2Proof.Laws.CommandOpcode.Statement (.decodeInputDescriptor d) :=
  Sys2Proof.Laws.CommandOpcode.unlisted rfl

theorem Sys2Proof.Laws.CommandOpcode.decodeOutputDescriptor (d : Nat) : Sys2Proof.Laws.CommandOpcode.Statement (.decodeOutputDescriptor d) :=
  Sys2Proof.Laws.CommandOpcode.unlisted rfl

theorem Sys2Proof.Laws.CommandOpcode.hevImport (d : DescReads) : Sys2Proof.Laws.CommandOpcode.Statement (.hevImport d) :=
  Sys2Proof.Laws.CommandOpcode.unlisted rfl

theorem Sys2Proof.Laws.CommandOpcode.hevExport (d : Nat) : Sys2Proof.Laws.CommandOpcode.Statement (.hevExport d) :=
  Sys2Proof.Laws.CommandOpcode.unlisted rfl

theorem Sys2Proof.Laws.CommandOpcode.hevAdd (d : Nat) : Sys2Proof.Laws.CommandOpcode.Statement (.hevAdd d) :=
  Sys2Proof.Laws.CommandOpcode.unlisted rfl

theorem Sys2Proof.Laws.CommandOpcode.hevSub (d : Nat) : Sys2Proof.Laws.CommandOpcode.Statement (.hevSub d) :=
  Sys2Proof.Laws.CommandOpcode.unlisted rfl

theorem Sys2Proof.Laws.CommandOpcode.hevNeg (d : Nat) : Sys2Proof.Laws.CommandOpcode.Statement (.hevNeg d) :=
  Sys2Proof.Laws.CommandOpcode.unlisted rfl

theorem Sys2Proof.Laws.CommandOpcode.hevAddPlain (d : Nat) : Sys2Proof.Laws.CommandOpcode.Statement (.hevAddPlain d) :=
  Sys2Proof.Laws.CommandOpcode.unlisted rfl

theorem Sys2Proof.Laws.CommandOpcode.hevMulPlain (d : Nat) : Sys2Proof.Laws.CommandOpcode.Statement (.hevMulPlain d) :=
  Sys2Proof.Laws.CommandOpcode.unlisted rfl

theorem Sys2Proof.Laws.CommandOpcode.hevMul (d : Nat) : Sys2Proof.Laws.CommandOpcode.Statement (.hevMul d) :=
  Sys2Proof.Laws.CommandOpcode.unlisted rfl

theorem Sys2Proof.Laws.CommandOpcode.hevRescale (d : Nat) : Sys2Proof.Laws.CommandOpcode.Statement (.hevRescale d) :=
  Sys2Proof.Laws.CommandOpcode.unlisted rfl

theorem Sys2Proof.Laws.CommandOpcode.hevDrop (d : Nat) : Sys2Proof.Laws.CommandOpcode.Statement (.hevDrop d) :=
  Sys2Proof.Laws.CommandOpcode.unlisted rfl

theorem Sys2Proof.Laws.CommandOpcode.hevAutomorph (d : Nat) : Sys2Proof.Laws.CommandOpcode.Statement (.hevAutomorph d) :=
  Sys2Proof.Laws.CommandOpcode.unlisted rfl

theorem Sys2Proof.Laws.CommandOpcode.hevRotsum (d : DescReads) : Sys2Proof.Laws.CommandOpcode.Statement (.hevRotsum d) :=
  Sys2Proof.Laws.CommandOpcode.unlisted rfl

theorem Sys2Proof.Laws.CommandOpcode.hevNtt (d : Nat) : Sys2Proof.Laws.CommandOpcode.Statement (.hevNtt d) :=
  Sys2Proof.Laws.CommandOpcode.unlisted rfl

theorem Sys2Proof.Laws.CommandOpcode.hevIntt (d : Nat) : Sys2Proof.Laws.CommandOpcode.Statement (.hevIntt d) :=
  Sys2Proof.Laws.CommandOpcode.unlisted rfl

theorem Sys2Proof.Laws.CommandOpcode.burnish (d : Nat) : Sys2Proof.Laws.CommandOpcode.Statement (.burnish d) :=
  Sys2Proof.Laws.CommandOpcode.unlisted rfl

theorem Sys2Proof.Laws.CommandOpcode.hevOpBegin (d : Nat) : Sys2Proof.Laws.CommandOpcode.Statement (.hevOpBegin d) :=
  Sys2Proof.Laws.CommandOpcode.unlisted rfl

theorem Sys2Proof.Laws.CommandOpcode.hevOpComplete (d : Nat) (ev : HevEvent) : Sys2Proof.Laws.CommandOpcode.Statement (.hevOpComplete d ev) :=
  Sys2Proof.Laws.CommandOpcode.unlisted rfl

theorem Sys2Proof.Laws.CommandOpcode.rdmSend (d : DescReads) : Sys2Proof.Laws.CommandOpcode.Statement (.rdmSend d) :=
  Sys2Proof.Laws.CommandOpcode.unlisted rfl

theorem Sys2Proof.Laws.CommandOpcode.rdmSendImm (d : DescReads) : Sys2Proof.Laws.CommandOpcode.Statement (.rdmSendImm d) :=
  Sys2Proof.Laws.CommandOpcode.unlisted rfl

theorem Sys2Proof.Laws.CommandOpcode.rdmWrite (d : DescReads) : Sys2Proof.Laws.CommandOpcode.Statement (.rdmWrite d) :=
  Sys2Proof.Laws.CommandOpcode.unlisted rfl

theorem Sys2Proof.Laws.CommandOpcode.rdmWriteImm (d : DescReads) : Sys2Proof.Laws.CommandOpcode.Statement (.rdmWriteImm d) :=
  Sys2Proof.Laws.CommandOpcode.unlisted rfl

theorem Sys2Proof.Laws.CommandOpcode.rdmRead (d : Nat) : Sys2Proof.Laws.CommandOpcode.Statement (.rdmRead d) :=
  Sys2Proof.Laws.CommandOpcode.unlisted rfl

theorem Sys2Proof.Laws.CommandOpcode.rdmReceivePost (d : Nat) : Sys2Proof.Laws.CommandOpcode.Statement (.rdmReceivePost d) :=
  Sys2Proof.Laws.CommandOpcode.unlisted rfl

theorem Sys2Proof.Laws.CommandOpcode.triggeredRequestFire (d : DescReads) : Sys2Proof.Laws.CommandOpcode.Statement (.triggeredRequestFire d) :=
  Sys2Proof.Laws.CommandOpcode.unlisted rfl

theorem Sys2Proof.Laws.CommandOpcode.actionBegin (a : ActionReads) : Sys2Proof.Laws.CommandOpcode.Statement (.actionBegin a) :=
  Sys2Proof.Laws.CommandOpcode.unlisted rfl

theorem Sys2Proof.Laws.CommandOpcode.actionComplete (a : Nat) (upset : List (Nat × Bytes)) : Sys2Proof.Laws.CommandOpcode.Statement (.actionComplete a upset) :=
  Sys2Proof.Laws.CommandOpcode.unlisted rfl

theorem Sys2Proof.Laws.CommandOpcode.pressAdvance : Sys2Proof.Laws.CommandOpcode.Statement .pressAdvance :=
  Sys2Proof.Laws.CommandOpcode.unlisted rfl

theorem Sys2Proof.Laws.CommandOpcode.idleStroke : Sys2Proof.Laws.CommandOpcode.Statement .idleStroke :=
  Sys2Proof.Laws.CommandOpcode.unlisted rfl

theorem Sys2Proof.Laws.CommandOpcode.pressStall : Sys2Proof.Laws.CommandOpcode.Statement .pressStall :=
  Sys2Proof.Laws.CommandOpcode.unlisted rfl

theorem Sys2Proof.Laws.CommandOpcode.snapshotDone : Sys2Proof.Laws.CommandOpcode.Statement .snapshotDone :=
  Sys2Proof.Laws.CommandOpcode.unlisted rfl

theorem Sys2Proof.Laws.CommandOpcode.plateLoadComplete (plate : Nat) (bad : List MemFail) : Sys2Proof.Laws.CommandOpcode.Statement (.plateLoadComplete plate bad) :=
  Sys2Proof.Laws.CommandOpcode.unlisted rfl

theorem Sys2Proof.Laws.CommandOpcode.prefillChunk : Sys2Proof.Laws.CommandOpcode.Statement .prefillChunk :=
  Sys2Proof.Laws.CommandOpcode.unlisted rfl

theorem Sys2Proof.Laws.CommandOpcode.verificationStep : Sys2Proof.Laws.CommandOpcode.Statement .verificationStep :=
  Sys2Proof.Laws.CommandOpcode.unlisted rfl

theorem Sys2Proof.Laws.CommandOpcode.stepCommit : Sys2Proof.Laws.CommandOpcode.Statement .stepCommit :=
  Sys2Proof.Laws.CommandOpcode.unlisted rfl

theorem Sys2Proof.Laws.CommandOpcode.sessionResume : Sys2Proof.Laws.CommandOpcode.Statement .sessionResume :=
  Sys2Proof.Laws.CommandOpcode.unlisted rfl

theorem Sys2Proof.Laws.CommandOpcode.openDigestExchange (digests : List (Nat × Bytes)) : Sys2Proof.Laws.CommandOpcode.Statement (.openDigestExchange digests) :=
  Sys2Proof.Laws.CommandOpcode.unlisted rfl

theorem Sys2Proof.Laws.CommandOpcode.openJoinTimeout (member : Nat) : Sys2Proof.Laws.CommandOpcode.Statement (.openJoinTimeout member) :=
  Sys2Proof.Laws.CommandOpcode.unlisted rfl

theorem Sys2Proof.Laws.CommandOpcode.ringFrameReceive (port : PortId) (f : RingFrame) : Sys2Proof.Laws.CommandOpcode.Statement (.ringFrameReceive port f) :=
  Sys2Proof.Laws.CommandOpcode.unlisted rfl

theorem Sys2Proof.Laws.CommandOpcode.ringDelimiterReceive (port : PortId) (d : Heard Delimiter) : Sys2Proof.Laws.CommandOpcode.Statement (.ringDelimiterReceive port d) :=
  Sys2Proof.Laws.CommandOpcode.unlisted rfl

theorem Sys2Proof.Laws.CommandOpcode.ringRetxTimeout (port : PortId) : Sys2Proof.Laws.CommandOpcode.Statement (.ringRetxTimeout port) :=
  Sys2Proof.Laws.CommandOpcode.unlisted rfl

theorem Sys2Proof.Laws.CommandOpcode.ringIdleDelimiter (port : PortId) : Sys2Proof.Laws.CommandOpcode.Statement (.ringIdleDelimiter port) :=
  Sys2Proof.Laws.CommandOpcode.unlisted rfl

theorem Sys2Proof.Laws.CommandOpcode.keepaliveSend (port : PortId) : Sys2Proof.Laws.CommandOpcode.Statement (.keepaliveSend port) :=
  Sys2Proof.Laws.CommandOpcode.unlisted rfl

theorem Sys2Proof.Laws.CommandOpcode.keepaliveReceive (port : PortId) (src : Nat) (stroke : Nat) (epoch : Nat) (state : Nat) : Sys2Proof.Laws.CommandOpcode.Statement (.keepaliveReceive port src stroke epoch state) :=
  Sys2Proof.Laws.CommandOpcode.unlisted rfl

theorem Sys2Proof.Laws.CommandOpcode.linkSilenceTimeout (member : Nat) (port : PortId) : Sys2Proof.Laws.CommandOpcode.Statement (.linkSilenceTimeout member port) :=
  Sys2Proof.Laws.CommandOpcode.unlisted rfl

theorem Sys2Proof.Laws.CommandOpcode.progressTimeout (member : Nat) : Sys2Proof.Laws.CommandOpcode.Statement (.progressTimeout member) :=
  Sys2Proof.Laws.CommandOpcode.unlisted rfl

theorem Sys2Proof.Laws.CommandOpcode.suspicionReceive (src : Nat) (x : Suspicion) : Sys2Proof.Laws.CommandOpcode.Statement (.suspicionReceive src x) :=
  Sys2Proof.Laws.CommandOpcode.unlisted rfl

theorem Sys2Proof.Laws.CommandOpcode.selfReportReceive (member : Nat) : Sys2Proof.Laws.CommandOpcode.Statement (.selfReportReceive member) :=
  Sys2Proof.Laws.CommandOpcode.unlisted rfl

theorem Sys2Proof.Laws.CommandOpcode.stepDigestVote : Sys2Proof.Laws.CommandOpcode.Statement .stepDigestVote :=
  Sys2Proof.Laws.CommandOpcode.unlisted rfl

theorem Sys2Proof.Laws.CommandOpcode.viewFrameReceive (v : ViewFrame) : Sys2Proof.Laws.CommandOpcode.Statement (.viewFrameReceive v) :=
  Sys2Proof.Laws.CommandOpcode.unlisted rfl

theorem Sys2Proof.Laws.CommandOpcode.reformTimeout : Sys2Proof.Laws.CommandOpcode.Statement .reformTimeout :=
  Sys2Proof.Laws.CommandOpcode.unlisted rfl

theorem Sys2Proof.Laws.CommandOpcode.mirrorRebuildDone (first : Nat) (count : Nat) : Sys2Proof.Laws.CommandOpcode.Statement (.mirrorRebuildDone first count) :=
  Sys2Proof.Laws.CommandOpcode.unlisted rfl

theorem Sys2Proof.Laws.CommandOpcode.spareHandover (index : Nat) : Sys2Proof.Laws.CommandOpcode.Statement (.spareHandover index) :=
  Sys2Proof.Laws.CommandOpcode.unlisted rfl

theorem Sys2Proof.Laws.CommandOpcode.ringHandshakeInitReceive (port : PortId) (h : Handshake) : Sys2Proof.Laws.CommandOpcode.Statement (.ringHandshakeInitReceive port h) :=
  Sys2Proof.Laws.CommandOpcode.unlisted rfl

theorem Sys2Proof.Laws.CommandOpcode.ringHandshakeResponseReceive (port : PortId) (h : Handshake) : Sys2Proof.Laws.CommandOpcode.Statement (.ringHandshakeResponseReceive port h) :=
  Sys2Proof.Laws.CommandOpcode.unlisted rfl

theorem Sys2Proof.Laws.CommandOpcode.rekeySwitch (port : PortId) : Sys2Proof.Laws.CommandOpcode.Statement (.rekeySwitch port) :=
  Sys2Proof.Laws.CommandOpcode.unlisted rfl

theorem Sys2Proof.Laws.CommandOpcode.rekeyRetry (port : PortId) : Sys2Proof.Laws.CommandOpcode.Statement (.rekeyRetry port) :=
  Sys2Proof.Laws.CommandOpcode.unlisted rfl

theorem Sys2Proof.Laws.CommandOpcode.portTrainAttempt (port : PortId) (ok : Bool) : Sys2Proof.Laws.CommandOpcode.Statement (.portTrainAttempt port ok) :=
  Sys2Proof.Laws.CommandOpcode.unlisted rfl

theorem Sys2Proof.Laws.CommandOpcode.portLinkUp (port : PortId) : Sys2Proof.Laws.CommandOpcode.Statement (.portLinkUp port) :=
  Sys2Proof.Laws.CommandOpcode.unlisted rfl

theorem Sys2Proof.Laws.CommandOpcode.linkDown (port : PortId) (reason : Heard Nat) : Sys2Proof.Laws.CommandOpcode.Statement (.linkDown port reason) :=
  Sys2Proof.Laws.CommandOpcode.unlisted rfl

theorem Sys2Proof.Laws.CommandOpcode.networkFrameReceive (port : PortId) (f : Heard NetFrame) : Sys2Proof.Laws.CommandOpcode.Statement (.networkFrameReceive port f) :=
  Sys2Proof.Laws.CommandOpcode.unlisted rfl

theorem Sys2Proof.Laws.CommandOpcode.pfcPauseReceive (port : PortId) (priority : Fin 8) : Sys2Proof.Laws.CommandOpcode.Statement (.pfcPauseReceive port priority) :=
  Sys2Proof.Laws.CommandOpcode.unlisted rfl

theorem Sys2Proof.Laws.CommandOpcode.roceRequestReceive (p : RocePacket) : Sys2Proof.Laws.CommandOpcode.Statement (.roceRequestReceive p) :=
  Sys2Proof.Laws.CommandOpcode.unlisted rfl

theorem Sys2Proof.Laws.CommandOpcode.roceAckReceive (qpn : Nat) (psn : Nat) (status : Option Nat) : Sys2Proof.Laws.CommandOpcode.Statement (.roceAckReceive qpn psn status) :=
  Sys2Proof.Laws.CommandOpcode.unlisted rfl

theorem Sys2Proof.Laws.CommandOpcode.roceReadResponseReceive (qpn : Nat) (psn : Nat) (data : PoolData) (last : Bool) : Sys2Proof.Laws.CommandOpcode.Statement (.roceReadResponseReceive qpn psn data last) :=
  Sys2Proof.Laws.CommandOpcode.unlisted rfl

theorem Sys2Proof.Laws.CommandOpcode.roceNakReceive (qpn : Nat) (psn : Nat) (kind : NakKind) : Sys2Proof.Laws.CommandOpcode.Statement (.roceNakReceive qpn psn kind) :=
  Sys2Proof.Laws.CommandOpcode.unlisted rfl

theorem Sys2Proof.Laws.CommandOpcode.psnSequenceNakReceive (qpn : Nat) (psn : Nat) : Sys2Proof.Laws.CommandOpcode.Statement (.psnSequenceNakReceive qpn psn) :=
  Sys2Proof.Laws.CommandOpcode.unlisted rfl

theorem Sys2Proof.Laws.CommandOpcode.rnrNakReceive (qpn : Nat) (psn : Nat) (timer : Nat) : Sys2Proof.Laws.CommandOpcode.Statement (.rnrNakReceive qpn psn timer) :=
  Sys2Proof.Laws.CommandOpcode.unlisted rfl

theorem Sys2Proof.Laws.CommandOpcode.rnrTimerExpire (conn : Nat) : Sys2Proof.Laws.CommandOpcode.Statement (.rnrTimerExpire conn) :=
  Sys2Proof.Laws.CommandOpcode.unlisted rfl

theorem Sys2Proof.Laws.CommandOpcode.ackTimeout (conn : Nat) : Sys2Proof.Laws.CommandOpcode.Statement (.ackTimeout conn) :=
  Sys2Proof.Laws.CommandOpcode.unlisted rfl

theorem Sys2Proof.Laws.CommandOpcode.contextFetchDone (conn : Nat) : Sys2Proof.Laws.CommandOpcode.Statement (.contextFetchDone conn) :=
  Sys2Proof.Laws.CommandOpcode.unlisted rfl

theorem Sys2Proof.Laws.CommandOpcode.cnpReceive (qpn : Nat) : Sys2Proof.Laws.CommandOpcode.Statement (.cnpReceive qpn) :=
  Sys2Proof.Laws.CommandOpcode.unlisted rfl

theorem Sys2Proof.Laws.CommandOpcode.rateIncreaseTimer (conn : Nat) : Sys2Proof.Laws.CommandOpcode.Statement (.rateIncreaseTimer conn) :=
  Sys2Proof.Laws.CommandOpcode.unlisted rfl

theorem Sys2Proof.Laws.CommandOpcode.finalWritePlace (conn : Nat) (psn : Nat) : Sys2Proof.Laws.CommandOpcode.Statement (.finalWritePlace conn psn) :=
  Sys2Proof.Laws.CommandOpcode.unlisted rfl

theorem Sys2Proof.Laws.CommandOpcode.revokeDone (key : Nat) : Sys2Proof.Laws.CommandOpcode.Statement (.revokeDone key) :=
  Sys2Proof.Laws.CommandOpcode.unlisted rfl

theorem Sys2Proof.Laws.CommandOpcode.stagingReserve : Sys2Proof.Laws.CommandOpcode.Statement .stagingReserve :=
  Sys2Proof.Laws.CommandOpcode.unlisted rfl

theorem Sys2Proof.Laws.CommandOpcode.sliceAdmission (id : Nat) (bad : List MemFail) : Sys2Proof.Laws.CommandOpcode.Statement (.sliceAdmission id bad) :=
  Sys2Proof.Laws.CommandOpcode.unlisted rfl

theorem Sys2Proof.Laws.CommandOpcode.roundClosed (round : Nat) : Sys2Proof.Laws.CommandOpcode.Statement (.roundClosed round) :=
  Sys2Proof.Laws.CommandOpcode.unlisted rfl

theorem Sys2Proof.Laws.CommandOpcode.eventIrqCoalesceExpire : Sys2Proof.Laws.CommandOpcode.Statement .eventIrqCoalesceExpire :=
  Sys2Proof.Laws.CommandOpcode.unlisted rfl

theorem Sys2Proof.Laws.CommandOpcode.bar2Read (fn : FnId) (off : Nat) (len : Nat) (secure : Bool) (bad : List MemFail) : Sys2Proof.Laws.CommandOpcode.Statement (.bar2Read fn off len secure bad) :=
  Sys2Proof.Laws.CommandOpcode.unlisted rfl

theorem Sys2Proof.Laws.CommandOpcode.bar2Write (fn : FnId) (off : Nat) (data : Bytes) (secure : Bool) (bad : List MemFail) : Sys2Proof.Laws.CommandOpcode.Statement (.bar2Write fn off data secure bad) :=
  Sys2Proof.Laws.CommandOpcode.unlisted rfl

theorem Sys2Proof.Laws.CommandOpcode.hostReadCompletion (rid : Nat) (ans : HostAnswer) : Sys2Proof.Laws.CommandOpcode.Statement (.hostReadCompletion rid ans) :=
  Sys2Proof.Laws.CommandOpcode.unlisted rfl

theorem Sys2Proof.Laws.CommandOpcode.hostCompletionTimeout (rid : Nat) : Sys2Proof.Laws.CommandOpcode.Statement (.hostCompletionTimeout rid) :=
  Sys2Proof.Laws.CommandOpcode.unlisted rfl

theorem Sys2Proof.Laws.CommandOpcode.flr (fn : FnId) : Sys2Proof.Laws.CommandOpcode.Statement (.flr fn) :=
  Sys2Proof.Laws.CommandOpcode.unlisted rfl

theorem Sys2Proof.Laws.CommandOpcode.flrPf0 : Sys2Proof.Laws.CommandOpcode.Statement .flrPf0 :=
  Sys2Proof.Laws.CommandOpcode.unlisted rfl

theorem Sys2Proof.Laws.CommandOpcode.hotReset : Sys2Proof.Laws.CommandOpcode.Statement .hotReset :=
  Sys2Proof.Laws.CommandOpcode.unlisted rfl

theorem Sys2Proof.Laws.CommandOpcode.busMasterEnableSet (fn : FnId) : Sys2Proof.Laws.CommandOpcode.Statement (.busMasterEnableSet fn) :=
  Sys2Proof.Laws.CommandOpcode.unlisted rfl

theorem Sys2Proof.Laws.CommandOpcode.getVersion : Sys2Proof.Laws.CommandOpcode.Statement .getVersion :=
  Sys2Proof.Laws.CommandOpcode.unlisted rfl

theorem Sys2Proof.Laws.CommandOpcode.getCapabilities : Sys2Proof.Laws.CommandOpcode.Statement .getCapabilities :=
  Sys2Proof.Laws.CommandOpcode.unlisted rfl

theorem Sys2Proof.Laws.CommandOpcode.negotiateAlgorithms (offersMlDsa offersMlKem : Bool) : Sys2Proof.Laws.CommandOpcode.Statement (.negotiateAlgorithms offersMlDsa offersMlKem) :=
  Sys2Proof.Laws.CommandOpcode.unlisted rfl

theorem Sys2Proof.Laws.CommandOpcode.getDigests : Sys2Proof.Laws.CommandOpcode.Statement .getDigests :=
  Sys2Proof.Laws.CommandOpcode.unlisted rfl

theorem Sys2Proof.Laws.CommandOpcode.getCertificate (off len : Nat) : Sys2Proof.Laws.CommandOpcode.Statement (.getCertificate off len) :=
  Sys2Proof.Laws.CommandOpcode.unlisted rfl

theorem Sys2Proof.Laws.CommandOpcode.challenge (nonce : Bytes) : Sys2Proof.Laws.CommandOpcode.Statement (.challenge nonce) :=
  Sys2Proof.Laws.CommandOpcode.unlisted rfl

theorem Sys2Proof.Laws.CommandOpcode.getMeasurements (nonce : Bytes) : Sys2Proof.Laws.CommandOpcode.Statement (.getMeasurements nonce) :=
  Sys2Proof.Laws.CommandOpcode.unlisted rfl

theorem Sys2Proof.Laws.CommandOpcode.keyExchange (encapKey : Bytes) : Sys2Proof.Laws.CommandOpcode.Statement (.keyExchange encapKey) :=
  Sys2Proof.Laws.CommandOpcode.unlisted rfl

theorem Sys2Proof.Laws.CommandOpcode.finish (verifyOk : Bool) : Sys2Proof.Laws.CommandOpcode.Statement (.finish verifyOk) :=
  Sys2Proof.Laws.CommandOpcode.unlisted rfl

theorem Sys2Proof.Laws.CommandOpcode.endSession : Sys2Proof.Laws.CommandOpcode.Statement .endSession :=
  Sys2Proof.Laws.CommandOpcode.unlisted rfl

theorem Sys2Proof.Laws.CommandOpcode.keyUpdate : Sys2Proof.Laws.CommandOpcode.Statement .keyUpdate :=
  Sys2Proof.Laws.CommandOpcode.unlisted rfl

theorem Sys2Proof.Laws.CommandOpcode.heartbeat : Sys2Proof.Laws.CommandOpcode.Statement .heartbeat :=
  Sys2Proof.Laws.CommandOpcode.unlisted rfl

theorem Sys2Proof.Laws.CommandOpcode.ideKmKeyProg (stream : Fin 2) (keySet : Fin 2) (dir : Fin 2) (sub : Fin 3) (key : Bytes) : Sys2Proof.Laws.CommandOpcode.Statement (.ideKmKeyProg stream keySet dir sub key) :=
  Sys2Proof.Laws.CommandOpcode.unlisted rfl

theorem Sys2Proof.Laws.CommandOpcode.kSetGo (stream : Fin 2) : Sys2Proof.Laws.CommandOpcode.Statement (.kSetGo stream) :=
  Sys2Proof.Laws.CommandOpcode.unlisted rfl

theorem Sys2Proof.Laws.CommandOpcode.ideIntegrityFail (stream : Fin 2) : Sys2Proof.Laws.CommandOpcode.Statement (.ideIntegrityFail stream) :=
  Sys2Proof.Laws.CommandOpcode.unlisted rfl

theorem Sys2Proof.Laws.CommandOpcode.lockInterfaceRequest (fn : FnId) : Sys2Proof.Laws.CommandOpcode.Statement (.lockInterfaceRequest fn) :=
  Sys2Proof.Laws.CommandOpcode.unlisted rfl

theorem Sys2Proof.Laws.CommandOpcode.startInterfaceRequest (fn : FnId) : Sys2Proof.Laws.CommandOpcode.Statement (.startInterfaceRequest fn) :=
  Sys2Proof.Laws.CommandOpcode.unlisted rfl

theorem Sys2Proof.Laws.CommandOpcode.stopInterfaceRequest (fn : FnId) : Sys2Proof.Laws.CommandOpcode.Statement (.stopInterfaceRequest fn) :=
  Sys2Proof.Laws.CommandOpcode.unlisted rfl

theorem Sys2Proof.Laws.CommandOpcode.getDeviceInterfaceReport (fn : FnId) : Sys2Proof.Laws.CommandOpcode.Statement (.getDeviceInterfaceReport fn) :=
  Sys2Proof.Laws.CommandOpcode.unlisted rfl

theorem Sys2Proof.Laws.CommandOpcode.cvuStart (secure : Bool) : Sys2Proof.Laws.CommandOpcode.Statement (.cvuStart secure) :=
  Sys2Proof.Laws.CommandOpcode.unlisted rfl

theorem Sys2Proof.Laws.CommandOpcode.cvuDataWrite (secure : Bool) (nbytes : Nat) (v : BitVec 32) : Sys2Proof.Laws.CommandOpcode.Statement (.cvuDataWrite secure nbytes v) :=
  Sys2Proof.Laws.CommandOpcode.unlisted rfl

theorem Sys2Proof.Laws.CommandOpcode.cvuByteStep : Sys2Proof.Laws.CommandOpcode.Statement .cvuByteStep :=
  Sys2Proof.Laws.CommandOpcode.unlisted rfl

theorem Sys2Proof.Laws.CommandOpcode.cvuResultRead (secure : Bool) : Sys2Proof.Laws.CommandOpcode.Statement (.cvuResultRead secure) :=
  Sys2Proof.Laws.CommandOpcode.unlisted rfl

theorem Sys2Proof.Laws.CommandOpcode.standbyRequest (secure : Bool) (v : BitVec 32) : Sys2Proof.Laws.CommandOpcode.Statement (.standbyRequest secure v) :=
  Sys2Proof.Laws.CommandOpcode.unlisted rfl

theorem Sys2Proof.Laws.CommandOpcode.debugBar0Access (port : DebugPort) (width : Nat) (write : Option (BitVec 64)) : Sys2Proof.Laws.CommandOpcode.Statement (.debugBar0Access port width write) :=
  Sys2Proof.Laws.CommandOpcode.unlisted rfl

theorem Sys2Proof.Laws.CommandOpcode.debugMemoryAccess (a : AddrReads) (len : Nat) (write : Option Bytes) : Sys2Proof.Laws.CommandOpcode.Statement (.debugMemoryAccess a len write) :=
  Sys2Proof.Laws.CommandOpcode.unlisted rfl

theorem Sys2Proof.Laws.CommandOpcode.debugHalt (core : Fin 4) : Sys2Proof.Laws.CommandOpcode.Statement (.debugHalt core) :=
  Sys2Proof.Laws.CommandOpcode.unlisted rfl

theorem Sys2Proof.Laws.CommandOpcode.debugStep (core : Fin 4) : Sys2Proof.Laws.CommandOpcode.Statement (.debugStep core) :=
  Sys2Proof.Laws.CommandOpcode.unlisted rfl

theorem Sys2Proof.Laws.CommandOpcode.debugResume (core : Fin 4) : Sys2Proof.Laws.CommandOpcode.Statement (.debugResume core) :=
  Sys2Proof.Laws.CommandOpcode.unlisted rfl

theorem Sys2Proof.Laws.CommandOpcode.powerOn : Sys2Proof.Laws.CommandOpcode.Statement .powerOn :=
  Sys2Proof.Laws.CommandOpcode.unlisted rfl

theorem Sys2Proof.Laws.CommandOpcode.resetNFall : Sys2Proof.Laws.CommandOpcode.Statement .resetNFall :=
  Sys2Proof.Laws.CommandOpcode.unlisted rfl

theorem Sys2Proof.Laws.CommandOpcode.coreResetQualify : Sys2Proof.Laws.CommandOpcode.Statement .coreResetQualify :=
  Sys2Proof.Laws.CommandOpcode.unlisted rfl

theorem Sys2Proof.Laws.CommandOpcode.resetStretchRelease : Sys2Proof.Laws.CommandOpcode.Statement .resetStretchRelease :=
  Sys2Proof.Laws.CommandOpcode.unlisted rfl

theorem Sys2Proof.Laws.CommandOpcode.systemResetQualify : Sys2Proof.Laws.CommandOpcode.Statement .systemResetQualify :=
  Sys2Proof.Laws.CommandOpcode.unlisted rfl

theorem Sys2Proof.Laws.CommandOpcode.resetNRise (carrierHigh : Bool) : Sys2Proof.Laws.CommandOpcode.Statement (.resetNRise carrierHigh) :=
  Sys2Proof.Laws.CommandOpcode.unlisted rfl

theorem Sys2Proof.Laws.CommandOpcode.optionLoadDone (records : List OptRecord) (missing secBootOk secOtherOk : Bool) : Sys2Proof.Laws.CommandOpcode.Statement (.optionLoadDone records missing secBootOk secOtherOk) :=
  Sys2Proof.Laws.CommandOpcode.unlisted rfl

theorem Sys2Proof.Laws.CommandOpcode.firmwareReady (ctrlBootOk ctrlOtherOk : Bool) : Sys2Proof.Laws.CommandOpcode.Statement (.firmwareReady ctrlBootOk ctrlOtherOk) :=
  Sys2Proof.Laws.CommandOpcode.unlisted rfl

theorem Sys2Proof.Laws.CommandOpcode.watchdogExpire (core : Fin 4) : Sys2Proof.Laws.CommandOpcode.Statement (.watchdogExpire core) :=
  Sys2Proof.Laws.CommandOpcode.unlisted rfl

theorem Sys2Proof.Laws.CommandOpcode.hbmZeroFillDone : Sys2Proof.Laws.CommandOpcode.Statement .hbmZeroFillDone :=
  Sys2Proof.Laws.CommandOpcode.unlisted rfl

theorem Sys2Proof.Laws.CommandOpcode.hbmSweepDone : Sys2Proof.Laws.CommandOpcode.Statement .hbmSweepDone :=
  Sys2Proof.Laws.CommandOpcode.unlisted rfl

theorem Sys2Proof.Laws.CommandOpcode.entropyBlock (src : Fin 8) (bits : BitVec 1024) : Sys2Proof.Laws.CommandOpcode.Statement (.entropyBlock src bits) :=
  Sys2Proof.Laws.CommandOpcode.unlisted rfl

theorem Sys2Proof.Laws.CommandOpcode.drbgInstantiate : Sys2Proof.Laws.CommandOpcode.Statement .drbgInstantiate :=
  Sys2Proof.Laws.CommandOpcode.unlisted rfl

theorem Sys2Proof.Laws.CommandOpcode.drbgReseed : Sys2Proof.Laws.CommandOpcode.Statement .drbgReseed :=
  Sys2Proof.Laws.CommandOpcode.unlisted rfl

theorem Sys2Proof.Laws.CommandOpcode.powerCapDecision (avgW : Nat) : Sys2Proof.Laws.CommandOpcode.Statement (.powerCapDecision avgW) :=
  Sys2Proof.Laws.CommandOpcode.unlisted rfl

theorem Sys2Proof.Laws.CommandOpcode.fastPowerLimit (watts : Nat) : Sys2Proof.Laws.CommandOpcode.Statement (.fastPowerLimit watts) :=
  Sys2Proof.Laws.CommandOpcode.unlisted rfl

theorem Sys2Proof.Laws.CommandOpcode.thermalSample (t0 t1 t2 t3 tio : Int) : Sys2Proof.Laws.CommandOpcode.Statement (.thermalSample t0 t1 t2 t3 tio) :=
  Sys2Proof.Laws.CommandOpcode.unlisted rfl

theorem Sys2Proof.Laws.CommandOpcode.thermalTrip (die : Fin 5) (tj : Int) : Sys2Proof.Laws.CommandOpcode.Statement (.thermalTrip die tj) :=
  Sys2Proof.Laws.CommandOpcode.unlisted rfl

theorem Sys2Proof.Laws.CommandOpcode.inputUndervoltage : Sys2Proof.Laws.CommandOpcode.Statement .inputUndervoltage :=
  Sys2Proof.Laws.CommandOpcode.unlisted rfl

theorem Sys2Proof.Laws.CommandOpcode.inputOvervoltage : Sys2Proof.Laws.CommandOpcode.Statement .inputOvervoltage :=
  Sys2Proof.Laws.CommandOpcode.unlisted rfl

theorem Sys2Proof.Laws.CommandOpcode.tamperAlarm (source : Nat) : Sys2Proof.Laws.CommandOpcode.Statement (.tamperAlarm source) :=
  Sys2Proof.Laws.CommandOpcode.unlisted rfl

theorem Sys2Proof.Laws.CommandOpcode.backupTamperLatch (source : Nat) : Sys2Proof.Laws.CommandOpcode.Statement (.backupTamperLatch source) :=
  Sys2Proof.Laws.CommandOpcode.unlisted rfl

theorem Sys2Proof.Laws.CommandOpcode.backupSupplyLoss : Sys2Proof.Laws.CommandOpcode.Statement .backupSupplyLoss :=
  Sys2Proof.Laws.CommandOpcode.unlisted rfl

theorem Sys2Proof.Laws.CommandOpcode.hbmTrainingDone : Sys2Proof.Laws.CommandOpcode.Statement .hbmTrainingDone :=
  Sys2Proof.Laws.CommandOpcode.unlisted rfl

theorem Sys2Proof.Laws.CommandOpcode.pcieLinkUp (speed : Fin 5) (width : Fin 4) (flit : Bool) : Sys2Proof.Laws.CommandOpcode.Statement (.pcieLinkUp speed width flit) :=
  Sys2Proof.Laws.CommandOpcode.unlisted rfl

theorem Sys2Proof.Laws.CommandOpcode.pcieLinkDown : Sys2Proof.Laws.CommandOpcode.Statement .pcieLinkDown :=
  Sys2Proof.Laws.CommandOpcode.unlisted rfl

theorem Sys2Proof.Laws.CommandOpcode.selfTestDone (mb : MbId) (sigs : List (BitVec 64)) (errs : List PatternErr) : Sys2Proof.Laws.CommandOpcode.Statement (.selfTestDone mb sigs errs) :=
  Sys2Proof.Laws.CommandOpcode.unlisted rfl

theorem Sys2Proof.Laws.CommandOpcode.entropyWaitTimeout (mb : MbId) : Sys2Proof.Laws.CommandOpcode.Statement (.entropyWaitTimeout mb) :=
  Sys2Proof.Laws.CommandOpcode.unlisted rfl

theorem Sys2Proof.Laws.CommandOpcode.fastLimitAlertRelease : Sys2Proof.Laws.CommandOpcode.Statement .fastLimitAlertRelease :=
  Sys2Proof.Laws.CommandOpcode.unlisted rfl

theorem Sys2Proof.Laws.CommandOpcode.busMasterEnableClear (fn : FnId) : Sys2Proof.Laws.CommandOpcode.Statement (.busMasterEnableClear fn) :=
  Sys2Proof.Laws.CommandOpcode.unlisted rfl

theorem Sys2Proof.Laws.CommandOpcode.d3hotTransition (fn : FnId) (enter : Bool) : Sys2Proof.Laws.CommandOpcode.Statement (.d3hotTransition fn enter) :=
  Sys2Proof.Laws.CommandOpcode.unlisted rfl

theorem Sys2Proof.Laws.CommandOpcode.pfcPauseExpire (port : PortId) (priority : Fin 8) : Sys2Proof.Laws.CommandOpcode.Statement (.pfcPauseExpire port priority) :=
  Sys2Proof.Laws.CommandOpcode.unlisted rfl
end

