-- ==== Sys2Proof/Laws/Protect.lean ====
section
/-! SUPPORT. What stands in HBM for a line and for a page: how long it is, and that a line that nothing has changed opens to its plaintext
(18_tenancy_and_memory_protection.md R357, R358). -/

namespace Sys2Proof.Machine

variable (s : State)

@[simp] theorem lineNonce_length (a : Nat) : (lineNonce s a).length = 12 := by simp [lineNonce]

@[simp] theorem lineMac_length (a : Nat) (ct : Bytes) : (lineMac s a ct).length = 7 := by simp [lineMac]

@[simp] theorem lineMeta_length (a : Nat) : (lineMeta s a).length = 8 := by simp [lineMeta]

@[simp] theorem linePlain_length (a : Nat) : (linePlain s a).length = 64 := by simp [linePlain, cellRead]

@[simp] theorem storedLine_length (a : Nat) : (storedLine s a).length = 64 := by simp [storedLine]

@[simp] theorem blockFields_length (p : Nat) : (blockFields s p).length = 57 := by simp [blockFields]

@[simp] theorem counterBlock_length (p : Nat) : (counterBlock s p).length = 64 := by simp [counterBlock]

/-- A line that stands as the module wrote it is read back. -/
theorem openLine_storedLine (a : Nat) : openLine s a (storedLine s a) (lineMac s a (storedLine s a)) = some (linePlain s a) := by
  simp [openLine, storedLine]

end Sys2Proof.Machine
end

