-- ==== Sys2Proof/Laws/State.lean ====
section
/-! SUPPORT. What each update of one block of the state leaves in each field: the changed block, and every other field as it
was. All are true by unfolding, so that no later proof unfolds a record update. -/

namespace Sys2Proof.Machine

section
variable (f : RstState → RstState) (s : State)

@[simp] theorem modRst_now : (modRst f s).now = s.now := rfl
@[simp] theorem modRst_draw : (modRst f s).draw = s.draw := rfl
@[simp] theorem modRst_partId : (modRst f s).partId = s.partId := rfl
@[simp] theorem modRst_idsOk : (modRst f s).idsOk = s.idsOk := rfl
@[simp] theorem modRst_rst : (modRst f s).rst = f s.rst := rfl
@[simp] theorem modRst_backup : (modRst f s).backup = s.backup := rfl
@[simp] theorem modRst_clk : (modRst f s).clk = s.clk := rfl
@[simp] theorem modRst_pins : (modRst f s).pins = s.pins := rfl
@[simp] theorem modRst_prs : (modRst f s).prs = s.prs := rfl
@[simp] theorem modRst_pla : (modRst f s).pla = s.pla := rfl
@[simp] theorem modRst_cvu : (modRst f s).cvu = s.cvu := rfl
@[simp] theorem modRst_ent : (modRst f s).ent = s.ent := rfl
@[simp] theorem modRst_kst : (modRst f s).kst = s.kst := rfl
@[simp] theorem modRst_life : (modRst f s).life = s.life := rfl
@[simp] theorem modRst_ctrlFw : (modRst f s).ctrlFw = s.ctrlFw := rfl
@[simp] theorem modRst_secFw : (modRst f s).secFw = s.secFw := rfl
@[simp] theorem modRst_mpr : (modRst f s).mpr = s.mpr := rfl
@[simp] theorem modRst_mem : (modRst f s).mem = s.mem := rfl
@[simp] theorem modRst_hif : (modRst f s).hif = s.hif := rfl
@[simp] theorem modRst_mbx : (modRst f s).mbx = s.mbx := rfl
@[simp] theorem modRst_tst : (modRst f s).tst = s.tst := rfl
@[simp] theorem modRst_buf : (modRst f s).buf = s.buf := rfl
@[simp] theorem modRst_weights : (modRst f s).weights = s.weights := rfl
@[simp] theorem modRst_dec : (modRst f s).dec = s.dec := rfl
@[simp] theorem modRst_ring : (modRst f s).ring = s.ring := rfl
@[simp] theorem modRst_ports : (modRst f s).ports = s.ports := rfl
@[simp] theorem modRst_ptn : (modRst f s).ptn = s.ptn := rfl
@[simp] theorem modRst_hev : (modRst f s).hev = s.hev := rfl
@[simp] theorem modRst_rdm : (modRst f s).rdm = s.rdm := rfl
@[simp] theorem modRst_out : (modRst f s).out = s.out := rfl
@[simp] theorem modRst_pending : (modRst f s).pending = s.pending := rfl

end

section
variable (f : ClkState → ClkState) (s : State)

@[simp] theorem modClk_now : (modClk f s).now = s.now := rfl
@[simp] theorem modClk_draw : (modClk f s).draw = s.draw := rfl
@[simp] theorem modClk_partId : (modClk f s).partId = s.partId := rfl
@[simp] theorem modClk_idsOk : (modClk f s).idsOk = s.idsOk := rfl
@[simp] theorem modClk_rst : (modClk f s).rst = s.rst := rfl
@[simp] theorem modClk_backup : (modClk f s).backup = s.backup := rfl
@[simp] theorem modClk_clk : (modClk f s).clk = f s.clk := rfl
@[simp] theorem modClk_pins : (modClk f s).pins = s.pins := rfl
@[simp] theorem modClk_prs : (modClk f s).prs = s.prs := rfl
@[simp] theorem modClk_pla : (modClk f s).pla = s.pla := rfl
@[simp] theorem modClk_cvu : (modClk f s).cvu = s.cvu := rfl
@[simp] theorem modClk_ent : (modClk f s).ent = s.ent := rfl
@[simp] theorem modClk_kst : (modClk f s).kst = s.kst := rfl
@[simp] theorem modClk_life : (modClk f s).life = s.life := rfl
@[simp] theorem modClk_ctrlFw : (modClk f s).ctrlFw = s.ctrlFw := rfl
@[simp] theorem modClk_secFw : (modClk f s).secFw = s.secFw := rfl
@[simp] theorem modClk_mpr : (modClk f s).mpr = s.mpr := rfl
@[simp] theorem modClk_mem : (modClk f s).mem = s.mem := rfl
@[simp] theorem modClk_hif : (modClk f s).hif = s.hif := rfl
@[simp] theorem modClk_mbx : (modClk f s).mbx = s.mbx := rfl
@[simp] theorem modClk_tst : (modClk f s).tst = s.tst := rfl
@[simp] theorem modClk_buf : (modClk f s).buf = s.buf := rfl
@[simp] theorem modClk_weights : (modClk f s).weights = s.weights := rfl
@[simp] theorem modClk_dec : (modClk f s).dec = s.dec := rfl
@[simp] theorem modClk_ring : (modClk f s).ring = s.ring := rfl
@[simp] theorem modClk_ports : (modClk f s).ports = s.ports := rfl
@[simp] theorem modClk_ptn : (modClk f s).ptn = s.ptn := rfl
@[simp] theorem modClk_hev : (modClk f s).hev = s.hev := rfl
@[simp] theorem modClk_rdm : (modClk f s).rdm = s.rdm := rfl
@[simp] theorem modClk_out : (modClk f s).out = s.out := rfl
@[simp] theorem modClk_pending : (modClk f s).pending = s.pending := rfl

end

section
variable (f : PinState → PinState) (s : State)

@[simp] theorem modPins_now : (modPins f s).now = s.now := rfl
@[simp] theorem modPins_draw : (modPins f s).draw = s.draw := rfl
@[simp] theorem modPins_partId : (modPins f s).partId = s.partId := rfl
@[simp] theorem modPins_idsOk : (modPins f s).idsOk = s.idsOk := rfl
@[simp] theorem modPins_rst : (modPins f s).rst = s.rst := rfl
@[simp] theorem modPins_backup : (modPins f s).backup = s.backup := rfl
@[simp] theorem modPins_clk : (modPins f s).clk = s.clk := rfl
@[simp] theorem modPins_pins : (modPins f s).pins = f s.pins := rfl
@[simp] theorem modPins_prs : (modPins f s).prs = s.prs := rfl
@[simp] theorem modPins_pla : (modPins f s).pla = s.pla := rfl
@[simp] theorem modPins_cvu : (modPins f s).cvu = s.cvu := rfl
@[simp] theorem modPins_ent : (modPins f s).ent = s.ent := rfl
@[simp] theorem modPins_kst : (modPins f s).kst = s.kst := rfl
@[simp] theorem modPins_life : (modPins f s).life = s.life := rfl
@[simp] theorem modPins_ctrlFw : (modPins f s).ctrlFw = s.ctrlFw := rfl
@[simp] theorem modPins_secFw : (modPins f s).secFw = s.secFw := rfl
@[simp] theorem modPins_mpr : (modPins f s).mpr = s.mpr := rfl
@[simp] theorem modPins_mem : (modPins f s).mem = s.mem := rfl
@[simp] theorem modPins_hif : (modPins f s).hif = s.hif := rfl
@[simp] theorem modPins_mbx : (modPins f s).mbx = s.mbx := rfl
@[simp] theorem modPins_tst : (modPins f s).tst = s.tst := rfl
@[simp] theorem modPins_buf : (modPins f s).buf = s.buf := rfl
@[simp] theorem modPins_weights : (modPins f s).weights = s.weights := rfl
@[simp] theorem modPins_dec : (modPins f s).dec = s.dec := rfl
@[simp] theorem modPins_ring : (modPins f s).ring = s.ring := rfl
@[simp] theorem modPins_ports : (modPins f s).ports = s.ports := rfl
@[simp] theorem modPins_ptn : (modPins f s).ptn = s.ptn := rfl
@[simp] theorem modPins_hev : (modPins f s).hev = s.hev := rfl
@[simp] theorem modPins_rdm : (modPins f s).rdm = s.rdm := rfl
@[simp] theorem modPins_out : (modPins f s).out = s.out := rfl
@[simp] theorem modPins_pending : (modPins f s).pending = s.pending := rfl

end

section
variable (f : PrsState → PrsState) (s : State)

@[simp] theorem modPrs_now : (modPrs f s).now = s.now := rfl
@[simp] theorem modPrs_draw : (modPrs f s).draw = s.draw := rfl
@[simp] theorem modPrs_partId : (modPrs f s).partId = s.partId := rfl
@[simp] theorem modPrs_idsOk : (modPrs f s).idsOk = s.idsOk := rfl
@[simp] theorem modPrs_rst : (modPrs f s).rst = s.rst := rfl
@[simp] theorem modPrs_backup : (modPrs f s).backup = s.backup := rfl
@[simp] theorem modPrs_clk : (modPrs f s).clk = s.clk := rfl
@[simp] theorem modPrs_pins : (modPrs f s).pins = s.pins := rfl
@[simp] theorem modPrs_prs : (modPrs f s).prs = f s.prs := rfl
@[simp] theorem modPrs_pla : (modPrs f s).pla = s.pla := rfl
@[simp] theorem modPrs_cvu : (modPrs f s).cvu = s.cvu := rfl
@[simp] theorem modPrs_ent : (modPrs f s).ent = s.ent := rfl
@[simp] theorem modPrs_kst : (modPrs f s).kst = s.kst := rfl
@[simp] theorem modPrs_life : (modPrs f s).life = s.life := rfl
@[simp] theorem modPrs_ctrlFw : (modPrs f s).ctrlFw = s.ctrlFw := rfl
@[simp] theorem modPrs_secFw : (modPrs f s).secFw = s.secFw := rfl
@[simp] theorem modPrs_mpr : (modPrs f s).mpr = s.mpr := rfl
@[simp] theorem modPrs_mem : (modPrs f s).mem = s.mem := rfl
@[simp] theorem modPrs_hif : (modPrs f s).hif = s.hif := rfl
@[simp] theorem modPrs_mbx : (modPrs f s).mbx = s.mbx := rfl
@[simp] theorem modPrs_tst : (modPrs f s).tst = s.tst := rfl
@[simp] theorem modPrs_buf : (modPrs f s).buf = s.buf := rfl
@[simp] theorem modPrs_weights : (modPrs f s).weights = s.weights := rfl
@[simp] theorem modPrs_dec : (modPrs f s).dec = s.dec := rfl
@[simp] theorem modPrs_ring : (modPrs f s).ring = s.ring := rfl
@[simp] theorem modPrs_ports : (modPrs f s).ports = s.ports := rfl
@[simp] theorem modPrs_ptn : (modPrs f s).ptn = s.ptn := rfl
@[simp] theorem modPrs_hev : (modPrs f s).hev = s.hev := rfl
@[simp] theorem modPrs_rdm : (modPrs f s).rdm = s.rdm := rfl
@[simp] theorem modPrs_out : (modPrs f s).out = s.out := rfl
@[simp] theorem modPrs_pending : (modPrs f s).pending = s.pending := rfl

end

section
variable (f : PlaState → PlaState) (s : State)

@[simp] theorem modPla_now : (modPla f s).now = s.now := rfl
@[simp] theorem modPla_draw : (modPla f s).draw = s.draw := rfl
@[simp] theorem modPla_partId : (modPla f s).partId = s.partId := rfl
@[simp] theorem modPla_idsOk : (modPla f s).idsOk = s.idsOk := rfl
@[simp] theorem modPla_rst : (modPla f s).rst = s.rst := rfl
@[simp] theorem modPla_backup : (modPla f s).backup = s.backup := rfl
@[simp] theorem modPla_clk : (modPla f s).clk = s.clk := rfl
@[simp] theorem modPla_pins : (modPla f s).pins = s.pins := rfl
@[simp] theorem modPla_prs : (modPla f s).prs = s.prs := rfl
@[simp] theorem modPla_pla : (modPla f s).pla = f s.pla := rfl
@[simp] theorem modPla_cvu : (modPla f s).cvu = s.cvu := rfl
@[simp] theorem modPla_ent : (modPla f s).ent = s.ent := rfl
@[simp] theorem modPla_kst : (modPla f s).kst = s.kst := rfl
@[simp] theorem modPla_life : (modPla f s).life = s.life := rfl
@[simp] theorem modPla_ctrlFw : (modPla f s).ctrlFw = s.ctrlFw := rfl
@[simp] theorem modPla_secFw : (modPla f s).secFw = s.secFw := rfl
@[simp] theorem modPla_mpr : (modPla f s).mpr = s.mpr := rfl
@[simp] theorem modPla_mem : (modPla f s).mem = s.mem := rfl
@[simp] theorem modPla_hif : (modPla f s).hif = s.hif := rfl
@[simp] theorem modPla_mbx : (modPla f s).mbx = s.mbx := rfl
@[simp] theorem modPla_tst : (modPla f s).tst = s.tst := rfl
@[simp] theorem modPla_buf : (modPla f s).buf = s.buf := rfl
@[simp] theorem modPla_weights : (modPla f s).weights = s.weights := rfl
@[simp] theorem modPla_dec : (modPla f s).dec = s.dec := rfl
@[simp] theorem modPla_ring : (modPla f s).ring = s.ring := rfl
@[simp] theorem modPla_ports : (modPla f s).ports = s.ports := rfl
@[simp] theorem modPla_ptn : (modPla f s).ptn = s.ptn := rfl
@[simp] theorem modPla_hev : (modPla f s).hev = s.hev := rfl
@[simp] theorem modPla_rdm : (modPla f s).rdm = s.rdm := rfl
@[simp] theorem modPla_out : (modPla f s).out = s.out := rfl
@[simp] theorem modPla_pending : (modPla f s).pending = s.pending := rfl

end

section
variable (f : CvuState → CvuState) (s : State)

@[simp] theorem modCvu_now : (modCvu f s).now = s.now := rfl
@[simp] theorem modCvu_draw : (modCvu f s).draw = s.draw := rfl
@[simp] theorem modCvu_partId : (modCvu f s).partId = s.partId := rfl
@[simp] theorem modCvu_idsOk : (modCvu f s).idsOk = s.idsOk := rfl
@[simp] theorem modCvu_rst : (modCvu f s).rst = s.rst := rfl
@[simp] theorem modCvu_backup : (modCvu f s).backup = s.backup := rfl
@[simp] theorem modCvu_clk : (modCvu f s).clk = s.clk := rfl
@[simp] theorem modCvu_pins : (modCvu f s).pins = s.pins := rfl
@[simp] theorem modCvu_prs : (modCvu f s).prs = s.prs := rfl
@[simp] theorem modCvu_pla : (modCvu f s).pla = s.pla := rfl
@[simp] theorem modCvu_cvu : (modCvu f s).cvu = f s.cvu := rfl
@[simp] theorem modCvu_ent : (modCvu f s).ent = s.ent := rfl
@[simp] theorem modCvu_kst : (modCvu f s).kst = s.kst := rfl
@[simp] theorem modCvu_life : (modCvu f s).life = s.life := rfl
@[simp] theorem modCvu_ctrlFw : (modCvu f s).ctrlFw = s.ctrlFw := rfl
@[simp] theorem modCvu_secFw : (modCvu f s).secFw = s.secFw := rfl
@[simp] theorem modCvu_mpr : (modCvu f s).mpr = s.mpr := rfl
@[simp] theorem modCvu_mem : (modCvu f s).mem = s.mem := rfl
@[simp] theorem modCvu_hif : (modCvu f s).hif = s.hif := rfl
@[simp] theorem modCvu_mbx : (modCvu f s).mbx = s.mbx := rfl
@[simp] theorem modCvu_tst : (modCvu f s).tst = s.tst := rfl
@[simp] theorem modCvu_buf : (modCvu f s).buf = s.buf := rfl
@[simp] theorem modCvu_weights : (modCvu f s).weights = s.weights := rfl
@[simp] theorem modCvu_dec : (modCvu f s).dec = s.dec := rfl
@[simp] theorem modCvu_ring : (modCvu f s).ring = s.ring := rfl
@[simp] theorem modCvu_ports : (modCvu f s).ports = s.ports := rfl
@[simp] theorem modCvu_ptn : (modCvu f s).ptn = s.ptn := rfl
@[simp] theorem modCvu_hev : (modCvu f s).hev = s.hev := rfl
@[simp] theorem modCvu_rdm : (modCvu f s).rdm = s.rdm := rfl
@[simp] theorem modCvu_out : (modCvu f s).out = s.out := rfl
@[simp] theorem modCvu_pending : (modCvu f s).pending = s.pending := rfl

end

section
variable (f : EntState → EntState) (s : State)

@[simp] theorem modEnt_now : (modEnt f s).now = s.now := rfl
@[simp] theorem modEnt_draw : (modEnt f s).draw = s.draw := rfl
@[simp] theorem modEnt_partId : (modEnt f s).partId = s.partId := rfl
@[simp] theorem modEnt_idsOk : (modEnt f s).idsOk = s.idsOk := rfl
@[simp] theorem modEnt_rst : (modEnt f s).rst = s.rst := rfl
@[simp] theorem modEnt_backup : (modEnt f s).backup = s.backup := rfl
@[simp] theorem modEnt_clk : (modEnt f s).clk = s.clk := rfl
@[simp] theorem modEnt_pins : (modEnt f s).pins = s.pins := rfl
@[simp] theorem modEnt_prs : (modEnt f s).prs = s.prs := rfl
@[simp] theorem modEnt_pla : (modEnt f s).pla = s.pla := rfl
@[simp] theorem modEnt_cvu : (modEnt f s).cvu = s.cvu := rfl
@[simp] theorem modEnt_ent : (modEnt f s).ent = f s.ent := rfl
@[simp] theorem modEnt_kst : (modEnt f s).kst = s.kst := rfl
@[simp] theorem modEnt_life : (modEnt f s).life = s.life := rfl
@[simp] theorem modEnt_ctrlFw : (modEnt f s).ctrlFw = s.ctrlFw := rfl
@[simp] theorem modEnt_secFw : (modEnt f s).secFw = s.secFw := rfl
@[simp] theorem modEnt_mpr : (modEnt f s).mpr = s.mpr := rfl
@[simp] theorem modEnt_mem : (modEnt f s).mem = s.mem := rfl
@[simp] theorem modEnt_hif : (modEnt f s).hif = s.hif := rfl
@[simp] theorem modEnt_mbx : (modEnt f s).mbx = s.mbx := rfl
@[simp] theorem modEnt_tst : (modEnt f s).tst = s.tst := rfl
@[simp] theorem modEnt_buf : (modEnt f s).buf = s.buf := rfl
@[simp] theorem modEnt_weights : (modEnt f s).weights = s.weights := rfl
@[simp] theorem modEnt_dec : (modEnt f s).dec = s.dec := rfl
@[simp] theorem modEnt_ring : (modEnt f s).ring = s.ring := rfl
@[simp] theorem modEnt_ports : (modEnt f s).ports = s.ports := rfl
@[simp] theorem modEnt_ptn : (modEnt f s).ptn = s.ptn := rfl
@[simp] theorem modEnt_hev : (modEnt f s).hev = s.hev := rfl
@[simp] theorem modEnt_rdm : (modEnt f s).rdm = s.rdm := rfl
@[simp] theorem modEnt_out : (modEnt f s).out = s.out := rfl
@[simp] theorem modEnt_pending : (modEnt f s).pending = s.pending := rfl

end

section
variable (f : KstState → KstState) (s : State)

@[simp] theorem modKst_now : (modKst f s).now = s.now := rfl
@[simp] theorem modKst_draw : (modKst f s).draw = s.draw := rfl
@[simp] theorem modKst_partId : (modKst f s).partId = s.partId := rfl
@[simp] theorem modKst_idsOk : (modKst f s).idsOk = s.idsOk := rfl
@[simp] theorem modKst_rst : (modKst f s).rst = s.rst := rfl
@[simp] theorem modKst_backup : (modKst f s).backup = s.backup := rfl
@[simp] theorem modKst_clk : (modKst f s).clk = s.clk := rfl
@[simp] theorem modKst_pins : (modKst f s).pins = s.pins := rfl
@[simp] theorem modKst_prs : (modKst f s).prs = s.prs := rfl
@[simp] theorem modKst_pla : (modKst f s).pla = s.pla := rfl
@[simp] theorem modKst_cvu : (modKst f s).cvu = s.cvu := rfl
@[simp] theorem modKst_ent : (modKst f s).ent = s.ent := rfl
@[simp] theorem modKst_kst : (modKst f s).kst = f s.kst := rfl
@[simp] theorem modKst_life : (modKst f s).life = s.life := rfl
@[simp] theorem modKst_ctrlFw : (modKst f s).ctrlFw = s.ctrlFw := rfl
@[simp] theorem modKst_secFw : (modKst f s).secFw = s.secFw := rfl
@[simp] theorem modKst_mpr : (modKst f s).mpr = s.mpr := rfl
@[simp] theorem modKst_mem : (modKst f s).mem = s.mem := rfl
@[simp] theorem modKst_hif : (modKst f s).hif = s.hif := rfl
@[simp] theorem modKst_mbx : (modKst f s).mbx = s.mbx := rfl
@[simp] theorem modKst_tst : (modKst f s).tst = s.tst := rfl
@[simp] theorem modKst_buf : (modKst f s).buf = s.buf := rfl
@[simp] theorem modKst_weights : (modKst f s).weights = s.weights := rfl
@[simp] theorem modKst_dec : (modKst f s).dec = s.dec := rfl
@[simp] theorem modKst_ring : (modKst f s).ring = s.ring := rfl
@[simp] theorem modKst_ports : (modKst f s).ports = s.ports := rfl
@[simp] theorem modKst_ptn : (modKst f s).ptn = s.ptn := rfl
@[simp] theorem modKst_hev : (modKst f s).hev = s.hev := rfl
@[simp] theorem modKst_rdm : (modKst f s).rdm = s.rdm := rfl
@[simp] theorem modKst_out : (modKst f s).out = s.out := rfl
@[simp] theorem modKst_pending : (modKst f s).pending = s.pending := rfl

end

section
variable (f : LifeState → LifeState) (s : State)

@[simp] theorem modLife_now : (modLife f s).now = s.now := rfl
@[simp] theorem modLife_draw : (modLife f s).draw = s.draw := rfl
@[simp] theorem modLife_partId : (modLife f s).partId = s.partId := rfl
@[simp] theorem modLife_idsOk : (modLife f s).idsOk = s.idsOk := rfl
@[simp] theorem modLife_rst : (modLife f s).rst = s.rst := rfl
@[simp] theorem modLife_backup : (modLife f s).backup = s.backup := rfl
@[simp] theorem modLife_clk : (modLife f s).clk = s.clk := rfl
@[simp] theorem modLife_pins : (modLife f s).pins = s.pins := rfl
@[simp] theorem modLife_prs : (modLife f s).prs = s.prs := rfl
@[simp] theorem modLife_pla : (modLife f s).pla = s.pla := rfl
@[simp] theorem modLife_cvu : (modLife f s).cvu = s.cvu := rfl
@[simp] theorem modLife_ent : (modLife f s).ent = s.ent := rfl
@[simp] theorem modLife_kst : (modLife f s).kst = s.kst := rfl
@[simp] theorem modLife_life : (modLife f s).life = f s.life := rfl
@[simp] theorem modLife_ctrlFw : (modLife f s).ctrlFw = s.ctrlFw := rfl
@[simp] theorem modLife_secFw : (modLife f s).secFw = s.secFw := rfl
@[simp] theorem modLife_mpr : (modLife f s).mpr = s.mpr := rfl
@[simp] theorem modLife_mem : (modLife f s).mem = s.mem := rfl
@[simp] theorem modLife_hif : (modLife f s).hif = s.hif := rfl
@[simp] theorem modLife_mbx : (modLife f s).mbx = s.mbx := rfl
@[simp] theorem modLife_tst : (modLife f s).tst = s.tst := rfl
@[simp] theorem modLife_buf : (modLife f s).buf = s.buf := rfl
@[simp] theorem modLife_weights : (modLife f s).weights = s.weights := rfl
@[simp] theorem modLife_dec : (modLife f s).dec = s.dec := rfl
@[simp] theorem modLife_ring : (modLife f s).ring = s.ring := rfl
@[simp] theorem modLife_ports : (modLife f s).ports = s.ports := rfl
@[simp] theorem modLife_ptn : (modLife f s).ptn = s.ptn := rfl
@[simp] theorem modLife_hev : (modLife f s).hev = s.hev := rfl
@[simp] theorem modLife_rdm : (modLife f s).rdm = s.rdm := rfl
@[simp] theorem modLife_out : (modLife f s).out = s.out := rfl
@[simp] theorem modLife_pending : (modLife f s).pending = s.pending := rfl

end

section
variable (f : MprState → MprState) (s : State)

@[simp] theorem modMpr_now : (modMpr f s).now = s.now := rfl
@[simp] theorem modMpr_draw : (modMpr f s).draw = s.draw := rfl
@[simp] theorem modMpr_partId : (modMpr f s).partId = s.partId := rfl
@[simp] theorem modMpr_idsOk : (modMpr f s).idsOk = s.idsOk := rfl
@[simp] theorem modMpr_rst : (modMpr f s).rst = s.rst := rfl
@[simp] theorem modMpr_backup : (modMpr f s).backup = s.backup := rfl
@[simp] theorem modMpr_clk : (modMpr f s).clk = s.clk := rfl
@[simp] theorem modMpr_pins : (modMpr f s).pins = s.pins := rfl
@[simp] theorem modMpr_prs : (modMpr f s).prs = s.prs := rfl
@[simp] theorem modMpr_pla : (modMpr f s).pla = s.pla := rfl
@[simp] theorem modMpr_cvu : (modMpr f s).cvu = s.cvu := rfl
@[simp] theorem modMpr_ent : (modMpr f s).ent = s.ent := rfl
@[simp] theorem modMpr_kst : (modMpr f s).kst = s.kst := rfl
@[simp] theorem modMpr_life : (modMpr f s).life = s.life := rfl
@[simp] theorem modMpr_ctrlFw : (modMpr f s).ctrlFw = s.ctrlFw := rfl
@[simp] theorem modMpr_secFw : (modMpr f s).secFw = s.secFw := rfl
@[simp] theorem modMpr_mpr : (modMpr f s).mpr = f s.mpr := rfl
@[simp] theorem modMpr_mem : (modMpr f s).mem = s.mem := rfl
@[simp] theorem modMpr_hif : (modMpr f s).hif = s.hif := rfl
@[simp] theorem modMpr_mbx : (modMpr f s).mbx = s.mbx := rfl
@[simp] theorem modMpr_tst : (modMpr f s).tst = s.tst := rfl
@[simp] theorem modMpr_buf : (modMpr f s).buf = s.buf := rfl
@[simp] theorem modMpr_weights : (modMpr f s).weights = s.weights := rfl
@[simp] theorem modMpr_dec : (modMpr f s).dec = s.dec := rfl
@[simp] theorem modMpr_ring : (modMpr f s).ring = s.ring := rfl
@[simp] theorem modMpr_ports : (modMpr f s).ports = s.ports := rfl
@[simp] theorem modMpr_ptn : (modMpr f s).ptn = s.ptn := rfl
@[simp] theorem modMpr_hev : (modMpr f s).hev = s.hev := rfl
@[simp] theorem modMpr_rdm : (modMpr f s).rdm = s.rdm := rfl
@[simp] theorem modMpr_out : (modMpr f s).out = s.out := rfl
@[simp] theorem modMpr_pending : (modMpr f s).pending = s.pending := rfl

end

section
variable (f : MemState → MemState) (s : State)

@[simp] theorem modMem_now : (modMem f s).now = s.now := rfl
@[simp] theorem modMem_draw : (modMem f s).draw = s.draw := rfl
@[simp] theorem modMem_partId : (modMem f s).partId = s.partId := rfl
@[simp] theorem modMem_idsOk : (modMem f s).idsOk = s.idsOk := rfl
@[simp] theorem modMem_rst : (modMem f s).rst = s.rst := rfl
@[simp] theorem modMem_backup : (modMem f s).backup = s.backup := rfl
@[simp] theorem modMem_clk : (modMem f s).clk = s.clk := rfl
@[simp] theorem modMem_pins : (modMem f s).pins = s.pins := rfl
@[simp] theorem modMem_prs : (modMem f s).prs = s.prs := rfl
@[simp] theorem modMem_pla : (modMem f s).pla = s.pla := rfl
@[simp] theorem modMem_cvu : (modMem f s).cvu = s.cvu := rfl
@[simp] theorem modMem_ent : (modMem f s).ent = s.ent := rfl
@[simp] theorem modMem_kst : (modMem f s).kst = s.kst := rfl
@[simp] theorem modMem_life : (modMem f s).life = s.life := rfl
@[simp] theorem modMem_ctrlFw : (modMem f s).ctrlFw = s.ctrlFw := rfl
@[simp] theorem modMem_secFw : (modMem f s).secFw = s.secFw := rfl
@[simp] theorem modMem_mpr : (modMem f s).mpr = s.mpr := rfl
@[simp] theorem modMem_mem : (modMem f s).mem = f s.mem := rfl
@[simp] theorem modMem_hif : (modMem f s).hif = s.hif := rfl
@[simp] theorem modMem_mbx : (modMem f s).mbx = s.mbx := rfl
@[simp] theorem modMem_tst : (modMem f s).tst = s.tst := rfl
@[simp] theorem modMem_buf : (modMem f s).buf = s.buf := rfl
@[simp] theorem modMem_weights : (modMem f s).weights = s.weights := rfl
@[simp] theorem modMem_dec : (modMem f s).dec = s.dec := rfl
@[simp] theorem modMem_ring : (modMem f s).ring = s.ring := rfl
@[simp] theorem modMem_ports : (modMem f s).ports = s.ports := rfl
@[simp] theorem modMem_ptn : (modMem f s).ptn = s.ptn := rfl
@[simp] theorem modMem_hev : (modMem f s).hev = s.hev := rfl
@[simp] theorem modMem_rdm : (modMem f s).rdm = s.rdm := rfl
@[simp] theorem modMem_out : (modMem f s).out = s.out := rfl
@[simp] theorem modMem_pending : (modMem f s).pending = s.pending := rfl

end

section
variable (f : HifState → HifState) (s : State)

@[simp] theorem modHif_now : (modHif f s).now = s.now := rfl
@[simp] theorem modHif_draw : (modHif f s).draw = s.draw := rfl
@[simp] theorem modHif_partId : (modHif f s).partId = s.partId := rfl
@[simp] theorem modHif_idsOk : (modHif f s).idsOk = s.idsOk := rfl
@[simp] theorem modHif_rst : (modHif f s).rst = s.rst := rfl
@[simp] theorem modHif_backup : (modHif f s).backup = s.backup := rfl
@[simp] theorem modHif_clk : (modHif f s).clk = s.clk := rfl
@[simp] theorem modHif_pins : (modHif f s).pins = s.pins := rfl
@[simp] theorem modHif_prs : (modHif f s).prs = s.prs := rfl
@[simp] theorem modHif_pla : (modHif f s).pla = s.pla := rfl
@[simp] theorem modHif_cvu : (modHif f s).cvu = s.cvu := rfl
@[simp] theorem modHif_ent : (modHif f s).ent = s.ent := rfl
@[simp] theorem modHif_kst : (modHif f s).kst = s.kst := rfl
@[simp] theorem modHif_life : (modHif f s).life = s.life := rfl
@[simp] theorem modHif_ctrlFw : (modHif f s).ctrlFw = s.ctrlFw := rfl
@[simp] theorem modHif_secFw : (modHif f s).secFw = s.secFw := rfl
@[simp] theorem modHif_mpr : (modHif f s).mpr = s.mpr := rfl
@[simp] theorem modHif_mem : (modHif f s).mem = s.mem := rfl
@[simp] theorem modHif_hif : (modHif f s).hif = f s.hif := rfl
@[simp] theorem modHif_mbx : (modHif f s).mbx = s.mbx := rfl
@[simp] theorem modHif_tst : (modHif f s).tst = s.tst := rfl
@[simp] theorem modHif_buf : (modHif f s).buf = s.buf := rfl
@[simp] theorem modHif_weights : (modHif f s).weights = s.weights := rfl
@[simp] theorem modHif_dec : (modHif f s).dec = s.dec := rfl
@[simp] theorem modHif_ring : (modHif f s).ring = s.ring := rfl
@[simp] theorem modHif_ports : (modHif f s).ports = s.ports := rfl
@[simp] theorem modHif_ptn : (modHif f s).ptn = s.ptn := rfl
@[simp] theorem modHif_hev : (modHif f s).hev = s.hev := rfl
@[simp] theorem modHif_rdm : (modHif f s).rdm = s.rdm := rfl
@[simp] theorem modHif_out : (modHif f s).out = s.out := rfl
@[simp] theorem modHif_pending : (modHif f s).pending = s.pending := rfl

end

section
variable (f : MbxState → MbxState) (s : State)

@[simp] theorem modMbx_now : (modMbx f s).now = s.now := rfl
@[simp] theorem modMbx_draw : (modMbx f s).draw = s.draw := rfl
@[simp] theorem modMbx_partId : (modMbx f s).partId = s.partId := rfl
@[simp] theorem modMbx_idsOk : (modMbx f s).idsOk = s.idsOk := rfl
@[simp] theorem modMbx_rst : (modMbx f s).rst = s.rst := rfl
@[simp] theorem modMbx_backup : (modMbx f s).backup = s.backup := rfl
@[simp] theorem modMbx_clk : (modMbx f s).clk = s.clk := rfl
@[simp] theorem modMbx_pins : (modMbx f s).pins = s.pins := rfl
@[simp] theorem modMbx_prs : (modMbx f s).prs = s.prs := rfl
@[simp] theorem modMbx_pla : (modMbx f s).pla = s.pla := rfl
@[simp] theorem modMbx_cvu : (modMbx f s).cvu = s.cvu := rfl
@[simp] theorem modMbx_ent : (modMbx f s).ent = s.ent := rfl
@[simp] theorem modMbx_kst : (modMbx f s).kst = s.kst := rfl
@[simp] theorem modMbx_life : (modMbx f s).life = s.life := rfl
@[simp] theorem modMbx_ctrlFw : (modMbx f s).ctrlFw = s.ctrlFw := rfl
@[simp] theorem modMbx_secFw : (modMbx f s).secFw = s.secFw := rfl
@[simp] theorem modMbx_mpr : (modMbx f s).mpr = s.mpr := rfl
@[simp] theorem modMbx_mem : (modMbx f s).mem = s.mem := rfl
@[simp] theorem modMbx_hif : (modMbx f s).hif = s.hif := rfl
@[simp] theorem modMbx_mbx : (modMbx f s).mbx = f s.mbx := rfl
@[simp] theorem modMbx_tst : (modMbx f s).tst = s.tst := rfl
@[simp] theorem modMbx_buf : (modMbx f s).buf = s.buf := rfl
@[simp] theorem modMbx_weights : (modMbx f s).weights = s.weights := rfl
@[simp] theorem modMbx_dec : (modMbx f s).dec = s.dec := rfl
@[simp] theorem modMbx_ring : (modMbx f s).ring = s.ring := rfl
@[simp] theorem modMbx_ports : (modMbx f s).ports = s.ports := rfl
@[simp] theorem modMbx_ptn : (modMbx f s).ptn = s.ptn := rfl
@[simp] theorem modMbx_hev : (modMbx f s).hev = s.hev := rfl
@[simp] theorem modMbx_rdm : (modMbx f s).rdm = s.rdm := rfl
@[simp] theorem modMbx_out : (modMbx f s).out = s.out := rfl
@[simp] theorem modMbx_pending : (modMbx f s).pending = s.pending := rfl

end

section
variable (f : TstState → TstState) (s : State)

@[simp] theorem modTst_now : (modTst f s).now = s.now := rfl
@[simp] theorem modTst_draw : (modTst f s).draw = s.draw := rfl
@[simp] theorem modTst_partId : (modTst f s).partId = s.partId := rfl
@[simp] theorem modTst_idsOk : (modTst f s).idsOk = s.idsOk := rfl
@[simp] theorem modTst_rst : (modTst f s).rst = s.rst := rfl
@[simp] theorem modTst_backup : (modTst f s).backup = s.backup := rfl
@[simp] theorem modTst_clk : (modTst f s).clk = s.clk := rfl
@[simp] theorem modTst_pins : (modTst f s).pins = s.pins := rfl
@[simp] theorem modTst_prs : (modTst f s).prs = s.prs := rfl
@[simp] theorem modTst_pla : (modTst f s).pla = s.pla := rfl
@[simp] theorem modTst_cvu : (modTst f s).cvu = s.cvu := rfl
@[simp] theorem modTst_ent : (modTst f s).ent = s.ent := rfl
@[simp] theorem modTst_kst : (modTst f s).kst = s.kst := rfl
@[simp] theorem modTst_life : (modTst f s).life = s.life := rfl
@[simp] theorem modTst_ctrlFw : (modTst f s).ctrlFw = s.ctrlFw := rfl
@[simp] theorem modTst_secFw : (modTst f s).secFw = s.secFw := rfl
@[simp] theorem modTst_mpr : (modTst f s).mpr = s.mpr := rfl
@[simp] theorem modTst_mem : (modTst f s).mem = s.mem := rfl
@[simp] theorem modTst_hif : (modTst f s).hif = s.hif := rfl
@[simp] theorem modTst_mbx : (modTst f s).mbx = s.mbx := rfl
@[simp] theorem modTst_tst : (modTst f s).tst = f s.tst := rfl
@[simp] theorem modTst_buf : (modTst f s).buf = s.buf := rfl
@[simp] theorem modTst_weights : (modTst f s).weights = s.weights := rfl
@[simp] theorem modTst_dec : (modTst f s).dec = s.dec := rfl
@[simp] theorem modTst_ring : (modTst f s).ring = s.ring := rfl
@[simp] theorem modTst_ports : (modTst f s).ports = s.ports := rfl
@[simp] theorem modTst_ptn : (modTst f s).ptn = s.ptn := rfl
@[simp] theorem modTst_hev : (modTst f s).hev = s.hev := rfl
@[simp] theorem modTst_rdm : (modTst f s).rdm = s.rdm := rfl
@[simp] theorem modTst_out : (modTst f s).out = s.out := rfl
@[simp] theorem modTst_pending : (modTst f s).pending = s.pending := rfl

end

section
variable (f : BufState → BufState) (s : State)

@[simp] theorem modBuf_now : (modBuf f s).now = s.now := rfl
@[simp] theorem modBuf_draw : (modBuf f s).draw = s.draw := rfl
@[simp] theorem modBuf_partId : (modBuf f s).partId = s.partId := rfl
@[simp] theorem modBuf_idsOk : (modBuf f s).idsOk = s.idsOk := rfl
@[simp] theorem modBuf_rst : (modBuf f s).rst = s.rst := rfl
@[simp] theorem modBuf_backup : (modBuf f s).backup = s.backup := rfl
@[simp] theorem modBuf_clk : (modBuf f s).clk = s.clk := rfl
@[simp] theorem modBuf_pins : (modBuf f s).pins = s.pins := rfl
@[simp] theorem modBuf_prs : (modBuf f s).prs = s.prs := rfl
@[simp] theorem modBuf_pla : (modBuf f s).pla = s.pla := rfl
@[simp] theorem modBuf_cvu : (modBuf f s).cvu = s.cvu := rfl
@[simp] theorem modBuf_ent : (modBuf f s).ent = s.ent := rfl
@[simp] theorem modBuf_kst : (modBuf f s).kst = s.kst := rfl
@[simp] theorem modBuf_life : (modBuf f s).life = s.life := rfl
@[simp] theorem modBuf_ctrlFw : (modBuf f s).ctrlFw = s.ctrlFw := rfl
@[simp] theorem modBuf_secFw : (modBuf f s).secFw = s.secFw := rfl
@[simp] theorem modBuf_mpr : (modBuf f s).mpr = s.mpr := rfl
@[simp] theorem modBuf_mem : (modBuf f s).mem = s.mem := rfl
@[simp] theorem modBuf_hif : (modBuf f s).hif = s.hif := rfl
@[simp] theorem modBuf_mbx : (modBuf f s).mbx = s.mbx := rfl
@[simp] theorem modBuf_tst : (modBuf f s).tst = s.tst := rfl
@[simp] theorem modBuf_buf : (modBuf f s).buf = f s.buf := rfl
@[simp] theorem modBuf_weights : (modBuf f s).weights = s.weights := rfl
@[simp] theorem modBuf_dec : (modBuf f s).dec = s.dec := rfl
@[simp] theorem modBuf_ring : (modBuf f s).ring = s.ring := rfl
@[simp] theorem modBuf_ports : (modBuf f s).ports = s.ports := rfl
@[simp] theorem modBuf_ptn : (modBuf f s).ptn = s.ptn := rfl
@[simp] theorem modBuf_hev : (modBuf f s).hev = s.hev := rfl
@[simp] theorem modBuf_rdm : (modBuf f s).rdm = s.rdm := rfl
@[simp] theorem modBuf_out : (modBuf f s).out = s.out := rfl
@[simp] theorem modBuf_pending : (modBuf f s).pending = s.pending := rfl

end

section
variable (f : PtnState → PtnState) (s : State)

@[simp] theorem modPtn_now : (modPtn f s).now = s.now := rfl
@[simp] theorem modPtn_draw : (modPtn f s).draw = s.draw := rfl
@[simp] theorem modPtn_partId : (modPtn f s).partId = s.partId := rfl
@[simp] theorem modPtn_idsOk : (modPtn f s).idsOk = s.idsOk := rfl
@[simp] theorem modPtn_rst : (modPtn f s).rst = s.rst := rfl
@[simp] theorem modPtn_backup : (modPtn f s).backup = s.backup := rfl
@[simp] theorem modPtn_clk : (modPtn f s).clk = s.clk := rfl
@[simp] theorem modPtn_pins : (modPtn f s).pins = s.pins := rfl
@[simp] theorem modPtn_prs : (modPtn f s).prs = s.prs := rfl
@[simp] theorem modPtn_pla : (modPtn f s).pla = s.pla := rfl
@[simp] theorem modPtn_cvu : (modPtn f s).cvu = s.cvu := rfl
@[simp] theorem modPtn_ent : (modPtn f s).ent = s.ent := rfl
@[simp] theorem modPtn_kst : (modPtn f s).kst = s.kst := rfl
@[simp] theorem modPtn_life : (modPtn f s).life = s.life := rfl
@[simp] theorem modPtn_ctrlFw : (modPtn f s).ctrlFw = s.ctrlFw := rfl
@[simp] theorem modPtn_secFw : (modPtn f s).secFw = s.secFw := rfl
@[simp] theorem modPtn_mpr : (modPtn f s).mpr = s.mpr := rfl
@[simp] theorem modPtn_mem : (modPtn f s).mem = s.mem := rfl
@[simp] theorem modPtn_hif : (modPtn f s).hif = s.hif := rfl
@[simp] theorem modPtn_mbx : (modPtn f s).mbx = s.mbx := rfl
@[simp] theorem modPtn_tst : (modPtn f s).tst = s.tst := rfl
@[simp] theorem modPtn_buf : (modPtn f s).buf = s.buf := rfl
@[simp] theorem modPtn_weights : (modPtn f s).weights = s.weights := rfl
@[simp] theorem modPtn_dec : (modPtn f s).dec = s.dec := rfl
@[simp] theorem modPtn_ring : (modPtn f s).ring = s.ring := rfl
@[simp] theorem modPtn_ports : (modPtn f s).ports = s.ports := rfl
@[simp] theorem modPtn_ptn : (modPtn f s).ptn = f s.ptn := rfl
@[simp] theorem modPtn_hev : (modPtn f s).hev = s.hev := rfl
@[simp] theorem modPtn_rdm : (modPtn f s).rdm = s.rdm := rfl
@[simp] theorem modPtn_out : (modPtn f s).out = s.out := rfl
@[simp] theorem modPtn_pending : (modPtn f s).pending = s.pending := rfl

end

section
variable (f : HevState → HevState) (s : State)

@[simp] theorem modHev_now : (modHev f s).now = s.now := rfl
@[simp] theorem modHev_draw : (modHev f s).draw = s.draw := rfl
@[simp] theorem modHev_partId : (modHev f s).partId = s.partId := rfl
@[simp] theorem modHev_idsOk : (modHev f s).idsOk = s.idsOk := rfl
@[simp] theorem modHev_rst : (modHev f s).rst = s.rst := rfl
@[simp] theorem modHev_backup : (modHev f s).backup = s.backup := rfl
@[simp] theorem modHev_clk : (modHev f s).clk = s.clk := rfl
@[simp] theorem modHev_pins : (modHev f s).pins = s.pins := rfl
@[simp] theorem modHev_prs : (modHev f s).prs = s.prs := rfl
@[simp] theorem modHev_pla : (modHev f s).pla = s.pla := rfl
@[simp] theorem modHev_cvu : (modHev f s).cvu = s.cvu := rfl
@[simp] theorem modHev_ent : (modHev f s).ent = s.ent := rfl
@[simp] theorem modHev_kst : (modHev f s).kst = s.kst := rfl
@[simp] theorem modHev_life : (modHev f s).life = s.life := rfl
@[simp] theorem modHev_ctrlFw : (modHev f s).ctrlFw = s.ctrlFw := rfl
@[simp] theorem modHev_secFw : (modHev f s).secFw = s.secFw := rfl
@[simp] theorem modHev_mpr : (modHev f s).mpr = s.mpr := rfl
@[simp] theorem modHev_mem : (modHev f s).mem = s.mem := rfl
@[simp] theorem modHev_hif : (modHev f s).hif = s.hif := rfl
@[simp] theorem modHev_mbx : (modHev f s).mbx = s.mbx := rfl
@[simp] theorem modHev_tst : (modHev f s).tst = s.tst := rfl
@[simp] theorem modHev_buf : (modHev f s).buf = s.buf := rfl
@[simp] theorem modHev_weights : (modHev f s).weights = s.weights := rfl
@[simp] theorem modHev_dec : (modHev f s).dec = s.dec := rfl
@[simp] theorem modHev_ring : (modHev f s).ring = s.ring := rfl
@[simp] theorem modHev_ports : (modHev f s).ports = s.ports := rfl
@[simp] theorem modHev_ptn : (modHev f s).ptn = s.ptn := rfl
@[simp] theorem modHev_hev : (modHev f s).hev = f s.hev := rfl
@[simp] theorem modHev_rdm : (modHev f s).rdm = s.rdm := rfl
@[simp] theorem modHev_out : (modHev f s).out = s.out := rfl
@[simp] theorem modHev_pending : (modHev f s).pending = s.pending := rfl

end

section
variable (f : RdmState → RdmState) (s : State)

@[simp] theorem modRdm_now : (modRdm f s).now = s.now := rfl
@[simp] theorem modRdm_draw : (modRdm f s).draw = s.draw := rfl
@[simp] theorem modRdm_partId : (modRdm f s).partId = s.partId := rfl
@[simp] theorem modRdm_idsOk : (modRdm f s).idsOk = s.idsOk := rfl
@[simp] theorem modRdm_rst : (modRdm f s).rst = s.rst := rfl
@[simp] theorem modRdm_backup : (modRdm f s).backup = s.backup := rfl
@[simp] theorem modRdm_clk : (modRdm f s).clk = s.clk := rfl
@[simp] theorem modRdm_pins : (modRdm f s).pins = s.pins := rfl
@[simp] theorem modRdm_prs : (modRdm f s).prs = s.prs := rfl
@[simp] theorem modRdm_pla : (modRdm f s).pla = s.pla := rfl
@[simp] theorem modRdm_cvu : (modRdm f s).cvu = s.cvu := rfl
@[simp] theorem modRdm_ent : (modRdm f s).ent = s.ent := rfl
@[simp] theorem modRdm_kst : (modRdm f s).kst = s.kst := rfl
@[simp] theorem modRdm_life : (modRdm f s).life = s.life := rfl
@[simp] theorem modRdm_ctrlFw : (modRdm f s).ctrlFw = s.ctrlFw := rfl
@[simp] theorem modRdm_secFw : (modRdm f s).secFw = s.secFw := rfl
@[simp] theorem modRdm_mpr : (modRdm f s).mpr = s.mpr := rfl
@[simp] theorem modRdm_mem : (modRdm f s).mem = s.mem := rfl
@[simp] theorem modRdm_hif : (modRdm f s).hif = s.hif := rfl
@[simp] theorem modRdm_mbx : (modRdm f s).mbx = s.mbx := rfl
@[simp] theorem modRdm_tst : (modRdm f s).tst = s.tst := rfl
@[simp] theorem modRdm_buf : (modRdm f s).buf = s.buf := rfl
@[simp] theorem modRdm_weights : (modRdm f s).weights = s.weights := rfl
@[simp] theorem modRdm_dec : (modRdm f s).dec = s.dec := rfl
@[simp] theorem modRdm_ring : (modRdm f s).ring = s.ring := rfl
@[simp] theorem modRdm_ports : (modRdm f s).ports = s.ports := rfl
@[simp] theorem modRdm_ptn : (modRdm f s).ptn = s.ptn := rfl
@[simp] theorem modRdm_hev : (modRdm f s).hev = s.hev := rfl
@[simp] theorem modRdm_rdm : (modRdm f s).rdm = f s.rdm := rfl
@[simp] theorem modRdm_out : (modRdm f s).out = s.out := rfl
@[simp] theorem modRdm_pending : (modRdm f s).pending = s.pending := rfl

end

section
variable (f : Session → Session) (s : State)

@[simp] theorem modDec_now : (modDec f s).now = s.now := rfl
@[simp] theorem modDec_draw : (modDec f s).draw = s.draw := rfl
@[simp] theorem modDec_partId : (modDec f s).partId = s.partId := rfl
@[simp] theorem modDec_idsOk : (modDec f s).idsOk = s.idsOk := rfl
@[simp] theorem modDec_rst : (modDec f s).rst = s.rst := rfl
@[simp] theorem modDec_backup : (modDec f s).backup = s.backup := rfl
@[simp] theorem modDec_clk : (modDec f s).clk = s.clk := rfl
@[simp] theorem modDec_pins : (modDec f s).pins = s.pins := rfl
@[simp] theorem modDec_prs : (modDec f s).prs = s.prs := rfl
@[simp] theorem modDec_pla : (modDec f s).pla = s.pla := rfl
@[simp] theorem modDec_cvu : (modDec f s).cvu = s.cvu := rfl
@[simp] theorem modDec_ent : (modDec f s).ent = s.ent := rfl
@[simp] theorem modDec_kst : (modDec f s).kst = s.kst := rfl
@[simp] theorem modDec_life : (modDec f s).life = s.life := rfl
@[simp] theorem modDec_ctrlFw : (modDec f s).ctrlFw = s.ctrlFw := rfl
@[simp] theorem modDec_secFw : (modDec f s).secFw = s.secFw := rfl
@[simp] theorem modDec_mpr : (modDec f s).mpr = s.mpr := rfl
@[simp] theorem modDec_mem : (modDec f s).mem = s.mem := rfl
@[simp] theorem modDec_hif : (modDec f s).hif = s.hif := rfl
@[simp] theorem modDec_mbx : (modDec f s).mbx = s.mbx := rfl
@[simp] theorem modDec_tst : (modDec f s).tst = s.tst := rfl
@[simp] theorem modDec_buf : (modDec f s).buf = s.buf := rfl
@[simp] theorem modDec_weights : (modDec f s).weights = s.weights := rfl
@[simp] theorem modDec_dec : (modDec f s).dec = s.dec.map f := rfl
@[simp] theorem modDec_ring : (modDec f s).ring = s.ring := rfl
@[simp] theorem modDec_ports : (modDec f s).ports = s.ports := rfl
@[simp] theorem modDec_ptn : (modDec f s).ptn = s.ptn := rfl
@[simp] theorem modDec_hev : (modDec f s).hev = s.hev := rfl
@[simp] theorem modDec_rdm : (modDec f s).rdm = s.rdm := rfl
@[simp] theorem modDec_out : (modDec f s).out = s.out := rfl
@[simp] theorem modDec_pending : (modDec f s).pending = s.pending := rfl

end

section
variable (f : Ring → Ring) (s : State)

@[simp] theorem modRing_now : (modRing f s).now = s.now := rfl
@[simp] theorem modRing_draw : (modRing f s).draw = s.draw := rfl
@[simp] theorem modRing_partId : (modRing f s).partId = s.partId := rfl
@[simp] theorem modRing_idsOk : (modRing f s).idsOk = s.idsOk := rfl
@[simp] theorem modRing_rst : (modRing f s).rst = s.rst := rfl
@[simp] theorem modRing_backup : (modRing f s).backup = s.backup := rfl
@[simp] theorem modRing_clk : (modRing f s).clk = s.clk := rfl
@[simp] theorem modRing_pins : (modRing f s).pins = s.pins := rfl
@[simp] theorem modRing_prs : (modRing f s).prs = s.prs := rfl
@[simp] theorem modRing_pla : (modRing f s).pla = s.pla := rfl
@[simp] theorem modRing_cvu : (modRing f s).cvu = s.cvu := rfl
@[simp] theorem modRing_ent : (modRing f s).ent = s.ent := rfl
@[simp] theorem modRing_kst : (modRing f s).kst = s.kst := rfl
@[simp] theorem modRing_life : (modRing f s).life = s.life := rfl
@[simp] theorem modRing_ctrlFw : (modRing f s).ctrlFw = s.ctrlFw := rfl
@[simp] theorem modRing_secFw : (modRing f s).secFw = s.secFw := rfl
@[simp] theorem modRing_mpr : (modRing f s).mpr = s.mpr := rfl
@[simp] theorem modRing_mem : (modRing f s).mem = s.mem := rfl
@[simp] theorem modRing_hif : (modRing f s).hif = s.hif := rfl
@[simp] theorem modRing_mbx : (modRing f s).mbx = s.mbx := rfl
@[simp] theorem modRing_tst : (modRing f s).tst = s.tst := rfl
@[simp] theorem modRing_buf : (modRing f s).buf = s.buf := rfl
@[simp] theorem modRing_weights : (modRing f s).weights = s.weights := rfl
@[simp] theorem modRing_dec : (modRing f s).dec = s.dec := rfl
@[simp] theorem modRing_ring : (modRing f s).ring = s.ring.map f := rfl
@[simp] theorem modRing_ports : (modRing f s).ports = s.ports := rfl
@[simp] theorem modRing_ptn : (modRing f s).ptn = s.ptn := rfl
@[simp] theorem modRing_hev : (modRing f s).hev = s.hev := rfl
@[simp] theorem modRing_rdm : (modRing f s).rdm = s.rdm := rfl
@[simp] theorem modRing_out : (modRing f s).out = s.out := rfl
@[simp] theorem modRing_pending : (modRing f s).pending = s.pending := rfl

end

section
variable (p : Nat) (f : Port → Port) (s : State)

@[simp] theorem modPort_now : (modPort p f s).now = s.now := rfl
@[simp] theorem modPort_draw : (modPort p f s).draw = s.draw := rfl
@[simp] theorem modPort_partId : (modPort p f s).partId = s.partId := rfl
@[simp] theorem modPort_idsOk : (modPort p f s).idsOk = s.idsOk := rfl
@[simp] theorem modPort_rst : (modPort p f s).rst = s.rst := rfl
@[simp] theorem modPort_backup : (modPort p f s).backup = s.backup := rfl
@[simp] theorem modPort_clk : (modPort p f s).clk = s.clk := rfl
@[simp] theorem modPort_pins : (modPort p f s).pins = s.pins := rfl
@[simp] theorem modPort_prs : (modPort p f s).prs = s.prs := rfl
@[simp] theorem modPort_pla : (modPort p f s).pla = s.pla := rfl
@[simp] theorem modPort_cvu : (modPort p f s).cvu = s.cvu := rfl
@[simp] theorem modPort_ent : (modPort p f s).ent = s.ent := rfl
@[simp] theorem modPort_kst : (modPort p f s).kst = s.kst := rfl
@[simp] theorem modPort_life : (modPort p f s).life = s.life := rfl
@[simp] theorem modPort_ctrlFw : (modPort p f s).ctrlFw = s.ctrlFw := rfl
@[simp] theorem modPort_secFw : (modPort p f s).secFw = s.secFw := rfl
@[simp] theorem modPort_mpr : (modPort p f s).mpr = s.mpr := rfl
@[simp] theorem modPort_mem : (modPort p f s).mem = s.mem := rfl
@[simp] theorem modPort_hif : (modPort p f s).hif = s.hif := rfl
@[simp] theorem modPort_mbx : (modPort p f s).mbx = s.mbx := rfl
@[simp] theorem modPort_tst : (modPort p f s).tst = s.tst := rfl
@[simp] theorem modPort_buf : (modPort p f s).buf = s.buf := rfl
@[simp] theorem modPort_weights : (modPort p f s).weights = s.weights := rfl
@[simp] theorem modPort_dec : (modPort p f s).dec = s.dec := rfl
@[simp] theorem modPort_ring : (modPort p f s).ring = s.ring := rfl
@[simp] theorem modPort_ports : (modPort p f s).ports = mod5 s.ports p f := rfl
@[simp] theorem modPort_ptn : (modPort p f s).ptn = s.ptn := rfl
@[simp] theorem modPort_hev : (modPort p f s).hev = s.hev := rfl
@[simp] theorem modPort_rdm : (modPort p f s).rdm = s.rdm := rfl
@[simp] theorem modPort_out : (modPort p f s).out = s.out := rfl
@[simp] theorem modPort_pending : (modPort p f s).pending = s.pending := rfl

end

section
variable (n : Nat) (f : FnState → FnState) (s : State)

@[simp] theorem modFn_now : (modFn n f s).now = s.now := rfl
@[simp] theorem modFn_draw : (modFn n f s).draw = s.draw := rfl
@[simp] theorem modFn_partId : (modFn n f s).partId = s.partId := rfl
@[simp] theorem modFn_idsOk : (modFn n f s).idsOk = s.idsOk := rfl
@[simp] theorem modFn_rst : (modFn n f s).rst = s.rst := rfl
@[simp] theorem modFn_backup : (modFn n f s).backup = s.backup := rfl
@[simp] theorem modFn_clk : (modFn n f s).clk = s.clk := rfl
@[simp] theorem modFn_pins : (modFn n f s).pins = s.pins := rfl
@[simp] theorem modFn_prs : (modFn n f s).prs = s.prs := rfl
@[simp] theorem modFn_pla : (modFn n f s).pla = s.pla := rfl
@[simp] theorem modFn_cvu : (modFn n f s).cvu = s.cvu := rfl
@[simp] theorem modFn_ent : (modFn n f s).ent = s.ent := rfl
@[simp] theorem modFn_kst : (modFn n f s).kst = s.kst := rfl
@[simp] theorem modFn_life : (modFn n f s).life = s.life := rfl
@[simp] theorem modFn_ctrlFw : (modFn n f s).ctrlFw = s.ctrlFw := rfl
@[simp] theorem modFn_secFw : (modFn n f s).secFw = s.secFw := rfl
@[simp] theorem modFn_mpr : (modFn n f s).mpr = s.mpr := rfl
@[simp] theorem modFn_mem : (modFn n f s).mem = s.mem := rfl
@[simp] theorem modFn_hif : (modFn n f s).hif = { s.hif with fns := mod5 s.hif.fns n f } := rfl
@[simp] theorem modFn_mbx : (modFn n f s).mbx = s.mbx := rfl
@[simp] theorem modFn_tst : (modFn n f s).tst = s.tst := rfl
@[simp] theorem modFn_buf : (modFn n f s).buf = s.buf := rfl
@[simp] theorem modFn_weights : (modFn n f s).weights = s.weights := rfl
@[simp] theorem modFn_dec : (modFn n f s).dec = s.dec := rfl
@[simp] theorem modFn_ring : (modFn n f s).ring = s.ring := rfl
@[simp] theorem modFn_ports : (modFn n f s).ports = s.ports := rfl
@[simp] theorem modFn_ptn : (modFn n f s).ptn = s.ptn := rfl
@[simp] theorem modFn_hev : (modFn n f s).hev = s.hev := rfl
@[simp] theorem modFn_rdm : (modFn n f s).rdm = s.rdm := rfl
@[simp] theorem modFn_out : (modFn n f s).out = s.out := rfl
@[simp] theorem modFn_pending : (modFn n f s).pending = s.pending := rfl

end

section
variable (mb : Nat) (f : Mailbox → Mailbox) (s : State)

@[simp] theorem modBox_now : (modBox mb f s).now = s.now := rfl
@[simp] theorem modBox_draw : (modBox mb f s).draw = s.draw := rfl
@[simp] theorem modBox_partId : (modBox mb f s).partId = s.partId := rfl
@[simp] theorem modBox_idsOk : (modBox mb f s).idsOk = s.idsOk := rfl
@[simp] theorem modBox_rst : (modBox mb f s).rst = s.rst := rfl
@[simp] theorem modBox_backup : (modBox mb f s).backup = s.backup := rfl
@[simp] theorem modBox_clk : (modBox mb f s).clk = s.clk := rfl
@[simp] theorem modBox_pins : (modBox mb f s).pins = s.pins := rfl
@[simp] theorem modBox_prs : (modBox mb f s).prs = s.prs := rfl
@[simp] theorem modBox_pla : (modBox mb f s).pla = s.pla := rfl
@[simp] theorem modBox_cvu : (modBox mb f s).cvu = s.cvu := rfl
@[simp] theorem modBox_ent : (modBox mb f s).ent = s.ent := rfl
@[simp] theorem modBox_kst : (modBox mb f s).kst = s.kst := rfl
@[simp] theorem modBox_life : (modBox mb f s).life = s.life := rfl
@[simp] theorem modBox_ctrlFw : (modBox mb f s).ctrlFw = s.ctrlFw := rfl
@[simp] theorem modBox_secFw : (modBox mb f s).secFw = s.secFw := rfl
@[simp] theorem modBox_mpr : (modBox mb f s).mpr = s.mpr := rfl
@[simp] theorem modBox_mem : (modBox mb f s).mem = s.mem := rfl
@[simp] theorem modBox_hif : (modBox mb f s).hif = s.hif := rfl
@[simp] theorem modBox_mbx : (modBox mb f s).mbx = { s.mbx with boxes := mod4 s.mbx.boxes mb f } := rfl
@[simp] theorem modBox_tst : (modBox mb f s).tst = s.tst := rfl
@[simp] theorem modBox_buf : (modBox mb f s).buf = s.buf := rfl
@[simp] theorem modBox_weights : (modBox mb f s).weights = s.weights := rfl
@[simp] theorem modBox_dec : (modBox mb f s).dec = s.dec := rfl
@[simp] theorem modBox_ring : (modBox mb f s).ring = s.ring := rfl
@[simp] theorem modBox_ports : (modBox mb f s).ports = s.ports := rfl
@[simp] theorem modBox_ptn : (modBox mb f s).ptn = s.ptn := rfl
@[simp] theorem modBox_hev : (modBox mb f s).hev = s.hev := rfl
@[simp] theorem modBox_rdm : (modBox mb f s).rdm = s.rdm := rfl
@[simp] theorem modBox_out : (modBox mb f s).out = s.out := rfl
@[simp] theorem modBox_pending : (modBox mb f s).pending = s.pending := rfl

end

section
variable (o : Output) (s : State)

@[simp] theorem emit_now : (emit o s).now = s.now := rfl
@[simp] theorem emit_draw : (emit o s).draw = s.draw := rfl
@[simp] theorem emit_partId : (emit o s).partId = s.partId := rfl
@[simp] theorem emit_idsOk : (emit o s).idsOk = s.idsOk := rfl
@[simp] theorem emit_rst : (emit o s).rst = s.rst := rfl
@[simp] theorem emit_backup : (emit o s).backup = s.backup := rfl
@[simp] theorem emit_clk : (emit o s).clk = s.clk := rfl
@[simp] theorem emit_pins : (emit o s).pins = s.pins := rfl
@[simp] theorem emit_prs : (emit o s).prs = s.prs := rfl
@[simp] theorem emit_pla : (emit o s).pla = s.pla := rfl
@[simp] theorem emit_cvu : (emit o s).cvu = s.cvu := rfl
@[simp] theorem emit_ent : (emit o s).ent = s.ent := rfl
@[simp] theorem emit_kst : (emit o s).kst = s.kst := rfl
@[simp] theorem emit_life : (emit o s).life = s.life := rfl
@[simp] theorem emit_ctrlFw : (emit o s).ctrlFw = s.ctrlFw := rfl
@[simp] theorem emit_secFw : (emit o s).secFw = s.secFw := rfl
@[simp] theorem emit_mpr : (emit o s).mpr = s.mpr := rfl
@[simp] theorem emit_mem : (emit o s).mem = s.mem := rfl
@[simp] theorem emit_hif : (emit o s).hif = s.hif := rfl
@[simp] theorem emit_mbx : (emit o s).mbx = s.mbx := rfl
@[simp] theorem emit_tst : (emit o s).tst = s.tst := rfl
@[simp] theorem emit_buf : (emit o s).buf = s.buf := rfl
@[simp] theorem emit_weights : (emit o s).weights = s.weights := rfl
@[simp] theorem emit_dec : (emit o s).dec = s.dec := rfl
@[simp] theorem emit_ring : (emit o s).ring = s.ring := rfl
@[simp] theorem emit_ports : (emit o s).ports = s.ports := rfl
@[simp] theorem emit_ptn : (emit o s).ptn = s.ptn := rfl
@[simp] theorem emit_hev : (emit o s).hev = s.hev := rfl
@[simp] theorem emit_rdm : (emit o s).rdm = s.rdm := rfl
@[simp] theorem emit_out : (emit o s).out = s.out ++ [o] := rfl
@[simp] theorem emit_pending : (emit o s).pending = s.pending := rfl

end

end Sys2Proof.Machine
end

