-- ==== Sys2Proof/WellFormed.lean ====
section
/-! DEFINITION. Which terms of Instr are transactions, packets and events that the spec's interfaces can carry: widths,
lengths and index ranges of their operands. A term outside them reaches the module by no interface. -/

namespace Sys2Proof

/-- The operands lie in the ranges that the interfaces of the spec can carry: register widths (R17), SMBus lengths (R315),
ring numbers (R273), member numbers and epochs (Table 2-1), RoCEv2 field widths (R248), BAR2 sizes (R297, Table 15-1),
SPDM nonces, tamper sources (Table 18-8), check-value words (R381). -/
def wellFormed : Instr → Bool
  | .registerWrite _ _ place width v => decide (v.toNat < 2 ^ (8 * width)) && (match place with
    | .bar0 off => decide (off < 2 ^ 24) && [1, 2, 4, 8].contains width
    | .barRegister _ => width == 4
    | .msixTable off => decide (off + width ≤ 0x8000) && off % width == 0 && (width == 4 || width == 8)
    | .ideRegister off => decide (off < 0x1000) && off % 4 == 0 && width == 4)
  | .badRegisterAccess _ _ off width _ => decide (off < 2 ^ 24) && [1, 2, 4, 8].contains width
  | .loRegisterRead _ _ => true
  | .snapCtrlArm _ => true
  | .mailboxGo _ _ => true
  | .commandDispatch _ => true
  | .smbusBlockWrite _ data _ => decide (1 ≤ data.length ∧ data.length ≤ 30)
  | .smbusProcessCall _ count _ => decide (1 ≤ count ∧ count ≤ 32)
  | .identityGet _ => true
  | .moduleStatus _ => true
  | .eventRingSet _ => true
  | .eventRingClear _ => true
  | .lifecycleGet _ => true
  | .ownerClaim _ _ => true
  | .modeSet _ _ => true
  | .ownerRelease _ _ => true
  | .retire _ _ => true
  | .tamperUnlock _ _ => true
  | .keyGenerate _ => true
  | .keyImportWrapped _ => true
  | .keyDestroy _ => true
  | .keySlotStatus _ => true
  | .keyOriginStatement _ => true
  | .attestReport _ => true
  | .certChainGet _ => true
  | .plateKeyEnroll _ _ => true
  | .hbmKeyRotate _ => true
  | .randomGet _ => true
  | .randomGetTimeout _ => true
  | .plateStage _ _ => true
  | .plateBind _ => true
  | .plateUnstage _ => true
  | .fabricStatus _ => true
  | .decodeOpen _ => true
  | .weightsLoad _ => true
  | .draftLoad _ => true
  | .weightsUnload _ => true
  | .decodeFinish _ => true
  | .decodeClose _ => true
  | .decodeStatus _ => true
  | .replayVerify _ _ => true
  | .ringForm _ => true
  | .ringFormTimeout _ => true
  | .ringStatus _ => true
  | .ringDissolve _ => true
  | .ringSpareJoin _ => true
  | .ringAdmit _ => true
  | .roundOpen _ => true
  | .roundClose _ => true
  | .roundCorrect _ => true
  | .roundRelease _ => true
  | .roundAbort _ => true
  | .roundStatus _ => true
  | .roundCounts _ => true
  | .roundBitmap _ => true
  | .hevCtxOpen _ => true
  | .hevCtxClose _ => true
  | .hevKeyLoad _ => true
  | .hevKeyDrop _ => true
  | .hevCtxStatus _ => true
  | .hevBurnishSet _ => true
  | .portSet _ => true
  | .portStatus _ => true
  | .macsecSaSet _ => true
  | .macsecSaClear _ => true
  | .linkRekey _ => true
  | .rdmPdAlloc _ => true
  | .rdmPdFree _ => true
  | .rdmRegionReg _ => true
  | .rdmRegionDereg _ => true
  | .rdmWindowOpen _ => true
  | .rdmWindowRevoke _ => true
  | .rdmConnOpen _ => true
  | .rdmConnClose _ => true
  | .rdmConnStatus _ => true
  | .rdmTrigger _ => true
  | .wringCreate _ => true
  | .wringDestroy _ => true
  | .cringCreate _ => true
  | .cringDestroy _ => true
  | .wringStatus _ => true
  | .funcQuiesce _ => true
  | .bistLogic _ => true
  | .bistMemory _ => true
  | .hbmPatternTest _ => true
  | .snapshotArm _ => true
  | .snapshotRead _ => true
  | .fwStage _ _ => true
  | .fwActivate _ => true
  | .fwStatus _ => true
  | .rollbackAdvance _ => true
  | .workRingDoorbell _ _ ring _ => decide (ring < 8192)
  | .completionRingDoorbell _ _ ring _ => decide (ring < 8192)
  | .eventRingDoorbell _ _ => true
  | .descriptorFetch _ => true
  | .completionCoalesceExpire cring => decide (cring < 8192)
  | .wringDrainDone wring => decide (wring < 8192)
  | .decodeInputDescriptor _ => true
  | .decodeOutputDescriptor _ => true
  | .hevImport _ => true
  | .hevExport _ => true
  | .hevAdd _ => true
  | .hevSub _ => true
  | .hevNeg _ => true
  | .hevAddPlain _ => true
  | .hevMulPlain _ => true
  | .hevMul _ => true
  | .hevRescale _ => true
  | .hevDrop _ => true
  | .hevAutomorph _ => true
  | .hevRotsum _ => true
  | .hevNtt _ => true
  | .hevIntt _ => true
  | .burnish _ => true
  | .hevOpBegin _ => true
  | .hevOpComplete _ _ => true
  | .rdmSend _ => true
  | .rdmSendImm _ => true
  | .rdmWrite _ => true
  | .rdmWriteImm _ => true
  | .rdmRead _ => true
  | .rdmReceivePost _ => true
  | .triggeredRequestFire _ => true
  | .actionBegin _ => true
  | .actionComplete _ _ => true
  | .pressAdvance => true
  | .idleStroke => true
  | .pressStall => true
  | .snapshotDone => true
  | .plateLoadComplete _ _ => true
  | .prefillChunk => true
  | .verificationStep => true
  | .stepCommit => true
  | .sessionResume => true
  | .openDigestExchange digests => digests.all (fun d => decide (d.1 < 32) && d.2.length == 64)
  | .openJoinTimeout member => decide (member < 32)
  | .ringFrameReceive _ f => decide (1 ≤ f.type ∧ f.type ≤ 4 ∧ f.dest < 32 ∧ f.src < 32 ∧ f.hopsLeft ≤ 16 ∧ f.offset % 64 = 0 ∧ 1 ≤ f.payload.length ∧ f.payload.length ≤ 8192 ∧
      (f.offset + f.payload.length = f.datumLen ∨ (f.payload.length % 64 = 0 ∧ f.offset + f.payload.length < f.datumLen)))
  | .ringDelimiterReceive _ d => decide (d.item.ack < 2 ^ 48)
  | .ringRetxTimeout _ => true
  | .ringIdleDelimiter _ => true
  | .keepaliveSend _ => true
  | .keepaliveReceive _ src stroke epoch state => decide (src < 32 ∧ stroke < 2 ^ 48 ∧ epoch < 256 ∧ state < 8)
  | .linkSilenceTimeout member _ => decide (member < 32)
  | .progressTimeout member => decide (member < 32)
  | .suspicionReceive src x => decide (src < 32 ∧ x.member < 32) && x.cable.all (· < 64)
  | .selfReportReceive member => decide (member < 32)
  | .stepDigestVote => true
  | .viewFrameReceive v => decide (v.src < 32 ∧ v.epoch < 256)
  | .reformTimeout => true
  | .mirrorRebuildDone _ _ => true
  | .spareHandover _ => true
  | .ringHandshakeInitReceive _ _ => true
  | .ringHandshakeResponseReceive _ _ => true
  | .rekeySwitch _ => true
  | .rekeyRetry _ => true
  | .portTrainAttempt _ _ => true
  | .portLinkUp _ => true
  | .linkDown _ reason => decide (1 ≤ reason.item ∧ reason.item ≤ 9)
  | .networkFrameReceive _ f => decide (f.item.priority < 8 ∧ 64 ≤ f.item.length)
  | .pfcPauseReceive _ _ => true
  | .roceRequestReceive p => decide (p.qpn < 2 ^ 24 ∧ p.psn < 2 ^ 24 ∧ p.rkey < 2 ^ 32 ∧ p.va < 2 ^ 64 ∧ p.dmaLen < 2 ^ 32 ∧ p.data.length ≤ 4096)
  | .roceAckReceive qpn psn _ => decide (qpn < 2 ^ 24 ∧ psn < 2 ^ 24)
  | .roceReadResponseReceive qpn psn data _ => decide (qpn < 2 ^ 24 ∧ psn < 2 ^ 24 ∧ data.bytes.length ≤ 4096)
  | .roceNakReceive qpn psn _ => decide (qpn < 2 ^ 24 ∧ psn < 2 ^ 24)
  | .psnSequenceNakReceive qpn psn => decide (qpn < 2 ^ 24 ∧ psn < 2 ^ 24)
  | .rnrNakReceive qpn psn timer => decide (qpn < 2 ^ 24 ∧ psn < 2 ^ 24 ∧ timer < 32)
  | .rnrTimerExpire _ => true
  | .ackTimeout _ => true
  | .contextFetchDone _ => true
  | .cnpReceive qpn => decide (qpn < 2 ^ 24)
  | .rateIncreaseTimer _ => true
  | .finalWritePlace _ _ => true
  | .revokeDone _ => true
  | .stagingReserve => true
  | .sliceAdmission _ _ => true
  | .roundClosed _ => true
  | .eventIrqCoalesceExpire => true
  | .bar2Read _ off len _ _ => decide (1 ≤ len ∧ len ≤ 4096 ∧ off + len ≤ 2 ^ 36)
  | .bar2Write _ off data _ _ => decide (1 ≤ data.length ∧ data.length ≤ 512 ∧ off + data.length ≤ 2 ^ 36)
  | .hostReadCompletion _ _ => true
  | .hostCompletionTimeout _ => true
  | .flr _ => true
  | .flrPf0 => true
  | .hotReset => true
  | .busMasterEnableSet _ => true
  | .getVersion => true
  | .getCapabilities => true
  | .negotiateAlgorithms _ _ => true
  | .getDigests => true
  | .getCertificate _ _ => true
  | .challenge nonce => nonce.length == 32
  | .getMeasurements nonce => nonce.length == 32
  | .keyExchange _ => true
  | .finish _ => true
  | .endSession => true
  | .keyUpdate => true
  | .heartbeat => true
  | .ideKmKeyProg _ _ _ _ key => key.length == 32
  | .kSetGo _ => true
  | .ideIntegrityFail _ => true
  | .lockInterfaceRequest _ => true
  | .startInterfaceRequest _ => true
  | .stopInterfaceRequest _ => true
  | .getDeviceInterfaceReport _ => true
  | .cvuStart _ => true
  | .cvuDataWrite _ nbytes v => [1, 2, 4].contains nbytes && decide (v.toNat < 2 ^ (8 * nbytes))
  | .cvuByteStep => true
  | .cvuResultRead _ => true
  | .standbyRequest _ _ => true
  | .debugBar0Access port width _ => (match port with
    | .bar0 off => decide (off < 2 ^ 24) && [1, 2, 4, 8].contains width
    | .clocks _ | .reset => true)
  | .debugMemoryAccess addr len write => decide (addr.addr < 2 ^ 48 ∧ 1 ≤ len) && (match write with | some b => b.length == len | none => true)
  | .debugHalt _ => true
  | .debugStep _ => true
  | .debugResume _ => true
  | .powerOn => true
  | .resetNFall => true
  | .coreResetQualify => true
  | .resetStretchRelease => true
  | .systemResetQualify => true
  | .resetNRise _ => true
  | .optionLoadDone _ _ _ _ => true
  | .firmwareReady _ _ => true
  | .watchdogExpire _ => true
  | .hbmZeroFillDone => true
  | .hbmSweepDone => true
  | .entropyBlock _ _ => true
  | .drbgInstantiate => true
  | .drbgReseed => true
  | .powerCapDecision _ => true
  | .fastPowerLimit _ => true
  | .thermalSample _ _ _ _ _ => true
  | .thermalTrip _ _ => true
  | .inputUndervoltage => true
  | .inputOvervoltage => true
  | .tamperAlarm source => decide (1 ≤ source ∧ source ≤ 6)
  | .backupTamperLatch source => [1, 2, 4].contains source
  | .backupSupplyLoss => true
  | .hbmTrainingDone => true
  | .pcieLinkUp _ _ _ => true
  | .pcieLinkDown => true
  | .selfTestDone _ _ _ => true
  | .entropyWaitTimeout _ => true
  | .fastLimitAlertRelease => true
  | .busMasterEnableClear _ => true
  | .d3hotTransition _ _ => true
  | .pfcPauseExpire _ _ => true

end Sys2Proof
end

