-- ==== Sys2Proof/Tests/Slice0.lean ====
section
/-! SUPPORT. The model's own tests: terms that WellFormed refuses, the spec's worked examples, one command each, and for each obligation
with hypotheses the inputs that meet them. Expected values come from the spec. -/

open Sys2Proof Sys2Proof.Machine
namespace Sys2Proof.Tests

-- Many kernel evaluations in a row: one at a time.
set_option Elab.async false

/-! ## Small states -/

/-- A key of a slot. -/
def key (slot mask : Nat) : KeySlot :=
  { slot := slot, type := 3, origin := 1, mask := mask, nonExport := true, secret := [slot], pub := [], bound := [] }

/-- A function that may issue requests. -/
def master : FnState := { State.reset.hif.fns.a0 with bme := true }

/-- The module in OWNED_OPEN: its firmware runs, HBM is filled, its keys are ready, its functions may issue requests. -/
def live : State := { State.reset with
  rst := { State.reset.rst with optLoad := false }
  mbx := { State.reset.mbx with fwReady := true }
  mpr := { State.reset.mpr with trained := true, filled := true }
  kst := { State.reset.kst with slots := [key 0 0, key 1 0, key 4 0], chain := [1, 2, 3] }
  life := { State.reset.life with stored := .ownedOpen, ownerKey := [7] }
  hif := { State.reset.hif with fns := ⟨master, master, master, master, master⟩ } }

/-- Bytes written out as fields: a length and a value each. -/
def pay (l : List (Nat × Nat)) : Bytes := l.flatMap (fun x => leBytes x.1 x.2)

/-- A command of mailbox 0 that has begun, and the state in which it is the only one. -/
def job (op : Nat) (p : Bytes) : Job :=
  { mb := 0, order := 0, opcode := op, flags := 0, tag := 0, payload := p, phase := 1, attached := true, subject := 0, applied := 0, head := pay [(2, op), (30, 0)], bad := [], data := [], ended := none }
def on (op : Nat) (p : Bytes) (s : State) : State := { s with mbx := { s.mbx with jobs := [job op p] } }

theorem padded (b : Bytes) (n m : Nat) (h : b.length + n = m) : (b ++ zeros n).length = m := by
  simp [zeros, h]

/-- What opens a decode session: sheets 0 and 1, four input tokens, one block of stretch, at most four outputs. -/
def opening : Bytes :=
  pay [(4, 0), (4, 0), (4, 3), (4, 4), (8, 0), (2, 0), (2, 1), (4, 0), (64, 0), (32, 0), (4, 0), (4, 0x3F800000), (4, 0), (4, 4),
    (4, 2 ^ 32 - 1), (4, 2 ^ 32 - 1), (4, 2 ^ 32 - 1), (4, 0), (16, 1), (8, 0), (8, 0)]
/-- Resident weights with a vocabulary of 1,024. -/
def wts : Resident := { digest := zeros 64, bytes := pay [(24, 0), (4, 1024)], base := 0, epoch := 0 }
def sess : Session := newSession live 11 opening []
/-- The module with an open session. -/
def decoding (d : Session) : State :=
  { live with weights := some wts, dec := some d, pla := { live.pla with grants := [⟨.decode, 3, false, []⟩] } }

/-- A descriptor that has been fetched, and the state that holds it. -/
def desc (fn : Nat) (b : Bytes) : FDesc := { id := 0, wring := 0, fn := fn, bytes := b, taken := false, entry := none }
def fetchedIn (f : FDesc) (s : State) : State := { s with buf := { s.buf with descs := [f] } }

/-! ## WellFormed refuses an operand out of its range -/

def emptyFrame : NetFrame := { kind := .eapol, priority := 0, length := 64, ect := false, ce := false, fcsOk := true, bytes := [] }
def ringFrame0 : RingFrame :=
  { type := 1, dest := 0, src := 0, hopsLeft := 0, linkId := 0, frameCtr := 0, name := ⟨0, 0, 0, 0, 0⟩, datumLen := 1, offset := 0, payload := [0]
    tagOk := true, bad := [] }
def packet0 : RocePacket :=
  { port := 0, qpn := 0, psn := 0, op := .send, first := true, last := true, rkey := 0, va := 0, dmaLen := 0, imm := 0, final := false, ce := false, bad := [], fails := [], data := [] }

theorem test_ill_formed_accesses : [Instr.registerWrite 0 false (.bar0 (2 ^ 24)) 4 0, .registerWrite 0 false (.bar0 0) 3 0, .registerWrite 0 false (.bar0 0) 4 (2 ^ 32),
    .registerWrite 0 false (.barRegister 0) 8 0, .registerWrite 0 false (.msixTable 0x7FFC) 8 0, .registerWrite 0 false (.ideRegister 0x1000) 4 0,
    .badRegisterAccess 0 false (2 ^ 24) 4 true, .badRegisterAccess 0 false 0 16 true, .smbusBlockWrite ⟨0x58, 0⟩ [] true, .smbusBlockWrite ⟨0x58, 0⟩ (zeros 31) true,
    .smbusProcessCall ⟨0x58, 0⟩ 0 true, .smbusProcessCall ⟨0x58, 0⟩ 33 true, .workRingDoorbell 1 false 8192 0, .completionRingDoorbell 1 false 8192 0,
    .completionCoalesceExpire 8192, .wringDrainDone 8192, .cvuDataWrite false 3 0, .cvuDataWrite false 1 256, .debugBar0Access (.bar0 (2 ^ 24)) 4 none,
    .debugBar0Access (.bar0 0) 5 none, .tamperAlarm 0, .tamperAlarm 7, .backupTamperLatch 3].all (fun i => !wellFormed i) = true := by decide

theorem test_ill_formed_ring : [Instr.openDigestExchange [(32, zeros 64)], .openDigestExchange [(0, zeros 63)], .openJoinTimeout 32,
    .ringFrameReceive 0 { ringFrame0 with dest := 32 }, .ringFrameReceive 0 { ringFrame0 with src := 32 },
    .ringFrameReceive 0 { ringFrame0 with hopsLeft := 17 }, .ringFrameReceive 0 { ringFrame0 with type := 0 },
    .ringFrameReceive 0 { ringFrame0 with datumLen := 2 }, .ringFrameReceive 0 { ringFrame0 with payload := [] }, .ringDelimiterReceive 0 ⟨⟨2 ^ 48, false, false, false, false⟩, ⟨0, 0⟩⟩,
    .keepaliveReceive 0 32 0 0 0, .keepaliveReceive 0 0 (2 ^ 48) 0 0, .keepaliveReceive 0 0 0 256 0, .keepaliveReceive 0 0 0 0 8,
    .linkSilenceTimeout 32 0, .progressTimeout 32, .suspicionReceive 32 ⟨0, none⟩, .suspicionReceive 0 ⟨32, none⟩, .suspicionReceive 0 ⟨0, some 64⟩, .selfReportReceive 32,
    .viewFrameReceive ⟨32, 0, 0, 0, []⟩, .viewFrameReceive ⟨0, 256, 0, 0, []⟩].all (fun i => !wellFormed i) = true := by decide

theorem test_ill_formed_ring_payload : wellFormed (.ringFrameReceive 0 { ringFrame0 with payload := zeros 8256, datumLen := 8256 }) = false := by decide +kernel

theorem test_ill_formed_network : [Instr.linkDown 0 ⟨0, ⟨0, 0⟩⟩, .linkDown 0 ⟨10, ⟨0, 0⟩⟩, .networkFrameReceive 0 ⟨{ emptyFrame with priority := 8 }, ⟨0, 0⟩⟩,
    .networkFrameReceive 0 ⟨{ emptyFrame with length := 63 }, ⟨0, 0⟩⟩, .roceRequestReceive { packet0 with qpn := 2 ^ 24 },
    .roceRequestReceive { packet0 with psn := 2 ^ 24 }, .roceRequestReceive { packet0 with rkey := 2 ^ 32 },
    .roceRequestReceive { packet0 with va := 2 ^ 64 }, .roceRequestReceive { packet0 with dmaLen := 2 ^ 32 },
    .roceRequestReceive { packet0 with data := zeros 4097 }, .roceAckReceive (2 ^ 24) 0 none, .roceAckReceive 0 (2 ^ 24) none,
    .roceReadResponseReceive (2 ^ 24) 0 ⟨[], []⟩ true, .roceReadResponseReceive 0 (2 ^ 24) ⟨[], []⟩ true, .roceReadResponseReceive 0 0 ⟨zeros 4097, []⟩ true,
    .roceNakReceive (2 ^ 24) 0 .remoteAccess, .roceNakReceive 0 (2 ^ 24) .remoteAccess, .psnSequenceNakReceive (2 ^ 24) 0,
    .psnSequenceNakReceive 0 (2 ^ 24), .rnrNakReceive (2 ^ 24) 0 0, .rnrNakReceive 0 (2 ^ 24) 0, .rnrNakReceive 0 0 32,
    .cnpReceive (2 ^ 24)].all (fun i => !wellFormed i) = true := by decide +kernel

theorem test_ill_formed_host : [Instr.bar2Read 0 0 0 false [], .bar2Read 0 0 4097 false [], .bar2Read 0 (2 ^ 36) 1 false [],
    .bar2Write 0 0 [] false [], .bar2Write 0 0 (zeros 513) false [], .bar2Write 0 (2 ^ 36) [0] false [], .challenge (zeros 31),
    .getMeasurements (zeros 33), .ideKmKeyProg 0 0 0 0 (zeros 31)].all (fun i => !wellFormed i) = true := by decide +kernel

theorem test_well_formed_at_the_edges : [Instr.registerWrite 0 false (.bar0 0) 4 (2 ^ 32 - 1), .smbusBlockWrite ⟨0x58, 0⟩ (zeros 30) true, .smbusProcessCall ⟨0x58, 0⟩ 32 true,
    .linkDown 0 ⟨9, ⟨0, 0⟩⟩, .networkFrameReceive 0 ⟨emptyFrame, ⟨0, 0⟩⟩, .roceRequestReceive packet0, .ringFrameReceive 0 ringFrame0, .bar2Read 0 (2 ^ 36 - 1) 1 false [],
    .challenge (zeros 32), .tamperAlarm 6, .cvuDataWrite false 1 255].all wellFormed = true := by decide

/-! ## The spec's worked examples and check values -/

/-- 19_entropy_and_check_values.md, Table 19-3: the check values of both CRCs. -/
theorem test_crc_check_values : crc64 0 (ascii "123456789") = 0x62EC59E3F1A4F00A ∧ crc32c 0 (ascii "123456789") = 0xE3069283 := by decide +kernel
/-- The worked example after R380: round 0xA_1234, client 5, slice 3. -/
theorem test_crc_fold : crc64Init 0xA123400000500003 = 0x5EDCBFFFFFAFFFFC := by decide
/-- The worked example after R81: 100.0 and −0.01 in an E4M3 block. -/
theorem test_mx_block : mxBlock .e4m3 ([0x42C80000, 0xBC23D70A] ++ List.replicate 30 0) = (0x7D, [0x7C, 0x92] ++ List.replicate 30 0) := by decide +kernel
/-- The worked example after R83: three blocks, whose sum rounds to 9.0. -/
theorem test_dot_product : dotBlocks 18 [(1, prodSum [elem .e4m3 0x48, elem .e4m3 0x34] [elem .e4m3 0x3C, elem .e4m3 0xC0]), (-15, prodSum [elem .e4m3 1] [elem .e4m3 0x38]),
    (-40, prodSum [elem .e4m3 0xB8] [elem .e4m3 0x38])] = 0x41100000 := by decide +kernel
/-- The worked example after R92: sine 1.0 and cosine −0 at a quarter turn. -/
theorem test_rotary_quarter : rotary 1 (2 ^ 62) = (one32, 0x80000000) := by decide +kernel
/-- The worked example after R95: three partials merge to 0.625. -/
theorem test_attention_merge : attnOut 1 [some ⟨0x40000000, 0x3FC00000, [0x40400000]⟩, some ⟨0x40000000, 0x3F000000, [0xBF800000]⟩,
    some ⟨0x40000000, 0x40000000, [0x3F000000]⟩] = [0x3F200000] := by decide +kernel
/-- The worked example after R97: 8,835 modulo 97. -/
theorem test_barrett : barrett 8835 97 = 8 := by decide
/-- The worked example after R99: the running sums 1.0, 1.625 and 1.875, and S = 2.0. -/
theorem test_running_sums : runningSums 0 [one32, 0x3F200000, 0x3E800000] = [one32, 0x3FD00000, 0x3FF00000] ∧
    sumAll [one32, 0x3F200000, 0x3E800000, 0x3E000000] = 0x40000000 := by decide +kernel
/-- The worked example after R211: an automorphism of degree 4 modulo 17, its check values, and a pass that drops a sign. -/
theorem test_automorphism : sigma 4 5 17 [3, 1, 0, 4] = [3, 16, 0, 13] ∧ checkIn false 2 5 17 [3, 1, 0, 4] = 3 ∧
    checkOut false 2 5 17 [3, 16, 0, 13] = 3 ∧ checkOut false 2 5 17 [3, 1, 0, 13] = 7 := by decide +kernel
/-- The worked example after R361: a line of MAJOR 3 and MINOR 0x10, written once; and a line of a read-only region at epoch 5. -/
def page340 (ro : Bool) : State :=
  let m : PageMeta := { page := 0x5400001, count := 1, major := 3, slotB := false, readOnly := ro, epoch := 5, common := 1, minors := [(13, 0x10)] }
  { live with mpr := { live.mpr with pages := [m] } }
theorem test_line_nonce : lineNonce (writeLines 0x5400001340 64 (page340 false)) 0x5400001340 = [0x4D, 0, 0, 0x50, 1, 0x11, 3, 0, 0, 0, 0, 0] ∧
    (lineNonce (page340 true) 0x5400001340).drop 5 = [5, 0, 0, 0, 0, 0, 0x80] := by decide +kernel
/-- The worked examples of Table 0-4 and R71: the address of graver 347, and the twins of sheets 0 to 3. -/
theorem test_places : sramBase + 347 * graverBytes = 0x010082200000 ∧ twinMask 0x0000000F = 0x000F0000 := by decide

/-! ## One command each -/

/-- The state after a command. -/
def after (i : Instr) (s : State) : State := match exec i s with | .next t => t | _ => s

/-- The worked example of R401: at ÷5 and 1,560 W under a cap of 1,200 W, the request becomes ÷6. -/
theorem test_power_cap : (after (.powerCapDecision 1560) { live with clk := { live.clk with capW := 1200, capReq := 1 } }).clk.capReq = 2 := by
  decide +kernel

/-- A work ring of 16 descriptors with its fetch index at 0xFFFF_FFF8 (the worked example after R276). -/
def ring16 : WRing :=
  { num := 0, fn := 4, hbm := true, k := 4, cring := 0, base := 0x200000, state := 1, producer := 0xFFFFFFF8, fetch := 0xFFFFFFF8
    completed := 0xFFFFFFF8, flushed := 0, destroyer := none }
/-- The worked example after R58: the stack of an address on an OXL-9440. -/
theorem test_hbm_stack : hbmStack live 0x005400001334 = 4 := by decide +kernel

def ring16s : State := { live with buf := { live.buf with wrings := [ring16] } }
theorem test_doorbell_fills_ring : (after (.workRingDoorbell 4 false 0 8) ring16s).buf.wrings.map (·.producer) = [8] := by decide +kernel
theorem test_doorbell_past_ring : (after (.workRingDoorbell 4 false 0 9) ring16s).buf.wrings.map (·.producer) = [0xFFFFFFF8] := by decide +kernel

/-- The worked example of the chapter on mailboxes: function 2 quiesces. -/
theorem test_quiesce : quiesced (after (.funcQuiesce 0) (on 0x0A06 (pay [(1, 2), (1, 1), (6, 0)]) live)) 2 = true := by decide +kernel

/-- The worked example of the platen: the corrections of slice 0 leave x0 + x1 = 12. -/
theorem test_corrections : mapGet (accumulate (accumulate
    { handle := 1, id := 1, mode := 1, prg := 0, accSram := false, vec := 16, slice := 16, clients := 3, cohort := 2, limbElems := 0, primes := []
      state := 3, acc := [(0, 0x8000010C)], admitted := [(0, 0), (1, 0)], poisoned := [], waiter := none, aborting := false, base := 0 }
    0 [0x80000000] true) 0 [0x100] true).acc 0 = 12 := by decide +kernel

/-- A step takes the command at the front of the queue, and an idle stroke advances the press (R38). -/
theorem test_step_takes_front : step { live with pending := [.idleStroke, .rekeyRetry 0] } = exec .idleStroke { live with pending := [.rekeyRetry 0] } := rfl
theorem test_idle_stroke : (after .idleStroke live).prs.stroke = 1 := by decide +kernel
/-- A byte of the check-value unit enters its register (R381). -/
theorem test_cvu_byte : (after .cvuByteStep { live with cvu := { live.cvu with queue := [.start, .byte 1] } }).cvu.reg = 0xFFFFFFFFFFFFFFFF := by decide +kernel

/-- FIPS 197, appendix C.3: AES-256 of one block (R98, R374). -/
theorem test_aes_block : aes256 (beBytes 32 0x000102030405060708090a0b0c0d0e0f101112131415161718191a1b1c1d1e1f)
    (beBytes 16 0x00112233445566778899aabbccddeeff) = beBytes 16 0x8ea2b7ca516745bfeafc49904b496089 := by decide +kernel

/-! ## Lemmas for the witnesses -/


theorem placeHbm_some (n : Nat) (s : State) (h : (inHbm s 0 n && !heldRange s 0 n && !onRing s 0 n && !onRegion s 0 n) = true) :
    (placeHbm n s).1.isSome = true := by
  unfold placeHbm
  dsimp only
  split
  · rfl
  · rw [List.find?_cons_of_pos]
    · rfl
    · exact h

theorem placeStretch_some (b : Nat) (s : State) (n : Nat) (hn : b * kvBlockBytes (fullShape s) = n)
    (h : (inHbm s 0 n && !heldRange s 0 n && !onRing s 0 n && !onRegion s 0 n) = true) : (placeStretch b false s).isSome = true := by
  have g := placeHbm_some n s h
  subst hn
  unfold placeStretch
  dsimp only
  split
  · rename_i e; rw [e] at g; cases g
  · rfl

theorem slice_mid (a d r : Bytes) (off n : Nat) (ha : a.length = off) (hd : d.length = n) : slice (a ++ (d ++ r)) off n = d := by
  subst ha hd; simp [slice]

theorem cellRead_eq (m : List Host.Cell) (a n : Nat) : cellRead m a n = (List.range n).map (fun i => cellGet m (a + i)) := by
  induction n generalizing a with
  | zero => rfl
  | succ n ih =>
    rw [cellRead, ih, List.range_succ_eq_map, List.map_cons, List.map_map]
    congr 1
    exact List.map_congr_left fun i _ => by simp only [Function.comp]; congr 1; omega

/-- Memory written at `a` reads back. -/
theorem read_back (a n : Nat) (bs : Bytes) (h : bs.length = n) : cellRead (cellWrite [] a bs) a n = bs := by
  subst h
  rw [cellRead_eq]
  apply List.ext_getElem
  · simp
  · intro i h1 h2
    rw [List.getElem_map, List.getElem_range, cellGet_write [] a (a + i) bs rfl]
    simp [h2]

theorem zeros_zero (n : Nat) : allZero (zeros n) = true := by simp [allZero, zeros]

theorem roundRes_some (r : Round) (m : BitVec 32) (s : State) (n : Nat) (ha : r.accSram = false)
    (hn : roundUp 64 ((r.clients * sliceCount r + 7) / 8) + 4 * sliceCount r + r.vec * elemWidth r.mode = n)
    (h : (inHbm s 0 n && !heldRange s 0 n && !onRing s 0 n && !onRegion s 0 n) = true) : (roundResources r m s).isSome = true := by
  have g := placeHbm_some n s h
  subst hn
  simp only [roundResources, ha, Bool.false_eq_true, if_false, Option.bind_some]
  split
  · rfl
  · rename_i e; rw [e] at g; cases g

theorem ctxRes_some (h : Nat) (p : Bytes) (s t : State) (n : Nat)
    (ht : grant (.ctx h) (BitVec.ofNat 32 (field p 4 4)) (field p 0 4 == 1) (field p 8 4 * bankBytes) s = some t)
    (hn : slotBytes (field p 0xC 4) (paramsOf (p.drop 16)) = n)
    (c : (inHbm t 0 n && !heldRange t 0 n && !onRing t 0 n && !onRegion t 0 n) = true) : (ctxResources h p s).isSome = true := by
  have g := placeHbm_some n t c
  subst hn
  simp only [ctxResources, ht, Option.bind_some]
  split
  · rfl
  · rename_i e; rw [e] at g; cases g

theorem slice_left (a b : Bytes) (off n : Nat) (h : off + n ≤ a.length) : slice (a ++ b) off n = slice a off n := by
  rw [slice, slice, List.drop_append_of_le_length (by omega), List.take_append_of_le_length (by rw [List.length_drop]; omega)]

theorem slice_right (a b : Bytes) (k off n : Nat) (ha : a.length = k) (h : k ≤ off) : slice (a ++ b) off n = slice b (off - k) n := by
  subst ha
  rw [slice, slice, List.drop_append, List.drop_of_length_le h, List.nil_append]

theorem slice_zeros (m off n : Nat) : slice (zeros m) off n = zeros (min n (m - off)) := by
  simp [slice, zeros]

theorem zeroAt_zeros (m off n : Nat) : zeroAt (zeros m) off n = true := by rw [zeroAt, slice_zeros]; exact zeros_zero _
/-- An image that memory holds at 64 KiB reads back. -/
theorem image_read (s : State) (img : Bytes) (n : Nat) (hm : s.mem.cells = cellWrite [] 0x10000 img) (hn : img.length = n) :
    cellRead s.mem.cells 0x10000 n = img := by rw [hm]; exact read_back _ _ _ hn
theorem on_mem (op : Nat) (p : Bytes) (s : State) : (on op p s).mem = s.mem := rfl

theorem field_left (a b : Bytes) (off n : Nat) (h : off + n ≤ a.length) : field (a ++ b) off n = field a off n := by
  rw [field, slice_left _ _ _ _ h, field]
theorem zeroAt_left (a b : Bytes) (off n : Nat) (h : off + n ≤ a.length) : zeroAt (a ++ b) off n = zeroAt a off n := by
  rw [zeroAt, slice_left _ _ _ _ h, zeroAt]

theorem wipeBanks_held (b : List Nat) (s : State) : (wipeBanks b s).mem.held = s.mem.held := by
  rw [wipeBanks, modMem]
  dsimp only
  generalize s.mem = m
  induction b generalizing m with
  | nil => rfl
  | cons x l ih => exact ih _
theorem wipeBanks_heldRange (b : List Nat) (s : State) (a n : Nat) : heldRange (wipeBanks b s) a n = heldRange s a n := by
  rw [heldRange, wipeBanks_held]; rfl
/-- What holds whatever banks are wiped may be judged before the wipe. -/
theorem grant_any (w : Work) (m : BitVec 32) (twin : Bool) (n : Nat) (s : State) (P : State → Bool) (hP : ∀ b u, P (wipeBanks b u) = P u)
    (h : (sheetsFree s m && (pickBanks (bankCount n) m twin [] s.draw).any (fun b =>
      P (modPla (fun p => { p with grants := p.grants ++ [⟨w, m, twin, b⟩] }) { s with draw := s.draw + 1 }))) = true) :
    (grant w m twin n s).any P = true := by
  rw [Bool.and_eq_true] at h
  rw [grant, h.1]
  simpa only [Bool.not_true, Bool.false_eq_true, if_false, Option.any_map, Function.comp_def, hP] using h.2

/-! ## Inputs that meet the hypotheses of the obligations -/

/-- Inputs that meet the hypotheses of EmptyQueueTicks, clause by clause. -/
theorem witness_emptyQueueTicks :
    (∃ (s : State), s.pending = []) :=
  ⟨live, by decide +kernel⟩

/-- Inputs that meet the hypotheses of RollbackCountersNeverFall, clause by clause. -/
theorem witness_rollbackCountersNeverFall :
    (∃ (s t : State), step s = .next t) :=
  ⟨live, _, rfl⟩

/-- Inputs that meet the hypotheses of NothingTakenBack, clause by clause. -/
theorem witness_nothingTakenBack :
    (∃ (s t : State), step s = .next t) ∧
    (∃ (s t : State), step s = .next t ∧ s.kst.seedBlown = true) :=
  ⟨⟨live, _, rfl⟩,
   ⟨{ live with kst := { live.kst with seedBlown := true } }, _, ⟨rfl, by decide +kernel⟩⟩⟩

/-- Inputs that meet the hypotheses of StepKeepsMemoriesCanonical, clause by clause. -/
theorem witness_stepKeepsMemoriesCanonical :
    (∃ (s t : State), Memory.wf s = true ∧ step s = .next t) :=
  ⟨live, _, ⟨by decide +kernel, rfl⟩⟩

/-- Inputs that meet the hypotheses of CountersStayInWidth, clause by clause. -/
theorem witness_countersStayInWidth :
    (∃ (s t : State), step s = .next t ∧ s.prs.stroke < 2 ^ 48) ∧
    (∃ (s t : State), step s = .next t ∧ s.mbx.seq < 2 ^ 32) :=
  ⟨⟨{ live with prs := { live.prs with stroke := 2 ^ 48 - 1 } }, _, ⟨rfl, by decide +kernel⟩⟩,
   ⟨{ live with mbx := { live.mbx with seq := 2 ^ 32 - 1 } }, _, ⟨rfl, by decide +kernel⟩⟩⟩

/-- The tamper overlay stands over OWNED_OPEN. -/
def covered0 : State := { live with life := { live.life with overlay := true } }

/-- Inputs that meet the hypotheses of HostRegisterWrites, clause by clause. -/
theorem witness_hostRegisterWrites :
    (∃ (s : State) (secure : Bool), HostWrites s secure) ∧
    (∃ (s : State) (secure : Bool), HostWrites s secure ∧ s.cvu.queue ≠ []) ∧
    (∃ (s : State) (secure : Bool), HostWrites s secure ∧ s.cvu.queue = []) ∧
    (∃ (s : State) (secure : Bool), ∃ i, HostWrites s secure ∧ i < 5 ∧ ownedOpen s = true) ∧
    (∃ (s : State) (secure : Bool), ∃ i, HostWrites s secure ∧ i < 5 ∧ ownedOpen s = false) ∧
    (∃ (s : State) (secure : Bool), ∃ c, HostWrites s secure ∧ c < 40) ∧
    (∃ (s : State) (secure : Bool), ∃ p, HostWrites s secure ∧ p < 5) ∧
    (∃ (s : State) (secure : Bool), ∃ m, HostWrites s secure ∧ m < 4 ∧ m ≠ 3 ∧ s.rst.optLoad = false ∧ s.rst.inReset = false) ∧
    (∃ (s : State) (secure : Bool), ∃ k, HostWrites s secure ∧ k < 1024) ∧
    (∃ (s : State), hostReach s = true ∧ (s.hif.tdi = .locked ∨ s.hif.tdi = .run)) :=
  ⟨⟨live, false, by decide +kernel⟩,
   ⟨{ live with cvu := { live.cvu with queue := [.start] } }, false, by decide +kernel⟩,
   ⟨live, false, by decide +kernel⟩,
   ⟨live, false, 4, by decide +kernel⟩,
   ⟨covered0, false, 4, by decide +kernel⟩,
   ⟨live, false, 39, by decide +kernel⟩,
   ⟨live, false, 4, by decide +kernel⟩,
   ⟨live, false, 2, by decide +kernel⟩,
   ⟨live, false, 1023, by decide +kernel⟩,
   ⟨{ live with hif := { live.hif with tdi := .run } }, by decide +kernel⟩⟩

/-- Inputs that meet the hypotheses of HostRegisterAccesses, clause by clause. -/
theorem witness_hostRegisterAccesses :
    (∃ (s : State) (fn : FnId) (secure : Bool) (off width : Nat), rightAccess fn.val off width true = false ∧ HostWrites s secure) ∧
    (∃ (s : State) (fn : FnId) (secure : Bool) (off width : Nat), rightAccess fn.val off width false = false ∧ HostReads s secure) ∧
    (∃ (s : State) (secure : Bool), HostReads s secure) ∧
    (∃ (s : State) (secure : Bool), HostWrites s secure ∧ s.prs.snapPending = false ∧ s.prs.stroke < s.prs.snapAt ∧ (confidential s = true → ∀ u,
      s.prs.snapTime = some u → u + 1000000 ≤ s.now)) :=
  ⟨⟨live, 0, false, 0x2008, 2, by decide +kernel⟩,
   ⟨live, 4, false, 0xFFFFFC, 4, by decide +kernel⟩,
   ⟨live, true, by decide +kernel⟩,
   ⟨{ live with prs := { live.prs with snapAt := 1 } }, true, ⟨by decide +kernel, by decide +kernel, by decide +kernel, fun h => absurd h (by decide +kernel)⟩⟩⟩

/-- Inputs that meet the hypotheses of CommandCompletion, clause by clause. -/
theorem witness_commandCompletion :
    (∃ (j : Job) (payload : Bytes) (s : State), Memory.wf s = true ∧ j.attached = true ∧ j.mb < 4 ∧ j.flags % 2 = 0 ∧ payload.length ≤ 16320) ∧
    (∃ (j : Job) (payload : Bytes) (s : State), ∃ i, Memory.wf s = true ∧ j.attached = true ∧ j.mb < 4 ∧ j.flags % 2 = 0 ∧ payload.length ≤ 16320 ∧ i < 4
      ∧ i ≠ j.mb) :=
  ⟨⟨job 0x0102 [], zeros 16320, live, by decide +kernel⟩,
   ⟨job 0x0102 [], [1], live, 3, by decide +kernel⟩⟩

/-- Mailbox 0 holds the header of MODULE_STATUS. -/
def asked : State :=
  { live with mbx := { live.mbx with boxes := mod4 live.mbx.boxes 0 (fun b => { b with window := cellWrite [] 0 (pay [(2, 0x0102), (6, 0), (4, 8)]) }) } }
/-- MODULE_STATUS waits. -/
def waiting : State := { live with mbx := { live.mbx with jobs := [{ job 0x0102 (zeros 8) with phase := 0 }] } }
/-- Mailbox 0 holds an opcode that no command has, and such a command waits. -/
def misasked : State :=
  { live with mbx := { live.mbx with boxes := mod4 live.mbx.boxes 0 (fun b => { b with window := cellWrite [] 0 (pay [(2, 0x01FF), (6, 0), (4, 8)]) }) } }
def misread : State := { live with mbx := { live.mbx with jobs := [{ job 0x01FF [] with phase := 0 }] } }

/-- Inputs that meet the hypotheses of MailboxCommandsBegin, clause by clause. -/
theorem witness_mailboxCommandsBegin :
    (∃ (s : State) (mb : MbId) (secure : Bool), (mb ≠ 3 → HostWrites s secure) ∧ (mb = 3 → smbusAnswers s = true) ∧ s.rst.optLoad = false ∧ s.rst.inReset
      = false ∧ (get4 s.mbx.boxes mb.val).state ≠ 1 ∧ s.mbx.recovery = false ∧ s.mbx.fwReady = true ∧
      (let hdr := windowBytes s mb.val 0 32
      
      (let j : Job :=
        { mb := mb.val, order := s.mbx.nextOrder, head := hdr, opcode := field hdr 0 2, flags := field hdr 2 2, tag := field hdr 4 4, payload := windowBytes s mb.val 0x40 (min (field hdr 8 4) 16320), phase := 0, attached := true, subject := 0, applied := 0, bad := [], data := [], ended := none }
      (judgesNow s = false ∨ commandCheck s j = none)))) ∧
    (∃ (s : State) (mb : MbId) (secure : Bool), ∃ st, (mb ≠ 3 → HostWrites s secure) ∧ (mb = 3 → smbusAnswers s = true) ∧ s.rst.optLoad = false ∧
      s.rst.inReset = false ∧ (get4 s.mbx.boxes mb.val).state ≠ 1 ∧ s.mbx.recovery = false ∧ s.mbx.fwReady = true ∧
      (let hdr := windowBytes s mb.val 0 32
      
      (let j : Job :=
        { mb := mb.val, order := s.mbx.nextOrder, head := hdr, opcode := field hdr 0 2, flags := field hdr 2 2, tag := field hdr 4 4, payload := windowBytes s mb.val 0x40 (min (field hdr 8 4) 16320), phase := 0, attached := true, subject := 0, applied := 0, bad := [], data := [], ended := none }
      judgesNow s = true ∧ commandCheck s j = some st))) ∧
    (∃ (s : State) (mb : MbId) (j : Job), ∃ st, s.mbx.jobs.find? (fun x => x.mb == mb.val && x.phase == 0) = some j ∧ firmwareRuns s = true ∧ mayBegin s j
      = true ∧ commandCheck s j = some st) ∧
    (∃ (s : State) (mb : MbId) (j : Job), s.mbx.jobs.find? (fun x => x.mb == mb.val && x.phase == 0) = some j ∧ firmwareRuns s = true ∧ mayBegin s j =
      true ∧ commandCheck s j = none ∧ workBlocked s j.opcode = false) :=
  ⟨⟨asked, 0, false, by decide +kernel⟩,
   ⟨misasked, 0, false, .unknownOpcode, by decide +kernel⟩,
   ⟨misread, 0, { job 0x01FF [] with phase := 0 }, .unknownOpcode, by decide +kernel⟩,
   ⟨waiting, 0, { job 0x0102 (zeros 8) with phase := 0 }, by decide +kernel⟩⟩

/-- STRAP_ADDR is 0. -/
def addressed : State := { live with rst := { live.rst with strapAddr := 0 } }

/-- Inputs that meet the hypotheses of SmbusTransactions, clause by clause. -/
theorem witness_smbusTransactions :
    (∃ (s : State) (off : BitVec 16) (data : Bytes),
      (let answers := fun (s : State) => s.rst.strapAddr < 8 ∧ smbusAnswers s = true
      answers s ∧ data.length ≤ 30 ∧ 0x40 ≤ off.toNat ∧ off.toNat + data.length ≤ 0x4000 ∧ (get4 s.mbx.boxes 3).state ≠ 1)) ∧
    (∃ (s : State) (b0 : Byte),
      (let answers := fun (s : State) => s.rst.strapAddr < 8 ∧ smbusAnswers s = true
      answers s ∧ (get4 s.mbx.boxes 3).state ≠ 1 ∧ b0.getLsbD 0 = true)) ∧
    (∃ (s : State) (off : BitVec 16) (data : Bytes),
      (let answers := fun (s : State) => s.rst.strapAddr < 8 ∧ smbusAnswers s = true
      answers s ∧ 0x4000 < off.toNat + data.length)) ∧
    (∃ (s : State) (count : Nat),
      (let answers := fun (s : State) => s.rst.strapAddr < 8 ∧ smbusAnswers s = true
      answers s ∧ count ≤ 32)) ∧
    (∃ (s : State),
      (let answers := fun (s : State) => s.rst.strapAddr < 8 ∧ smbusAnswers s = true
      answers s)) ∧
    (∃ (s : State) (p : SmbPlace), p.addr.toNat ≠ 0x58 + s.rst.strapAddr) :=
  ⟨⟨addressed, 0x3FF0, zeros 16, by decide +kernel⟩,
   ⟨addressed, 1, by decide +kernel⟩,
   ⟨addressed, 0x3FF1, zeros 16, by decide +kernel⟩,
   ⟨addressed, 32, by decide +kernel⟩,
   ⟨addressed, by decide +kernel⟩,
   ⟨addressed, ⟨0x50, 0⟩, by decide +kernel⟩⟩

/-- Inputs that meet the hypotheses of CheckValueUnit, clause by clause. -/
theorem witness_checkValueUnit :
    (∃ (s : State) (secure : Bool), HostWrites s secure) ∧
    (∃ (s : State) (secure : Bool), HostWrites s secure) ∧
    (∃ (s : State) (q : List CvuStep), s.cvu.queue = .start :: q) ∧
    (∃ (s : State) (q : List CvuStep) (b : Byte), s.cvu.queue = .byte b :: q) ∧
    (∃ (s : State) (secure : Bool), HostReads s secure ∧ s.cvu.queue = []) ∧
    (∃ (s t : State) (secure : Bool), HostReads s secure ∧ s.cvu.queue ≠ [] ∧ exec .cvuByteStep s = .next t) :=
  ⟨⟨live, false, by decide +kernel⟩,
   ⟨live, false, by decide +kernel⟩,
   ⟨{ live with cvu := { live.cvu with queue := [.start] } }, [], by decide +kernel⟩,
   ⟨{ live with cvu := { live.cvu with queue := [.byte 1] } }, [], 1, by decide +kernel⟩,
   ⟨live, false, by decide +kernel⟩,
   ⟨{ live with cvu := { live.cvu with queue := [.byte 1] } }, _, false, ⟨by decide +kernel, by decide +kernel, rfl⟩⟩⟩

/-- Inputs that meet the hypotheses of StandbyRequested, clause by clause. -/
theorem witness_standbyRequested :
    (∃ (s : State) (secure : Bool), HostWrites s secure ∧ standbyBlocked s = false) ∧
    (∃ (s : State) (secure : Bool) (v : BitVec 32), HostWrites s secure ∧ (v ≠ 0x53544259 ∨ standbyBlocked s = true)) :=
  ⟨⟨live, false, by decide +kernel⟩,
   ⟨live, false, 0, by decide +kernel⟩⟩

/-- Inputs that meet the hypotheses of PowerAndTemperature, clause by clause. -/
theorem witness_powerAndTemperature :
    (∃ (s : State), clocksUp s = true) ∧
    (∃ (s : State), clocksUp s = true) :=
  ⟨⟨live, by decide +kernel⟩,
   ⟨live, by decide +kernel⟩⟩

/-- Inputs that meet the hypotheses of FastLimitAsksEveryDie, clause by clause. -/
theorem witness_fastLimitAsksEveryDie :
    (∃ (s : State) (watts : Nat), clocksUp s = true ∧ 2000 < watts) ∧
    (∃ (s : State) (watts : Nat), ∃ i, clocksUp s = true ∧ 2000 < watts ∧ i < 4 ∧ (get4 s.clk.dies i).therm ≤ 3) ∧
    (∃ (s : State) (watts : Nat), ∃ avgW lowRun, clocksUp s = true ∧ 2000 < watts ∧ 9 ≤ lowRun ∧ 8 * avgW ≤ 7 * s.clk.capW) :=
  ⟨⟨live, 2001, by decide +kernel⟩,
   ⟨live, 2001, 3, by decide +kernel⟩,
   ⟨live, 2001, 1443, 9, by decide +kernel⟩⟩

/-- RESET_N is low, held by the carrier. -/
def low (qualified : Bool) : State :=
  { live with rst := { live.rst with carrierLow := true, inReset := qualified, cores := if qualified then 1 else 0, level := if qualified then .core else .powerOn } }

/-- Inputs that meet the hypotheses of PowerAndResetLine, clause by clause. -/
theorem witness_powerAndResetLine :
    (∃ (s : State), s.rst.carrierLow = true ∧ s.rst.moduleLow = false ∧ s.rst.railsOn = true ∧ s.rst.inReset = false) ∧
    (∃ (s : State) (byCarrier : Bool), s.rst.carrierLow = byCarrier ∧ s.rst.moduleLow = false ∧ s.rst.railsOn = true ∧ s.rst.inReset = true) :=
  ⟨⟨low false, by decide +kernel⟩,
   ⟨low true, true, by decide +kernel⟩⟩

/-- Inputs that meet the hypotheses of ResetsQualify, clause by clause. -/
theorem witness_resetsQualify :
    (∃ (s : State), s.rst.standby = false ∧ s.rst.railsOn = true ∧ s.rst.carrierLow = true ∧ s.rst.inReset = false ∧ s.rst.optLoad = false ∧
      s.life.removal = none) ∧
    (∃ (s : State), s.rst.railsOn = true ∧ s.rst.carrierLow = true ∧ s.rst.inReset = true ∧ s.rst.cores ≠ 0 ∧ (s.rst.level = .core ∨ s.rst.level =
      .system)) :=
  ⟨⟨low false, by decide +kernel⟩,
   ⟨low true, by decide +kernel⟩⟩

/-- Inputs that meet the hypotheses of OptionLoadEnds, clause by clause. -/
theorem witness_optionLoadEnds :
    (∃ (s : State), s.rst.railsOn = true ∧ s.rst.optLoad = true ∧ s.rst.inReset = false) :=
  ⟨State.reset, by decide +kernel⟩

/-- Option load has ended and the firmware has not started. -/
def booting : State := { live with mbx := { live.mbx with fwReady := false } }

/-- Inputs that meet the hypotheses of FirmwareRuns, clause by clause. -/
theorem witness_firmwareRuns :
    (∃ (s : State), s.rst.railsOn = true ∧ s.rst.optLoad = false ∧ s.rst.inReset = false ∧ s.rst.bootStopped = false ∧ s.mbx.fwReady = false ∧ s.mbx.wdog
      = false ∧ s.mbx.recovery = false ∧ fwBootable s.ctrlFw s.ctrlFw.boot true = true ∧ s.mbx.fallbackEv = []) ∧
    (∃ (s : State), s.rst.railsOn = true ∧ s.rst.optLoad = false ∧ s.rst.inReset = false ∧ s.rst.bootStopped = false ∧ s.mbx.fwReady = false ∧ s.mbx.wdog
      = false ∧ s.mbx.recovery = false) ∧
    (∃ (s : State) (core : Fin 4), s.rst.railsOn = true ∧ s.mbx.fwReady = true ∧ get4 s.mbx.halted core.val = false) ∧
    (∃ (s : State) (mb : MbId) (j : Job), Begun s mb 0x0C04 j ∧ j.payload.length = 8 ∧ zeroAt j.payload 1 3 = true ∧ field j.payload 6 2 = 0 ∧ field
      j.payload 4 2 ≤ 64 ∧ field j.payload 0 1 = 1 ∧ field j.payload 4 2 ≤ s.ctrlFw.runSvn) ∧
    (∃ (s : State) (mb : MbId) (j : Job), Begun s mb 0x0C04 j ∧ j.payload.length = 8 ∧ zeroAt j.payload 1 3 = true ∧ field j.payload 6 2 = 0 ∧ field
      j.payload 4 2 ≤ 64 ∧ field j.payload 0 1 = 2 ∧ field j.payload 4 2 ≤ s.secFw.runSvn) :=
  ⟨⟨booting, by decide +kernel⟩,
   ⟨booting, by decide +kernel⟩,
   ⟨live, 3, by decide +kernel⟩,
   ⟨on 0x0C04 (pay [(4, 1), (4, 0)]) live, 0, job 0x0C04 (pay [(4, 1), (4, 0)]), by decide +kernel⟩,
   ⟨on 0x0C04 (pay [(4, 2), (4, 0)]) live, 0, job 0x0C04 (pay [(4, 2), (4, 0)]), by decide +kernel⟩⟩

/-- An image of the control processor firmware, version 1 and security version 1, under the Cehorn firmware key. -/
def fwHead : Bytes := pay [(4, 0x5746584F), (2, 1), (1, 1), (1, 0), (4, 1), (2, 1), (2, 0), (4, 65536), (12, 0)]
def fwImage : Bytes := fwHead ++ (bvBytes 64 Config.cehornFirmwareDigest ++ zeros 65440)
theorem fwImage_len : fwImage.length = 65536 := by
  rw [fwImage, List.length_append, List.length_append, bvBytes, leBytes_length, zeros_length]; rfl
theorem fwImage_signer : slice fwImage 0x20 64 = bvBytes 64 Config.cehornFirmwareDigest :=
  slice_mid fwHead (bvBytes 64 Config.cehornFirmwareDigest) (zeros 65440) 32 64 (by decide) (bvBytes_length _ _)
def fwRequest : Bytes := pay [(8, 2 ^ 63 + 0x10000), (8, 65536)]
def fwStored : State := on 0x0C01 fwRequest { live with mem := { live.mem with cells := cellWrite [] 0x10000 fwImage } }
theorem fwImage_good : fwHeaderBad fwImage 65536 = false := by
  have z : zeroAt fwImage 0x60 160 = true := by
    rw [zeroAt, fwImage, slice_right _ _ 32 _ _ (by rfl) (by decide), slice_right _ _ 64 _ _ (bvBytes_length _ _) (by decide)]
    exact zeroAt_zeros _ _ _
  simp only [fwHeaderBad, z, show field fwImage 0x10 4 = 65536 from rfl, show field fwImage 0 4 = 0x5746584F from rfl,
    show field fwImage 4 2 = 1 from rfl, show field fwImage 6 1 = 1 from rfl, show zeroAt fwImage 7 1 = true from rfl,
    show zeroAt fwImage 0x0E 2 = true from rfl, show zeroAt fwImage 0x14 12 = true from rfl]
  decide

/-- Inputs that meet the hypotheses of FirmwareSlots, clause by clause. -/
theorem witness_firmwareSlots :
    (∃ (s : State) (mb : MbId) (j : Job), Begun s mb 0x0C01 j ∧ j.payload.length = 16 ∧ field j.payload 0 8 < 2 ^ 63 ∧ fwLenBad (field j.payload 8 8) =
      false ∧ fnReady s 0 = true) ∧
    (∃ (s : State) (mb : MbId) (j : Job), Begun s mb 0x0C01 j ∧ j.payload.length = 16 ∧ badAddr (field j.payload 0 8) = false ∧ fwLenBad (field j.payload
      8 8) = true) ∧
    (∃ (s : State) (mb : MbId) (j : Job) (a n : Nat), Begun s mb 0x0C01 j ∧ j.payload.length = 16 ∧ field j.payload 0 8 = 2 ^ 63 + a ∧ a < 2 ^ 48 ∧ field
      j.payload 8 8 = n ∧ fwLenBad n = false ∧ inHbm s a n = true ∧ devOk s a n = true ∧ poisonedAt s a n = false ∧
      (let img := cellRead s.mem.cells a n
      fwHeaderBad img n = false ∧ slice img 0x20 64 = bvBytes 64 Config.cehornFirmwareDigest ∧ (compOf s (field img 6 1)).counter ≤ field img 0x0C 2 ∧
      s.mbx.recovery = false)) ∧
    (∃ (s : State) (mb : MbId) (j : Job), Begun s mb 0x0C02 j ∧ j.payload.length = 8 ∧ zeroAt j.payload 1 7 = true ∧ field j.payload 0 1 = 1 ∧ (fwSlot
      s.ctrlFw (1 - s.ctrlFw.running)).state = 1) ∧
    (∃ (s : State) (mb : MbId) (j : Job), Begun s mb 0x0C02 j ∧ j.payload.length = 8 ∧ zeroAt j.payload 1 7 = true ∧ field j.payload 0 1 = 2 ∧ (fwSlot
      s.secFw (1 - s.secFw.running)).state = 1) ∧
    (∃ (s : State) (mb : MbId) (j : Job), Begun s mb 0x0C03 j ∧ j.payload = zeros 8) :=
  ⟨⟨on 0x0C01 (pay [(8, 0x1000), (8, 65536)]) (live), 0, job 0x0C01 (pay [(8, 0x1000), (8, 65536)]), by decide +kernel⟩,
   ⟨on 0x0C01 (pay [(8, 0x1000), (8, 64)]) (live), 0, job 0x0C01 (pay [(8, 0x1000), (8, 64)]), by decide +kernel⟩,
   by
    refine ⟨fwStored, 0, job 0x0C01 fwRequest, 0x10000, 65536, ?_⟩
    iterate 9 refine ⟨by decide +kernel, ?_⟩
    intro img
    have e : img = fwImage := image_read fwStored fwImage 65536 (by rw [fwStored, on_mem]) fwImage_len
    clear_value img
    subst e
    exact ⟨fwImage_good, fwImage_signer, by decide +kernel, by decide +kernel⟩,
   ⟨on 0x0C02 (1 :: zeros 7) ({ live with ctrlFw := setFwSlot 1 ⟨1, 1, 1, []⟩ live.ctrlFw }), 0, job 0x0C02 (1 :: zeros 7), by decide +kernel⟩,
   ⟨on 0x0C02 (2 :: zeros 7) ({ live with secFw := setFwSlot 1 ⟨1, 1, 1, []⟩ live.secFw }), 0, job 0x0C02 (2 :: zeros 7), by decide +kernel⟩,
   ⟨on 0x0C03 (zeros 8) live, 0, job 0x0C03 (zeros 8), by decide +kernel⟩⟩

/-- Inputs that meet the hypotheses of PowerLost, clause by clause. -/
theorem witness_powerLost :
    (∃ (s : State), s.rst.railsOn = true) ∧
    (∃ (s : State) (tj : Int), s.rst.railsOn = true ∧ 115 ≤ tj) ∧
    (∃ (s : State), s.rst.railsOn = false) ∧
    (∃ (s : State), s.rst.railsOn = false ∧ s.rst.standby = false) :=
  ⟨⟨live, by decide +kernel⟩,
   ⟨live, 115, by decide +kernel⟩,
   ⟨{ live with rst := { live.rst with railsOn := false } }, by decide +kernel⟩,
   ⟨{ live with rst := { live.rst with railsOn := false } }, by decide +kernel⟩⟩

/-- Inputs that meet the hypotheses of TamperResponse, clause by clause. -/
theorem witness_tamperResponse :
    (∃ (s : State), s.rst.railsOn = true ∧ s.life.stored ≠ .retired ∧ s.life.removal = none ∧ s.mbx.fwReady = true) ∧
    (∃ (s : State), s.rst.railsOn = true ∧ s.life.stored = .retired) :=
  ⟨⟨live, by decide +kernel⟩,
   ⟨{ live with life := { live.life with stored := .retired } }, by decide +kernel⟩⟩

/-- An event ring in host memory, of 16 entries. -/
def evRing : EventRing := { hbm := false, k := 4, vector := 5, base := 0x1000, tail := 0x2000, mask := 2, producer := 15, consumer := 0 }
def ringed (r : EventRing) : State := { live with mbx := { live.mbx with ring := some r } }

/-- Inputs that meet the hypotheses of EventRingCommands, clause by clause. -/
theorem witness_eventRingCommands :
    (∃ (s : State), s.mbx.ring = none) ∧
    (∃ (code sev : Nat) (s : State), ∃ r, s.mbx.ring = some r ∧ sev ≠ 3 ∧ r.mask.getLsbD (code / 256) = false) ∧
    (∃ (code sev : Nat) (s : State), ∃ r, s.mbx.ring = some r ∧
      (let used := (r.producer + 2 ^ 32 - r.consumer) % 2 ^ 32
      (sev = 3 ∨ r.mask.getLsbD (code / 256) = true) ∧ used = 2 ^ r.k)) ∧
    (∃ (code sev : Nat) (s : State), ∃ r, s.mbx.ring = some r ∧
      (let used := (r.producer + 2 ^ 32 - r.consumer) % 2 ^ 32
      (sev = 3 ∨ r.mask.getLsbD (code / 256) = true) ∧ used ≠ 2 ^ r.k ∧ r.hbm = false ∧ decodeAddr r.tail = .host r.tail ∧ fnReady s 0 = true ∧ r.vector ≠
      0xFFFF)) ∧
    (∃ (s : State) (mb : MbId) (j : Job), runJob s mb 0x0110 = some j ∧ s.mbx.ring = none ∧ s.mbx.fallbackEv = [] ∧ j.payload.length = 32 ∧ field
      j.payload 0 1 ≤ 1 ∧ zeroAt j.payload 4 4 = true ∧ 4 ≤ field j.payload 1 1 ∧ field j.payload 1 1 ≤ 16 ∧ (field j.payload 2 2 ≤ 63 ∨ field
      j.payload 2 2 = 0xFFFF) ∧ ringBaseBad s (field j.payload 0 1) (field j.payload 8 8) (32 * 2 ^ field j.payload 1 1) = false ∧ tailBad s (field
      j.payload 16 8) = false ∧ field j.payload 24 8 < 2 ^ 13 ∧ field j.payload 24 8 % 2 = 0) ∧
    (∃ (s : State) (mb : MbId) (j : Job), runJob s mb 0x0111 = some j ∧ j.payload = zeros 8) ∧
    (∃ (s : State) (secure : Bool) (v : BitVec 64) (r : EventRing), HostWrites s secure ∧ s.rst.optLoad = false ∧ s.rst.inReset = false ∧ s.mbx.ring =
      some r ∧ (v.toNat % 2 ^ 32 + 2 ^ 32 - r.consumer) % 2 ^ 32 ≤ (r.producer + 2 ^ 32 - r.consumer) % 2 ^ 32) ∧
    (∃ (s : State) (r : EventRing), s.mbx.ring = some r ∧ s.mbx.irqPending = true ∧ fnReady s 0 = true) ∧
    (∃ (s : State), s.mbx.irqPending = false) :=
  ⟨⟨live, by decide +kernel⟩,
   ⟨0x0401, 2, ringed evRing, evRing, by decide +kernel⟩,
   ⟨0x0401, 3, ringed { evRing with consumer := 2 ^ 32 - 1 }, { evRing with consumer := 2 ^ 32 - 1 }, by decide +kernel⟩,
   ⟨0x0401, 3, ringed evRing, evRing, by decide +kernel⟩,
   ⟨on 0x0110 (pay [(1, 0), (1, 16), (2, 63), (4, 0), (8, 0x200000), (8, 0x1000), (8, 0x1FFE)]) (live), 0, job 0x0110 (pay [(1, 0), (1, 16), (2, 63), (4, 0), (8, 0x200000), (8, 0x1000), (8, 0x1FFE)]), by decide +kernel⟩,
   ⟨on 0x0111 (zeros 8) (live), 0, job 0x0111 (zeros 8), by decide +kernel⟩,
   ⟨ringed evRing, false, 15, evRing, by decide +kernel⟩,
   ⟨{ ringed evRing with mbx := { (ringed evRing).mbx with irqPending := true } }, evRing, by decide +kernel⟩,
   ⟨live, by decide +kernel⟩⟩

/-- Inputs that meet the hypotheses of StatusCommands, clause by clause. -/
theorem witness_statusCommands :
    (∃ (s : State) (mb : MbId) (j : Job) (k : KeySlot), Begun s mb 0x0101 j ∧ j.payload = zeros 8 ∧ slotAt s 0 = some k) ∧
    (∃ (s : State) (mb : MbId) (j : Job), Begun s mb 0x0102 j ∧ j.payload = zeros 8) ∧
    (∃ (s : State) (mb : MbId) (j : Job), Begun s mb 0x0201 j ∧ j.payload = zeros 8) ∧
    (∃ (s : State) (mb : MbId) (j : Job), Begun s mb 0x0404 j ∧ j.payload = []) :=
  ⟨⟨on 0x0101 (zeros 8) (live), 0, job 0x0101 (zeros 8), key 0 0, by decide +kernel⟩,
   ⟨on 0x0102 (zeros 8) (live), 0, job 0x0102 (zeros 8), by decide +kernel⟩,
   ⟨on 0x0201 (zeros 8) (live), 0, job 0x0201 (zeros 8), by decide +kernel⟩,
   ⟨on 0x0404 ([]) (live), 0, job 0x0404 ([]), by decide +kernel⟩⟩

/-- Inputs that meet the hypotheses of LifecycleChanges, clause by clause. -/
theorem witness_lifecycleChanges :
    (∃ (s : State) (mb : MbId) (j : Job) (m : Lifecycle), Begun s mb 0x0202 j ∧ s.life.stored = .provisioned ∧ s.life.overlay = false ∧ j.payload.length =
      7227 ∧ modeState (field j.payload 0 1) = some m ∧ zeroAt j.payload 1 7 = true) ∧
    (∃ (s : State) (mb : MbId) (j : Job) (m : Lifecycle), Begun s mb 0x0203 j ∧ (ownedOpen s = true ∨ ownedConfidential s = true) ∧ j.payload.length =
      4635 ∧ modeState (field j.payload 0 1) = some m ∧ m ≠ s.life.stored ∧ zeroAt j.payload 1 3 = true ∧ field j.payload 4 4 = s.life.ownerSeq) ∧
    (∃ (s : State) (mb : MbId) (j : Job), Begun s mb 0x0204 j ∧ (ownedOpen s = true ∨ ownedConfidential s = true) ∧ j.payload.length = 4635 ∧ zeroAt
      j.payload 0 4 = true ∧ field j.payload 4 4 = s.life.ownerSeq) ∧
    (∃ (s : State) (mb : MbId) (j : Job), Begun s mb 0x0205 j ∧ s.life.stored ≠ .manufacture ∧ s.life.stored ≠ .retired ∧ j.payload.length = 4635 ∧ zeroAt
      j.payload 0 4 = true ∧ field j.payload 4 4 = s.life.ownerSeq) ∧
    (∃ (s : State) (mb : MbId) (j : Job) (inAlarm : List Nat), Begun s mb 0x0206 j ∧ s.life.overlay = true ∧ j.payload.length = 4635 ∧ zeroAt j.payload 0
      4 = true ∧ field j.payload 4 4 = s.life.ownerSeq ∧ s.life.resetSince = true ∧ inAlarm = []) ∧
    (∃ (s : State) (mb : MbId) (j : Job) (inAlarm : List Nat), Begun s mb 0x0206 j ∧ s.life.overlay = true ∧ j.payload.length = 4635 ∧ zeroAt j.payload 0
      4 = true ∧ field j.payload 4 4 = s.life.ownerSeq ∧ (s.life.resetSince = false ∨ inAlarm ≠ [])) :=
  ⟨⟨on 0x0202 ([3] ++ zeros 7226) ({ live with life := State.reset.life }), 0, job 0x0202 ([3] ++ zeros 7226), .ownedOpen, ⟨⟨rfl, rfl⟩, by decide +kernel, by decide +kernel, padded _ _ _ (by decide), by decide +kernel, by decide +kernel⟩⟩,
   ⟨on 0x0203 ([4] ++ zeros 4634) (live), 0, job 0x0203 ([4] ++ zeros 4634), .ownedConfidential, ⟨⟨rfl, rfl⟩, by decide +kernel, padded _ _ _ (by decide), by decide +kernel, by decide +kernel, by decide +kernel, by decide +kernel⟩⟩,
   ⟨on 0x0204 ([] ++ zeros 4635) (live), 0, job 0x0204 ([] ++ zeros 4635), ⟨⟨rfl, rfl⟩, by decide +kernel, padded _ _ _ (by decide), by decide +kernel, by decide +kernel⟩⟩,
   ⟨on 0x0205 ([] ++ zeros 4635) (live), 0, job 0x0205 ([] ++ zeros 4635), ⟨⟨rfl, rfl⟩, by decide +kernel, by decide +kernel, padded _ _ _ (by decide), by decide +kernel, by decide +kernel⟩⟩,
   ⟨on 0x0206 ([] ++ zeros 4635) ({ live with life := { live.life with overlay := true } }), 0, job 0x0206 ([] ++ zeros 4635), [], ⟨⟨rfl, rfl⟩, by decide +kernel, padded _ _ _ (by decide), by decide +kernel, by decide +kernel, by decide +kernel, by decide +kernel⟩⟩,
   ⟨on 0x0206 ([] ++ zeros 4635) ({ live with life := { live.life with overlay := true, resetSince := false } }), 0, job 0x0206 ([] ++ zeros 4635), [], ⟨⟨rfl, rfl⟩, by decide +kernel, padded _ _ _ (by decide), by decide +kernel, by decide +kernel, by decide +kernel⟩⟩⟩

/-- A removal that ends in OWNED_CONFIDENTIAL. -/
def leaving : Removal := { mb := 0, order := 0, target := .ownedConfidential, clearOvl := false, fromCode := 3, owner := [] }

/-- Inputs that meet the hypotheses of MemoryKeys, clause by clause. -/
theorem witness_memoryKeys :
    (∃ (s : State), securityUp s = true ∧ s.mpr.trained = false ∧ s.mpr.filled = false ∧ s.mpr.wiping = false ∧ s.life.overlay = false ∧ s.rst.inReset =
      false ∧ s.rst.optLoad = false ∧ drbgServes s = true) ∧
    (∃ (s : State), s.mpr.wiping = true ∧ s.life.removal = none) ∧
    (∃ (s : State) (r : Removal), s.mpr.wiping = true ∧ s.life.removal = some r) ∧
    (∃ (s : State) (mb : MbId) (j : Job), runJob s mb 0x0309 = some j ∧ j.payload = zeros 8 ∧ s.mpr.sweep = false ∧ s.mpr.wiping = false ∧ s.mpr.filled =
      true ∧ drbgServes s = true) ∧
    (∃ (s : State), s.mpr.sweep = true) :=
  ⟨⟨{ live with mpr := State.reset.mpr }, by decide +kernel⟩,
   ⟨{ live with mpr := { live.mpr with wiping := true, filled := false } }, by decide +kernel⟩,
   ⟨{ live with mpr := { live.mpr with wiping := true, filled := false }, life := { live.life with removal := some leaving } }, leaving, by decide +kernel⟩,
   ⟨on 0x0309 (zeros 8) (live), 0, job 0x0309 (zeros 8), by decide +kernel⟩,
   ⟨{ live with mpr := { live.mpr with sweep := true } }, by decide +kernel⟩⟩

/-- HBM has its key in slot 2. -/
def lined : State := { live with kst := { live.kst with slots := key 2 0 :: live.kst.slots } }

/-- Inputs that meet the hypotheses of HbmLinesAsStored, clause by clause. -/
theorem witness_hbmLinesAsStored :
    (∃ (s : State) (a : Nat) (k : KeySlot), slotAt s (if (pageOf s (a / 4096)).slotB then 3 else 2) = some k) ∧
    (∃ (s : State) (a : Nat) (k : KeySlot), slotAt s (if (pageOf s (a / 4096)).slotB then 3 else 2) = some k ∧
      (let m := pageOf s (a / 4096)
      m.major < 2 ^ 47 ∧ lineMinor m (a / 64 % 64) < 256)) ∧
    (∃ (s : State) (a : Nat) (k : KeySlot), ∃ mac, slotAt s (if (pageOf s (a / 4096)).slotB then 3 else 2) = some k ∧ mac ≠ lineMac s a (storedLine s a)) :=
  ⟨⟨lined, 0x1234, key 2 0, by decide +kernel⟩,
   ⟨lined, 0x1234, key 2 0, by decide +kernel⟩,
   ⟨lined, 0x1234, key 2 0, 0 :: lineMac lined 0x1234 (storedLine lined 0x1234), ⟨by decide +kernel, fun h => absurd (congrArg List.length h) (Nat.succ_ne_self _)⟩⟩⟩

/-- A tenant key and a receive key in slots 64 and 65. -/
def keyed : State :=
  { live with kst := { live.kst with slots := live.kst.slots ++ [key 64 0, { key 65 0x40 with type := 1, pub := [1] }] } }
/-- A wrap of a key to slot 65, whose tag verifies. -/
def wrapBody : Bytes := pay [(4, 0x574B584F), (2, 1), (2, 16), (2, 65), (6, 0)] ++ (sha512 [] ++ zeros 1664)
def wrapKey : Bytes :=
  shake (bvBytes 32 (Config.mlkemDecaps [65] (slice wrapBody 144 1568)) ++ sha512 (slice wrapBody 144 1568) ++ wrapBody.take 144) 32
def wrapTag : Bytes := gcmTag wrapKey (zeros 12) (wrapBody.take 144) (slice wrapBody 1712 32)
def wrapped : Bytes := wrapBody ++ wrapTag
def receiver : KeySlot := { key 65 0x40 with type := 1, pub := [1] }
theorem wrapBody_len : wrapBody.length = 1744 := by
  rw [wrapBody, List.length_append, List.length_append, sha512_length, zeros_length]; rfl
theorem wrapped_len : wrapped.length = 1760 := by
  rw [wrapped, List.length_append, wrapBody_len, show wrapTag.length = 16 from gcmTag_length _ _ _ _]
theorem wrapped_slice (o n : Nat) (h : o + n ≤ 1744) : slice wrapped o n = slice wrapBody o n := slice_left _ _ _ _ (by rw [wrapBody_len]; exact h)
theorem wrapped_tag : slice wrapped 1744 16 = wrapTag := by
  have h := slice_mid wrapBody wrapTag [] 1744 16 wrapBody_len (gcmTag_length _ _ _ _)
  rwa [List.append_nil] at h
theorem wrapped_opens : unwrap receiver wrapped = some (gcmXor wrapKey (zeros 12) (slice wrapBody 1712 32)) := by
  have t : wrapped.take 144 = wrapBody.take 144 := by rw [wrapped, List.take_append_of_le_length (by rw [wrapBody_len]; decide)]
  simp only [unwrap, gcmOpen, t, wrapped_slice 144 1568 (by decide), wrapped_slice 1712 32 (by decide), wrapped_tag]
  exact if_pos rfl
theorem wrapped_good : wrapBad wrapped = false := rfl

/-- Inputs that meet the hypotheses of KeyCommands, clause by clause. -/
theorem witness_keyCommands :
    (∃ (s : State) (mb : MbId) (j : Job) (n : Nat), Begun s mb 0x0301 j ∧ j.payload = 1 :: zeros 7 ∧ freeTenant s = some n ∧ (s.kst.slots.filter (fun k =>
      bit k.mask 6)).length < 8 ∧ drbgServes s = true) ∧
    (∃ (s : State) (mb : MbId) (j : Job) (n : Nat) (k : KeySlot) (key : Bytes), Begun s mb 0x0302 j ∧ j.payload.length = 1760 ∧ wrapBad j.payload = false
      ∧ slotAt s (field j.payload 8 2) = some k ∧ bit k.mask 6 = true ∧ attestReady s = true ∧ slice j.payload 0x10 64 = attestDigest s ∧ unwrap k
      j.payload = some key ∧ freeTenant s = some n) ∧
    (∃ (s : State) (mb : MbId) (j : Job), Begun s mb 0x0303 j ∧ j.payload.length = 8 ∧ zeroAt j.payload 2 6 = true ∧ 64 ≤ field j.payload 0 2 ∧ field
      j.payload 0 2 ≤ 255 ∧ (slotAt s (field j.payload 0 2)).isSome = true ∧ slotInUse s (field j.payload 0 2) = false) ∧
    (∃ (s : State) (mb : MbId) (j : Job), Begun s mb 0x0304 j ∧ j.payload.length = 8 ∧ zeroAt j.payload 2 6 = true ∧ 64 ≤ field j.payload 0 2 ∧ field
      j.payload 0 2 ≤ 255) ∧
    (∃ (s : State) (mb : MbId) (j : Job), Begun s mb 0x0308 j ∧ j.payload.length = 7227 ∧ field j.payload 0 1 ≤ 3 ∧ field j.payload 1 1 ≤ 1 ∧ field
      j.payload 2 2 = 0 ∧ (field j.payload 1 1 = 0 → zeroAt j.payload 8 2592 = true) ∧ s.life.ownerKey ≠ [] ∧ field j.payload 4 4 = s.life.enrolCount
      ∧ s.pla.store.all (fun p => p.signer != sha512 (get4 s.life.plateKeys (field j.payload 0 1))) = true) :=
  ⟨⟨on 0x0301 (1 :: zeros 7) (keyed), 0, job 0x0301 (1 :: zeros 7), 66, by decide +kernel⟩,
   ⟨on 0x0302 wrapped keyed, 0, job 0x0302 wrapped, 66, receiver, gcmXor wrapKey (zeros 12) (slice wrapBody 1712 32), ⟨rfl, rfl⟩, wrapped_len, wrapped_good,
    by decide +kernel, by decide +kernel, by decide +kernel,
    (wrapped_slice 16 64 (by decide)).trans (slice_mid (pay [(4, 0x574B584F), (2, 1), (2, 16), (2, 65), (6, 0)]) (sha512 []) (zeros 1664) 16 64 (by rfl) (sha512_length _)),
    wrapped_opens, by decide +kernel⟩,
   ⟨on 0x0303 (pay [(8, 64)]) (keyed), 0, job 0x0303 (pay [(8, 64)]), by decide +kernel⟩,
   ⟨on 0x0304 (pay [(8, 255)]) (keyed), 0, job 0x0304 (pay [(8, 255)]), by decide +kernel⟩,
   ⟨on 0x0308 ([3, 1] ++ zeros 7225) (keyed), 0, job 0x0308 ([3, 1] ++ zeros 7225), by refine ⟨⟨rfl, rfl⟩, padded _ _ _ (by decide), ?_, ?_, ?_, ?_, ?_, ?_, ?_⟩ <;> decide +kernel⟩⟩

/-- Inputs that meet the hypotheses of AttestationCommands, clause by clause. -/
theorem witness_attestationCommands :
    (∃ (s : State) (mb : MbId) (j : Job) (k id : KeySlot), Begun s mb 0x0305 j ∧ j.payload.length = 40 ∧ zeroAt j.payload 2 6 = true ∧ 64 ≤ field
      j.payload 0 2 ∧ field j.payload 0 2 ≤ 255 ∧ slotAt s (field j.payload 0 2) = some k ∧ k.type ≠ 3 ∧ slotAt s 0 = some id ∧ drbgGrants 1 3 s =
      true) ∧
    (∃ (s : State) (mb : MbId) (j : Job) (k : KeySlot), Begun s mb 0x0306 j ∧ j.payload.length = 32 ∧ slotAt s 1 = some k ∧ drbgGrants 1 3 s = true) ∧
    (∃ (s : State) (mb : MbId) (j : Job), Begun s mb 0x0307 j ∧ j.payload.length = 8 ∧ 1 ≤ field j.payload 4 4 ∧ field j.payload 4 4 ≤ 16312 ∧ attestReady
      s = true ∧ field j.payload 0 4 < s.kst.chain.length) :=
  ⟨⟨on 0x0305 (pay [(8, 65), (32, 9)]) (keyed), 0, job 0x0305 (pay [(8, 65), (32, 9)]), { key 65 0x40 with type := 1, pub := [1] }, key 0 0, by decide +kernel⟩,
   ⟨on 0x0306 (zeros 32) (live), 0, job 0x0306 (zeros 32), key 1 0, by decide +kernel⟩,
   ⟨on 0x0307 (pay [(4, 2), (4, 16312)]) (live), 0, job 0x0307 (pay [(4, 2), (4, 16312)]), by decide +kernel⟩⟩

/-- The generator holds no seed, and the conditioner has two outputs. -/
def unseeded : State := { live with kst := { live.kst with slots := [key 0 0] }, ent := { live.ent with outputs := [1, 2] } }
/-- A command waits, and the generator owes a reseed that no output of the conditioner serves. -/
def unserved (op : Nat) (p : Bytes) : State :=
  { live with ent := { live.ent with reseeding := true, requests := 65536 }, mbx := { live.mbx with jobs := [{ job op p with phase := 2 }] } }

/-- Inputs that meet the hypotheses of EntropyAndRandomBytes, clause by clause. -/
theorem witness_entropyAndRandomBytes :
    (∃ (s : State) (src : Fin 8) (x : NoiseSource), securityUp s = true ∧ s.ent.sources[src.val]? = some x) ∧
    (∃ (s : State), securityUp s = true ∧ drbgLive s = false ∧ 2 ≤ s.ent.outputs.length) ∧
    (∃ (s : State), securityUp s = true ∧ drbgLive s = true ∧ s.ent.reseeding = true ∧ 2 ≤ s.ent.outputs.length) ∧
    (∃ (s : State) (mb : MbId) (j : Job), runJob s mb 0x030A = some j ∧ j.payload.length = 8 ∧ 1 ≤ field j.payload 0 2 ∧ field j.payload 0 2 ≤ 16320 ∧
      zeroAt j.payload 2 6 = true ∧ drbgGrants 1 5 s = true) ∧
    (∃ (s : State) (mb : MbId) (j : Job), runJob s mb 0x030A = some j ∧ j.phase = 2 ∧ drbgGrants 1 5 s = false) ∧
    (∃ (s : State) (mb : MbId) (j : Job), firmwareRuns s = true ∧ s.mbx.jobs.find? (fun x => x.mb == mb.val && x.phase == 2 && (x.opcode == 0x0501 ||
      x.opcode == 0x0309)) = some j ∧ drbgGrants 1 (if j.opcode = 0x0501 then 3 else 2) s = false) :=
  ⟨⟨live, 7, {}, by decide +kernel⟩,
   ⟨unseeded, by decide +kernel⟩,
   ⟨{ live with ent := { live.ent with outputs := [1, 2], reseeding := true } }, by decide +kernel⟩,
   ⟨on 0x030A (pay [(8, 16320)]) (live), 0, job 0x030A (pay [(8, 16320)]), by decide +kernel⟩,
   ⟨unserved 0x030A (pay [(8, 1)]), 0, { job 0x030A (pay [(8, 1)]) with phase := 2 }, by decide +kernel⟩,
   ⟨unserved 0x0309 (zeros 8), 0, { job 0x0309 (zeros 8) with phase := 2 }, by decide +kernel⟩⟩

/-- Inputs that meet the hypotheses of Snapshots, clause by clause. -/
theorem witness_snapshots :
    (∃ (s : State) (mb : MbId) (j : Job), Begun s mb 0x0B04 j ∧ j.payload.length = 8 ∧ s.prs.snapPending = false ∧ s.prs.stroke < field j.payload 0 8 ∧
      (confidential s = true → ∀ u, s.prs.snapTime = some u → u + 1000000 ≤ s.now)) ∧
    (∃ (s : State) (mb : MbId) (j : Job), Begun s mb 0x0B05 j ∧ j.payload.length = 8 ∧ 1 ≤ field j.payload 4 4 ∧ field j.payload 4 4 ≤ 16312 ∧ field
      j.payload 0 4 < 0x10000 ∧ s.prs.snapLatched = false) ∧
    (∃ (s : State), s.prs.snapLatched = true) :=
  ⟨⟨on 0x0B04 (pay [(8, 1)]) (live), 0, job 0x0B04 (pay [(8, 1)]), ⟨by decide +kernel, by decide +kernel, by decide +kernel, by decide +kernel, fun h => absurd h (by decide +kernel)⟩⟩,
   ⟨on 0x0B05 (pay [(4, 0xFFFF), (4, 16312)]) (live), 0, job 0x0B05 (pay [(4, 0xFFFF), (4, 16312)]), by decide +kernel⟩,
   ⟨{ live with prs := { live.prs with snapLatched := true } }, by decide +kernel⟩⟩

/-- Inputs that meet the hypotheses of SelfTests, clause by clause. -/
theorem witness_selfTests :
    (∃ (s : State) (mb : MbId) (j : Job), Begun s mb 0x0B01 j ∧ j.payload.length = 8 ∧ field j.payload 6 2 = 0 ∧ field j.payload 4 2 < 64 ∧ testBlocked s
      (BitVec.ofNat 32 (field j.payload 0 4)) (field j.payload 4 2) = false ∧ bit (field j.payload 4 2) 3 = false) ∧
    (∃ (s : State) (mb : MbId) (j : Job), Begun s mb 0x0B01 j ∧ j.payload.length = 8 ∧ field j.payload 6 2 = 0 ∧ field j.payload 4 2 < 64 ∧ testBlocked s
      (BitVec.ofNat 32 (field j.payload 0 4)) (field j.payload 4 2) = false ∧ bit (field j.payload 4 2) 3 = true ∧ drbgGrants 1 4 s = true) ∧
    (∃ (s : State) (mb : MbId) (j : Job), Begun s mb 0x0B02 j ∧ j.payload.length = 8 ∧ zeroAt j.payload 5 3 = true ∧ field j.payload 4 1 ≤ 1 ∧ testBlocked
      s (BitVec.ofNat 32 (field j.payload 0 4)) (field j.payload 4 1) = false) ∧
    (∃ (s : State) (mb : MbId) (j : Job), Begun s mb 0x0B03 j ∧ j.payload.length = 24 ∧ zeroAt j.payload 17 7 = true ∧ field j.payload 0 8 % 4096 = 0 ∧
      field j.payload 8 8 % 4096 = 0 ∧ 1 ≤ field j.payload 16 1 ∧ field j.payload 16 1 ≤ 3 ∧ inHbm s (field j.payload 0 8) (field j.payload 8 8) =
      true ∧ heldRange s (field j.payload 0 8) (field j.payload 8 8) = false) ∧
    (∃ (s : State) (mb : MbId) (j : Job) (sheets : BitVec 32) (sigs : List (BitVec 64)), firmwareRuns s = true ∧ s.tst.running = some (1, sheets, 0) ∧
      (s.mbx.jobs.find? (fun x => x.mb == mb.val && x.phase == 2 && decide (0x0B01 ≤ x.opcode ∧ x.opcode ≤ 0x0B03)) = some j) ∧ sigs.length =
      (logicUnits sheets 0).length) :=
  ⟨⟨on 0x0B01 (pay [(4, 1), (4, 55)]) (live), 0, job 0x0B01 (pay [(4, 1), (4, 55)]), by decide +kernel⟩,
   ⟨on 0x0B01 (pay [(4, 1), (4, 63)]) (live), 0, job 0x0B01 (pay [(4, 1), (4, 63)]), by decide +kernel⟩,
   ⟨on 0x0B02 (pay [(4, 2), (4, 1)]) (live), 0, job 0x0B02 (pay [(4, 2), (4, 1)]), by decide +kernel⟩,
   ⟨on 0x0B03 (pay [(8, 0), (8, 0x1000), (8, 3)]) (live), 0, job 0x0B03 (pay [(8, 0), (8, 0x1000), (8, 3)]), by decide +kernel⟩,
   ⟨{ live with tst := { live.tst with running := some (1, 1, 0) }, mbx := { live.mbx with jobs := [{ job 0x0B01 (zeros 8) with phase := 2 }] } }, 0, { job 0x0B01 (zeros 8) with phase := 2 }, 1, List.replicate 16 0, by decide +kernel⟩⟩

/-- A decode plate of one sheet in the store, and a session on sheets 0 and 1. -/
def plate1 : Plate :=
  { handle := 9, image := [1], digest := [2], signer := [3], kind := 1, sheets := 1, flags := 0, span := 0, shape := [] }
def stocked : State := { live with pla := { live.pla with store := [plate1] } }
/-- A plate of a round, and the round. -/
def round1 : Round :=
  { handle := 5, id := 7, mode := 1, prg := 1, accSram := false, vec := 4, slice := 4, clients := 2, cohort := 1, limbElems := 0, primes := []
    state := 1, acc := [], admitted := [], poisoned := [], waiter := none, aborting := false, base := 0 }
def bound : State :=
  { live with ptn := { live.ptn with rounds := [round1] }
              pla := { live.pla with store := [{ plate1 with kind := 3, shape := zeros 64 }], grants := [⟨.round 5, 3, false, []⟩] } }
/-- A plate image of 8,192 bytes under the Cehorn plate key, with one section. -/
def plateHead : Bytes := pay [(4, 0x54414C50), (2, 1), (2, 1), (4, 0), (4, 8192), (1, 1), (1, 1), (2, 1), (4, 0), (4, 0), (4, 0), (64, 0)]
def plateMid : Bytes := pay [(96, 0), (2, 1), (2, 0), (4, 272), (4, 16), (4, 0)]
def plateImage : Bytes := plateHead ++ (digest64 Config.cehornPlateDigest ++ (plateMid ++ zeros 7920))
theorem plateImage_len : plateImage.length = 8192 := by
  simp only [plateImage, List.length_append, digest64, bvBytes_length, zeros_length]; rfl
theorem plateImage_from (off n : Nat) (h : 160 ≤ off) : slice plateImage off n = slice (plateMid ++ zeros 7920) (off - 160) n := by
  rw [plateImage, slice_right plateHead _ 96 _ _ (by rfl) (by omega),
    slice_right (digest64 Config.cehornPlateDigest) _ 64 _ _ (bvBytes_length _ _) (by omega), Nat.sub_sub]
theorem plateImage_reason (s : State) : stageReason s plateImage 8192 = none := by
  have z : zeroAt plateImage 0xA0 96 = true := by rw [zeroAt, plateImage_from _ _ (by decide)]; rfl
  have e : zeroAt plateImage (8192 - 13) 13 = true := by
    rw [zeroAt, plateImage_from _ _ (by decide), slice_right plateMid _ 112 _ _ (by rfl) (by decide)]; exact zeroAt_zeros _ _ _
  have g : slice plateImage 0x60 64 = digest64 Config.cehornPlateDigest :=
    slice_mid plateHead (digest64 Config.cehornPlateDigest) (plateMid ++ zeros 7920) 96 64 (by rfl) (bvBytes_length _ _)
  simp only [stageReason, plateHeaderBad, z, e, g, signerOk, beq_self_eq_true, Bool.true_or, show field plateImage 8 4 = 0 from rfl, show field plateImage 0x14 4 = 0 from rfl,
    show field plateImage 0x1C 4 = 0 from rfl, show field plateImage 0x0C 4 = 8192 from rfl, show field plateImage 0 4 = 0x54414C50 from rfl,
    show field plateImage 4 2 = 1 from rfl, show field plateImage 6 2 = 1 from rfl]
  simp
theorem plateImage_layout : stageLayoutBad plateImage = false := by
  have f : ∀ o n, 160 ≤ o → field plateImage o n = leNat (slice (plateMid ++ zeros 7920) (o - 160) n) := fun o n h => by rw [field, plateImage_from _ _ h]
  simp only [stageLayoutBad, sectionsBad, plateImage_len, show field plateImage 0x10 1 = 1 from rfl, show field plateImage 0x11 1 = 1 from rfl,
    show field plateImage 0x12 2 = 1 from rfl, show field plateImage 0x18 4 = 0 from rfl, show List.range 1 = [0] from rfl, List.map, Nat.mul_zero, Nat.add_zero,
    f (0x100) 2 (by decide), f (0x100 + 4) 4 (by decide), f (0x100 + 8) 4 (by decide), f (0x100 + 2) 2 (by decide), f (0x100 + 12) 4 (by decide)]
  decide
def plateRequest : Bytes := pay [(8, 2 ^ 63 + 0x10000), (4, 8192), (4, 0)]
def plateStored : State := on 0x0401 plateRequest { live with mem := { live.mem with cells := cellWrite [] 0x10000 plateImage } }

/-- Inputs that meet the hypotheses of PlateCommands, clause by clause. -/
theorem witness_plateCommands :
    (∃ (s : State) (mb : MbId) (j : Job) (a n : Nat), Begun s mb 0x0401 j ∧ j.payload.length = 16 ∧ field j.payload 12 4 = 0 ∧ field j.payload 0 8 = 2 ^
      63 + a ∧ a < 2 ^ 48 ∧ field j.payload 8 4 = n ∧ imageLengthBad n = false ∧ inHbm s a n = true ∧ devOk s a n = true ∧ poisonedAt s a n = false ∧
      (let img := cellRead s.mem.cells a n
      stageReason s img n = none ∧ stageLayoutBad img = false ∧ s.pla.store.length < 64 ∧ storeUsed s + n ≤ 0x40000000)) ∧
    (∃ (s : State) (mb : MbId) (j : Job), Begun s mb 0x0401 j ∧ j.payload.length = 16 ∧ field j.payload 12 4 = 0 ∧ field j.payload 0 8 < 2 ^ 63 ∧
      imageLengthBad (field j.payload 8 4) = false ∧ fnReady s 0 = true) ∧
    (∃ (s : State) (mb : MbId) (j : Job) (w : Work) (p : Plate) (g : Grant), Begun s mb 0x0402 j ∧ j.payload.length = 24 ∧ field j.payload 12 4 = 0 ∧
      workOf s (field j.payload 0 4) = some w ∧ plateAt s (field j.payload 4 4) = some p ∧ grantOf s w = some g ∧
      (let m := BitVec.ofNat 32 (field j.payload 8 4)
      
      (let full := fullMask g.twin m
      
      (let S := if field j.payload 16 8 = 0 then sessionStroke s w + 2 else field j.payload 16 8
      bindMaskBad g p m = false ∧ bindReason s w g.twin p = none ∧ s.pla.swaps.all (fun x => disjoint x.mask full) = true ∧ sessionStroke s w + 1 < S ∧
      oldPlateBusy s w full S = false)))) ∧
    (∃ (s : State) (mb : MbId) (j : Job), Begun s mb 0x0403 j ∧ j.payload.length = 8 ∧ field j.payload 4 4 = 0 ∧ (plateAt s (field j.payload 0 4)).isSome
      = true ∧ plateInUse s (field j.payload 0 4) = false) :=
  ⟨by
    refine ⟨plateStored, 0, job 0x0401 plateRequest, 0x10000, 8192, ?_⟩
    iterate 10 refine ⟨by decide +kernel, ?_⟩
    intro img
    have e : img = plateImage := image_read plateStored plateImage 8192 (by rw [plateStored, on_mem]) plateImage_len
    clear_value img
    subst e
    exact ⟨plateImage_reason _, plateImage_layout, by decide +kernel, by decide +kernel⟩,
   ⟨on 0x0401 (pay [(8, 0x1000), (8, 8192)]) (live), 0, job 0x0401 (pay [(8, 0x1000), (8, 8192)]), by decide +kernel⟩,
   ⟨on 0x0402 (pay [(4, 5), (4, 9), (8, 1), (8, 0)]) (bound), 0, job 0x0402 (pay [(4, 5), (4, 9), (8, 1), (8, 0)]), .round 5, { plate1 with kind := 3, shape := zeros 64 }, ⟨.round 5, 3, false, []⟩, by decide +kernel⟩,
   ⟨on 0x0403 (pay [(8, 9)]) (stocked), 0, job 0x0403 (pay [(8, 9)]), by decide +kernel⟩⟩

/-- Weights are resident and no session is open. -/
def ready : State := on 0x0501 opening { live with weights := some wts }
theorem ready_room : ((grant .decode 3 false 0 ready).bind (placeStretch 1 false)).isSome = true := by
  have c : (grant .decode 3 false 0 ready).any (fun t => decide (1 * kvBlockBytes (fullShape t) = 0) &&
    (inHbm t 0 0 && !heldRange t 0 0 && !onRing t 0 0 && !onRegion t 0 0)) = true := by decide +kernel
  obtain ⟨t, ht⟩ : ∃ t, grant .decode 3 false 0 ready = some t := Option.isSome_iff_exists.mp (by decide +kernel)
  rw [ht, Option.any_some, Bool.and_eq_true, decide_eq_true_eq] at c
  rw [ht]
  exact placeStretch_some 1 t 0 c.1 c.2

/-- Inputs that meet the hypotheses of DecodeOpens, clause by clause. -/
theorem witness_decodeOpens :
    (∃ (s : State) (mb : MbId) (j : Job), runJob s mb 0x0501 = some j ∧ guardSet s = false ∧ s.dec = none ∧
      (let p := j.payload
      
      (let ring := field p 0 4
      
      (let internal := bit (field p 4 4) 1
      
      (let room := (grant .decode (BitVec.ofNat 32 (field p 8 4)) (bit (field p 4 4) 0) (field p 0x10 8) s).bind (placeStretch (if ring = 0 then field p
        0x1A 2 else s.ring.elim 0 (·.blocks)) (ring != 0))
      192 ≤ p.length ∧ p.length = 192 + field p 0x18 2 ∧ openBad s p = false ∧ quiesced s 1 = false ∧ s.weights.any (fun x => x.digest == slice p 0x20 64) =
      true ∧ (ring ≠ 0 → (ringOf s ring).any ringServes = true) ∧ room.isSome = true ∧ (internal = true → drbgGrants 1 3 s = true)))))) :=
  ⟨ready, 0, job 0x0501 opening, by refine ⟨?_, ?_, ?_, ?_, ?_, ?_, ?_, ?_, fun h => absurd h (by decide +kernel), ready_room, fun h => absurd h (by decide +kernel)⟩ <;> decide +kernel⟩

/-- A verification step runs. -/
def stepDone : PendingStep :=
  { first := 4, hatch := [], path := [5], nextRoot := 6, stop := 0, kv := [], logits := [], chunk := false, ready := true, voted := true
    digest := none }
def stepping : Session := { sess with state := 4, inputs := [1, 2, 3, 4], chunks := 1, pendStep := some stepDone }

/-- Inputs that meet the hypotheses of DecodeSessionCommands, clause by clause. -/
theorem witness_decodeSessionCommands :
    (∃ (s : State) (mb : MbId) (j : Job) (d : Session), Begun s mb 0x0510 j ∧ j.payload.length = 8 ∧ field j.payload 4 4 = 0 ∧ s.dec = some d ∧ d.handle =
      field j.payload 0 4 ∧ (d.state = 1 ∨ d.state = 2)) ∧
    (∃ (s : State) (mb : MbId) (j : Job) (d : Session), Begun s mb 0x0510 j ∧ j.payload.length = 8 ∧ field j.payload 4 4 = 0 ∧ s.dec = some d ∧ d.handle =
      field j.payload 0 4 ∧ (d.state = 3 ∨ d.state = 4 ∨ d.state = 5) ∧ atBoundary s = false) ∧
    (∃ (s : State) (mb : MbId) (j : Job) (d : Session), Begun s mb 0x0510 j ∧ j.payload.length = 8 ∧ field j.payload 4 4 = 0 ∧ s.dec = some d ∧ d.handle =
      field j.payload 0 4 ∧ (d.state = 3 ∨ d.state = 4 ∨ d.state = 5) ∧ atBoundary s = true) ∧
    (∃ (s : State) (mb : MbId) (j : Job) (d : Session), Begun s mb 0x0510 j ∧ j.payload.length = 8 ∧ field j.payload 4 4 = 0 ∧ s.dec = some d ∧ d.handle =
      field j.payload 0 4 ∧ d.state = 6) ∧
    (∃ (s : State) (mb : MbId) (j : Job) (d : Session), Begun s mb 0x0511 j ∧ j.payload.length = 8 ∧ field j.payload 4 4 = 0 ∧ s.dec = some d ∧ d.handle =
      field j.payload 0 4 ∧ (shownState d = 1 ∨ shownState d = 2 ∨ shownState d = 6)) ∧
    (∃ (s : State) (mb : MbId) (j : Job) (d : Session), Begun s mb 0x0512 j ∧ j.payload.length = 8 ∧ field j.payload 4 4 = 0 ∧ s.dec = some d ∧ d.handle =
      field j.payload 0 4) :=
  ⟨⟨on 0x0510 (pay [(8, 11)]) (decoding sess), 0, job 0x0510 (pay [(8, 11)]), sess, by decide +kernel⟩,
   ⟨on 0x0510 (pay [(8, 11)]) (decoding stepping), 0, job 0x0510 (pay [(8, 11)]), stepping, by decide +kernel⟩,
   ⟨on 0x0510 (pay [(8, 11)]) (decoding { stepping with pendStep := none }), 0, job 0x0510 (pay [(8, 11)]), { stepping with pendStep := none }, by decide +kernel⟩,
   ⟨on 0x0510 (pay [(8, 11)]) (decoding { sess with state := 6 }), 0, job 0x0510 (pay [(8, 11)]), { sess with state := 6 }, by decide +kernel⟩,
   ⟨on 0x0511 (pay [(8, 11)]) (decoding { sess with state := 6 }), 0, job 0x0511 (pay [(8, 11)]), { sess with state := 6 }, by decide +kernel⟩,
   ⟨on 0x0512 (pay [(8, 11)]) (decoding sess), 0, job 0x0512 (pay [(8, 11)]), sess, by decide +kernel⟩⟩

/-- A content key stands in slot 64. -/
def filledSlot : State := { live with kst := { live.kst with slots := live.kst.slots ++ [key 64 0x10] } }
/-- The smallest weight set of a role, one layer of width 256 and its weights `rest`, and its image under a content key. -/
def modelHead (role window : Nat) : Bytes :=
  pay [(4, 0x4853584F), (2, 1), (2, 1), (2, 1), (2, 1), (2, 1), (2, 256), (4, 256), (4, 256), (4, 1024), (4, window), (1, role), (1, 1), (2, 0), (4, 0x3F800000),
    (8, 922900)]
def imgHead : Bytes := pay [(4, 0x4957584F), (2, 1), (2, 0), (8, 922900), (16, 0), (32, 0)]
def imgNonce : Bytes := leBytes 8 0 ++ leBytes 4 1
def imgKey (secret : Bytes) : Bytes := shake (secret ++ zeros 32) 32
def imgBody (secret plain : Bytes) : Bytes := gcmXor (imgKey secret) imgNonce plain
def imgTag (secret plain : Bytes) : Bytes := gcmTag (imgKey secret) imgNonce imgHead (imgBody secret plain)
def sealed (secret plain : Bytes) : Bytes := imgHead ++ (imgBody secret plain ++ imgTag secret plain)
theorem imgBody_len (c p : Bytes) : (imgBody c p).length = p.length := gcmXor_length _ _ _
theorem sealed_len (c p : Bytes) : (sealed c p).length = 64 + p.length + 16 := by
  rw [sealed, List.length_append, List.length_append, imgBody_len, show (imgTag c p).length = 16 from gcmTag_length _ _ _ _, ← Nat.add_assoc]; rfl
theorem sealed_header (c p : Bytes) : imageHeader (sealed c p) 922980 = .ok 922900 := by
  have f : ∀ o n, o + n ≤ 64 → field (sealed c p) o n = field imgHead o n := fun o n g => field_left imgHead _ o n g
  have z : zeroAt (sealed c p) 0x10 16 = true := (zeroAt_left imgHead _ 0x10 16 (by decide)).trans (by decide)
  simp only [imageHeader, z, f 8 8 (by decide), f 0 4 (by decide), f 4 2 (by decide), f 6 2 (by decide),
    show field imgHead 8 8 = 922900 by decide +kernel, show field imgHead 0 4 = 0x4957584F by decide +kernel, show field imgHead 4 2 = 1 by decide +kernel,
    show field imgHead 6 2 = 0 by decide +kernel]
  rfl
theorem sealed_chunk (c p : Bytes) (n : Nat) (h : p.length = n) :
    openChunk (imageKey c (sealed c p)) ((sealed c p).take 64) ((sealed c p).drop 64) 0 0 n true = some p := by
  have k : imageKey c (sealed c p) = imgKey c := rfl
  have t : (sealed c p).take 64 = imgHead := rfl
  have d : (sealed c p).drop 64 = imgBody c p ++ imgTag c p := rfl
  have b : slice (imgBody c p ++ imgTag c p) 0 n = imgBody c p := slice_mid [] _ _ 0 n rfl ((imgBody_len _ _).trans h)
  have g : slice (imgBody c p ++ imgTag c p) n 16 = imgTag c p := by
    have e := slice_mid (imgBody c p) (imgTag c p) [] n 16 ((imgBody_len _ _).trans h) (gcmTag_length _ _ _ _)
    rwa [List.append_nil] at e
  rw [k, t, d, openChunk, gcmOpen, Nat.zero_add, b, g]
  rw [if_pos (by rfl)]
  congr 1
  exact gcmXor_gcmXor _ _ _
theorem chunks_one (k h b : Bytes) (n : Nat) (g : n ≤ 4194304) : openChunks k h b n (0 + 1) 0 = openChunk k h b 0 0 n true := by
  simp only [openChunks, Nat.mul_zero, Nat.sub_zero, Nat.min_eq_right g, decide_eq_true g, if_pos g]
  split <;> simp_all
theorem head_len (r w : Nat) : (modelHead r w).length = 48 := by simp [modelHead, pay, leBytes_length]
theorem model_shape (r w : Nat) (rest : Bytes) (h : r = 1 ∧ w = 0 ∨ r = 2 ∧ w = 4096) (hl : (modelHead r w ++ rest).length = 922900)
    (z : zeroAt (modelHead r w ++ rest) 0x30 208 = true) : shapeFail (modelHead r w ++ rest) r 922900 = none := by
  have f : ∀ o n, o + n ≤ 48 → field (modelHead r w ++ rest) o n = field (modelHead r w) o n := fun o n g => field_left (modelHead r w) _ o n (by rw [head_len]; exact g)
  have sh : shapeOf (modelHead r w ++ rest) = shapeOf (modelHead r w) := by
    simp only [shapeOf, f 0x08 2 (by decide), f 0x0A 2 (by decide), f 0x0C 2 (by decide), f 0x0E 2 (by decide), f 0x10 4 (by decide), f 0x14 4 (by decide),
      f 0x18 4 (by decide), f 0x1C 4 (by decide), f 0x20 1 (by decide), f 0x21 1 (by decide), f 0x24 4 (by decide), f 0x28 8 (by decide)]
  simp only [shapeFail, hl, z, sh, f 0 4 (by decide), f 4 2 (by decide), f 6 2 (by decide), f 0x22 2 (by decide)]
  obtain ⟨rfl, rfl⟩ | ⟨rfl, rfl⟩ := h
  · clear hl z f sh; decide +kernel
  · clear hl z f sh; decide +kernel
theorem judged (k : KeySlot) (r w : Nat) (rest : Bytes) (h : r = 1 ∧ w = 0 ∨ r = 2 ∧ w = 4096) (hl : (modelHead r w ++ rest).length = 922900)
    (z : zeroAt (modelHead r w ++ rest) 0x30 208 = true) (vocab : Option Nat) (hv : vocab.any (fun v => 1024 != v) = false)
    (fits : Nat → Bool) (hf : fits 922900 = true) (hb : allZero k.bound = true) :
    judgeImage k (sealed k.secret (modelHead r w ++ rest)) 922980 r vocab fits = some (.ok (modelHead r w ++ rest) (sha512 (modelHead r w ++ rest))) := by
  have v : vocab.any (fun v => (shapeOf (modelHead r w ++ rest)).vocab != v) = false := by
    rw [show (shapeOf (modelHead r w ++ rest)).vocab = 1024 from (field_left (modelHead r w) _ 0x18 4 (by rw [head_len]; decide)).trans (by
      obtain ⟨rfl, rfl⟩ | ⟨rfl, rfl⟩ := h <;> decide +kernel)]
    exact hv
  have shape := model_shape r w rest h hl z
  generalize modelHead r w ++ rest = p at *
  have first : imageFirst k.secret (sealed k.secret p) 922900 = some p := by
    rw [imageFirst, show min 4194304 922900 = 922900 by decide, show decide (922900 ≤ 4194304) = true by decide]
    exact sealed_chunk k.secret p 922900 hl
  have plain : imagePlain k.secret (sealed k.secret p) 922900 = some p := by
    have c := sealed_chunk k.secret p 922900 hl
    rw [imagePlain, show (922900 + 4194303) / 4194304 = 0 + 1 by decide, chunks_one _ _ _ _ (by decide)]
    exact c
  have n : (sealed k.secret p).length = 922980 := (sealed_len _ _).trans (by rw [hl])
  simp only [judgeImage, n, sealed_header _ _, first, plain, shape, v, hf, boundElse, hb]
  rfl
def rest : Bytes := zeros 922852
theorem rest_len (r w : Nat) : (modelHead r w ++ rest).length = 922900 := by
  rw [List.length_append, rest, zeros_length, head_len]
theorem rest_zero (r w : Nat) : zeroAt (modelHead r w ++ rest) 0x30 208 = true := by
  rw [zeroAt, rest, slice_right (modelHead r w) _ 48 _ _ (head_len _ _) (by decide)]; exact zeroAt_zeros _ _ _
def full1 : Bytes := modelHead 1 0 ++ rest
def draft2 : Bytes := modelHead 2 4096 ++ rest
def weightsRequest : Bytes := pay [(8, 2 ^ 63 + 0x10000), (8, 922980), (8, 64)]
def draftRequest : Bytes := pay [(4, 11), (4, 64), (8, 2 ^ 63 + 0x10000), (8, 922980)]
def content : KeySlot := key 64 0x10
def imaged (b : Bytes) (s : State) : State := { s with mem := { s.mem with cells := cellWrite [] 0x10000 b } }
theorem imaged_cells (b : Bytes) (s : State) : (imaged b s).mem.cells = cellWrite [] 0x10000 b := rfl
def drafting : Session := { sess with state := 1, draftLen := 922900 }
def loads (b : Bytes) : State := on 0x0502 weightsRequest (imaged b filledSlot)
def drafts (b : Bytes) : State := on 0x0503 draftRequest (imaged b { filledSlot with weights := some wts, dec := some drafting })
theorem loads_ok (p b : Bytes) (n : Nat) (hn : b.length = n)
    (h : ∀ f : Nat → Bool, f 922900 = true → judgeImage content b n 1 none f = some (.ok p (sha512 p))) (m : n = 922980) :
    ∃ (s : State) (mb : MbId) (j : Job) (k : KeySlot) (a n : Nat) (plain digest : Bytes), Begun s mb 0x0502 j ∧ j.payload.length = 24 ∧
      zeroAt j.payload 18 6 = true ∧ field j.payload 0 8 = 2 ^ 63 + a ∧ a < 2 ^ 48 ∧ field j.payload 8 8 = n ∧ s.dec = none ∧
      slotAt s (field j.payload 16 2) = some k ∧ bit k.mask 4 = true ∧ inHbm s a n = true ∧ devOk s a n = true ∧ poisonedAt s a n = false ∧
      weightsJudged k (cellRead s.mem.cells a n) n s = some (.ok plain digest) := by
  refine ⟨loads b, 0, job 0x0502 weightsRequest, content, 0x10000, n, p, sha512 p, ⟨rfl, rfl⟩, by decide, by decide, by decide, by decide, by rw [m]; decide,
    rfl, rfl, by decide, ?_, ?_, ?_, ?_⟩
  · rw [m, show inHbm (loads b) = inHbm live from rfl]; decide +kernel
  · rw [m, show devOk (loads b) = devOk live from rfl]; decide +kernel
  · rw [m, show poisonedAt (loads b) = poisonedAt live from rfl]; decide +kernel
  · rw [image_read (loads b) b n (by rw [loads, on_mem, imaged_cells]) hn, weightsJudged]
    refine h _ (placeHbm_some 922900 (dropWeights (loads b)) ?_)
    rw [show inHbm (dropWeights (loads b)) = inHbm live from rfl, show heldRange (dropWeights (loads b)) = heldRange live from rfl,
      show onRing (dropWeights (loads b)) = onRing live from rfl, show onRegion (dropWeights (loads b)) = onRegion live from rfl]
    decide +kernel
theorem drafts_ok (p b : Bytes) (n : Nat) (hn : b.length = n)
    (h : judgeImage content b n 2 (some 1024) (fun m => decide (m ≤ bankCount 922900 * bankBytes)) = some (.ok p (sha512 p))) (m : n = 922980)
    (w : draftWindowBytes (shapeOf p) = draftWindowBytes (shapeOf (modelHead 2 4096))) :
    ∃ (s : State) (mb : MbId) (j : Job) (d : Session) (k : KeySlot) (a n : Nat) (plain digest : Bytes), Begun s mb 0x0503 j ∧ j.payload.length = 24 ∧
      field j.payload 6 2 = 0 ∧ field j.payload 8 8 = 2 ^ 63 + a ∧ a < 2 ^ 48 ∧ field j.payload 16 8 = n ∧ s.dec = some d ∧
      d.handle = field j.payload 0 4 ∧ d.state = 1 ∧ slotAt s (field j.payload 4 2) = some k ∧ bit k.mask 4 = true ∧ inHbm s a n = true ∧
      devOk s a n = true ∧ poisonedAt s a n = false ∧ draftJudged d k (cellRead s.mem.cells a n) n s = some (.ok plain digest) ∧
      (placeHbm (draftWindowBytes (shapeOf plain)) (dropDraft s)).1.isSome = true := by
  refine ⟨drafts b, 0, job 0x0503 draftRequest, drafting, content, 0x10000, n, p, sha512 p, ⟨rfl, rfl⟩, by decide, by decide, by decide, by decide,
    by rw [m]; decide, rfl, by decide +kernel, rfl, rfl, by decide, ?_, ?_, ?_, ?_, ?_⟩
  · rw [m, show inHbm (drafts b) = inHbm live from rfl]; decide +kernel
  · rw [m, show devOk (drafts b) = devOk live from rfl]; decide +kernel
  · rw [m, show poisonedAt (drafts b) = poisonedAt live from rfl]; decide +kernel
  · rw [image_read (drafts b) b n (by rw [drafts, on_mem, imaged_cells]) hn]
    exact h
  · rw [w]
    refine placeHbm_some _ (dropDraft (drafts b)) ?_
    rw [show inHbm (dropDraft (drafts b)) = inHbm live from rfl, show heldRange (dropDraft (drafts b)) = heldRange live from rfl,
      show onRing (dropDraft (drafts b)) = onRing live from rfl, show onRegion (dropDraft (drafts b)) = onRegion live from rfl]
    decide +kernel

/-- Inputs that meet the hypotheses of WeightsAndDrafts, clause by clause. -/
theorem witness_weightsAndDrafts :
    (∃ (s : State) (mb : MbId) (j : Job) (k : KeySlot) (a n : Nat) (plain digest : Bytes), Begun s mb 0x0502 j ∧ j.payload.length = 24 ∧ zeroAt j.payload
      18 6 = true ∧ field j.payload 0 8 = 2 ^ 63 + a ∧ a < 2 ^ 48 ∧ field j.payload 8 8 = n ∧ s.dec = none ∧ slotAt s (field j.payload 16 2) = some k
      ∧ bit k.mask 4 = true ∧ inHbm s a n = true ∧ devOk s a n = true ∧ poisonedAt s a n = false ∧ weightsJudged k (cellRead s.mem.cells a n) n s =
      some (.ok plain digest)) ∧
    (∃ (s : State) (mb : MbId) (j : Job), Begun s mb 0x0502 j ∧ j.payload.length = 24 ∧ zeroAt j.payload 18 6 = true ∧ field j.payload 0 8 < 2 ^ 63 ∧
      s.dec = none ∧ (slotFor s (field j.payload 16 2) 4).isSome = true) ∧
    (∃ (s : State) (mb : MbId) (j : Job) (d : Session) (k : KeySlot) (a n : Nat) (plain digest : Bytes), Begun s mb 0x0503 j ∧ j.payload.length = 24 ∧
      field j.payload 6 2 = 0 ∧ field j.payload 8 8 = 2 ^ 63 + a ∧ a < 2 ^ 48 ∧ field j.payload 16 8 = n ∧ s.dec = some d ∧ d.handle = field j.payload
      0 4 ∧ d.state = 1 ∧ slotAt s (field j.payload 4 2) = some k ∧ bit k.mask 4 = true ∧ inHbm s a n = true ∧ devOk s a n = true ∧ poisonedAt s a n =
      false ∧ draftJudged d k (cellRead s.mem.cells a n) n s = some (.ok plain digest) ∧ (placeHbm (draftWindowBytes (shapeOf plain)) (dropDraft
      s)).1.isSome = true) ∧
    (∃ (s : State) (mb : MbId) (j : Job), Begun s mb 0x0504 j ∧ j.payload = zeros 8 ∧ s.dec = none) :=
  ⟨loads_ok full1 (sealed [64] full1) 922980 ((sealed_len _ _).trans (by rw [full1, rest_len])) (fun f hf => judged content 1 0 rest (.inl ⟨rfl, rfl⟩) (rest_len _ _) (rest_zero _ _) none rfl f hf rfl) rfl,
   ⟨on 0x0502 (pay [(8, 0x1000), (8, 65536), (8, 64)]) filledSlot, 0, job 0x0502 (pay [(8, 0x1000), (8, 65536), (8, 64)]), by decide +kernel⟩,
   drafts_ok draft2 (sealed [64] draft2) 922980 ((sealed_len _ _).trans (by rw [draft2, rest_len])) (judged content 2 4096 rest (.inr ⟨rfl, rfl⟩) (rest_len _ _) (rest_zero _ _) (some 1024) (by decide) _ (by decide) rfl) rfl rfl,
   ⟨on 0x0504 (zeros 8) (live), 0, job 0x0504 (zeros 8), by decide +kernel⟩⟩

/-- What REPLAY_VERIFY reads: a proof of version `v` with `cnt` input tokens, under the signing key that it carries, with its tokens and metadata at `addr`. -/
def proofFront (v : Nat) : Bytes := pay [(4, 0x4650584F), (2, 1), (2, v), (4, 0), (4, 0x3020), (336, 0)]
def proofMid (cnt : Nat) : Bytes := pay [(128, 0), (8, cnt), (7000, 0)]
def proofOf (v cnt : Nat) : Bytes :=
  proofFront v ++ (sha512 [5, 0, 0, 0] ++ (sha512 [] ++ (proofMid cnt ++ (sha512 (zeros 2592) ++ zeros 4640))))
def replayHead (addr : Nat) : Bytes := pay [(4, 11), (4, 0), (8, addr), (8, addr), (4, 0), (4, 0)]
def replay (addr v cnt : Nat) : Bytes := replayHead addr ++ (zeros 2592 ++ (proofOf v cnt ++ []))
theorem proofFront_len (v : Nat) : (proofFront v).length = 352 := by simp [proofFront, pay, leBytes_length]
theorem proofMid_len (cnt : Nat) : (proofMid cnt).length = 7136 := by simp [proofMid, pay, leBytes_length]
theorem replayHead_len (addr : Nat) : (replayHead addr).length = 32 := by simp [replayHead, pay, leBytes_length]
theorem proofOf_len (v cnt : Nat) : (proofOf v cnt).length = 12320 := by
  simp only [proofOf, List.length_append, proofFront_len, proofMid_len, sha512_length, zeros_length]
theorem replay_len (addr v cnt : Nat) : (replay addr v cnt).length = 14944 := by
  simp only [replay, List.length_append, replayHead_len, proofOf_len, zeros_length, List.length_nil]
theorem replay_head (addr v cnt o n : Nat) (h : o + n ≤ 32) : field (replay addr v cnt) o n = field (replayHead addr) o n :=
  field_left _ _ _ _ (by rw [replayHead_len]; exact h)
theorem replay_proof (addr v cnt : Nat) : slice (replay addr v cnt) 0xA40 12320 = proofOf v cnt := by
  rw [replay, slice_right _ _ 32 _ _ (replayHead_len _) (by decide)]
  exact slice_mid _ _ _ _ _ (zeros_length _) (proofOf_len _ _)
theorem replay_keys (addr v cnt : Nat) : slice (replay addr v cnt) 0x20 2592 = zeros 2592 := slice_mid _ _ _ _ _ (replayHead_len _) (zeros_length _)
theorem proof_front (v cnt o n : Nat) (h : o + n ≤ 352) : slice (proofOf v cnt) o n = slice (proofFront v) o n :=
  slice_left _ _ _ _ (by rw [proofFront_len]; exact h)
theorem proof_tokens (v cnt : Nat) : slice (proofOf v cnt) 0x160 64 = sha512 [5, 0, 0, 0] := slice_mid _ _ _ _ _ (proofFront_len _) (sha512_length _)
theorem proof_meta (v cnt : Nat) : slice (proofOf v cnt) 0x1A0 64 = sha512 [] := by
  rw [proofOf, slice_right _ _ 352 _ _ (proofFront_len _) (by decide)]
  exact slice_mid _ _ _ _ _ (sha512_length _) (sha512_length _)
theorem proof_count (v cnt : Nat) : field (proofOf v cnt) 0x260 4 = field (proofMid cnt) 128 4 := by
  rw [field, proofOf, slice_right _ _ 352 _ _ (proofFront_len _) (by decide), slice_right _ _ 64 _ _ (sha512_length _) (by decide),
    slice_right _ _ 64 _ _ (sha512_length _) (by decide), slice_left _ _ _ _ (by rw [proofMid_len]; decide), field]
theorem proof_outputs (v cnt : Nat) : field (proofOf v cnt) 0x264 4 = field (proofMid cnt) 132 4 := by
  rw [field, proofOf, slice_right _ _ 352 _ _ (proofFront_len _) (by decide), slice_right _ _ 64 _ _ (sha512_length _) (by decide),
    slice_right _ _ 64 _ _ (sha512_length _) (by decide), slice_left _ _ _ _ (by rw [proofMid_len]; decide), field]
theorem proof_key (v cnt : Nat) : slice (proofOf v cnt) 0x1DC0 64 = sha512 (zeros 2592) := by
  rw [proofOf, slice_right _ _ 352 _ _ (proofFront_len _) (by decide), slice_right _ _ 64 _ _ (sha512_length _) (by decide),
    slice_right _ _ 64 _ _ (sha512_length _) (by decide)]
  exact slice_mid _ _ _ _ _ (proofMid_len _) (sha512_length _)
def replayer : Session := { sess with state := 2 }
/-- The first token of the replay stands at 64 KiB. -/
def replaying : State := { decoding replayer with mem := { live.mem with cells := [(0x10000, 5)] } }
theorem replaying_token : cellRead replaying.mem.cells 0x10000 4 = [5, 0, 0, 0] := by decide +kernel
def changedWeights : State := { replaying with weights := some { wts with digest := 1 :: zeros 63 } }
theorem replay_ready (addr v cnt : Nat) (s : State) (hs : s.dec = some replayer)
    (hj : runJob (on 0x0530 (replay addr v cnt) s) 0 0x0530 = some (job 0x0530 (replay addr v cnt))) (ha : badAddr (field (replayHead addr) 8 8) = false)
    (hb : badAddr (field (replayHead addr) 0x10 8) = false) (hz : field (replayHead addr) 4 4 = 0 ∧ field (replayHead addr) 0x1C 4 = 0 ∧
      field (replayHead addr) 0 4 = 11) (P : State → MbId → Job → Session → Prop)
    (h : P (on 0x0530 (replay addr v cnt) s) 0 (job 0x0530 (replay addr v cnt)) replayer) :
    ∃ (s : State) (mb : MbId) (j : Job) (d : Session), Begun s mb 0x0530 j ∧ j.payload.length = 14944 ∧ field j.payload 4 4 = 0 ∧
      field j.payload 0x1C 4 = 0 ∧ badAddr (field j.payload 8 8) = false ∧ badAddr (field j.payload 0x10 8) = false ∧ s.dec = some d ∧
      d.handle = field j.payload 0 4 ∧ replayRefused d = false ∧
      P s mb j d := by
  refine ⟨on 0x0530 (replay addr v cnt) s, 0, job 0x0530 (replay addr v cnt), replayer, ⟨hj, rfl⟩, replay_len _ _ _, ?_, ?_, ?_, ?_, hs, ?_, by decide +kernel, h⟩
  · exact (replay_head _ _ _ _ _ (by decide)).trans hz.1
  · exact (replay_head _ _ _ _ _ (by decide)).trans hz.2.1
  · rw [show (job 0x0530 (replay addr v cnt)).payload = replay addr v cnt from rfl, replay_head _ _ _ _ _ (by decide)]; exact ha
  · rw [show (job 0x0530 (replay addr v cnt)).payload = replay addr v cnt from rfl, replay_head _ _ _ _ _ (by decide)]; exact hb
  · exact .trans (by decide) ((replay_head _ _ _ _ _ (by decide)).trans hz.2.2).symm

theorem replay_starts (cnt out : Nat) (h : cnt = 1 ∧ out = 0 ∨ cnt = 4294967297 ∧ out = 1) :
    ∃ (s : State) (mb : MbId) (j : Job) (d : Session), Begun s mb 0x0530 j ∧ j.payload.length = 14944 ∧ field j.payload 4 4 = 0 ∧
      field j.payload 0x1C 4 = 0 ∧ badAddr (field j.payload 8 8) = false ∧ badAddr (field j.payload 0x10 8) = false ∧ s.dec = some d ∧
      d.handle = field j.payload 0 4 ∧ replayRefused d = false ∧
      (let pf := slice j.payload 0xA40 12320
       field pf 0 4 = 0x4650584F ∧ field pf 4 2 = 1 ∧ field pf 0xC 4 = 0x3020 ∧
       sha512 (slice j.payload 0x20 2592) = slice pf 0x1DC0 64 ∧ field pf 6 2 = 1 ∧
       s.weights.any (fun x => x.digest == slice pf 0xE0 64) = true ∧ d.finishReq = false ∧ ∃ a b : Nat,
       (let n := 4 * field pf 0x260 4
        let m := field j.payload 0x18 4
        let toks := (List.range (field pf 0x260 4)).map (fun i => field (cellRead s.mem.cells a n) (4 * i) 4)
        field j.payload 8 8 = 2 ^ 63 + a ∧ a < 2 ^ 48 ∧ field j.payload 0x10 8 = 2 ^ 63 + b ∧ b < 2 ^ 48 ∧
        inHbm s a n = true ∧ devOk s a n = true ∧ poisonedAt s a n = false ∧ inHbm s b m = true ∧ devOk s b m = true ∧ poisonedAt s b m = false ∧
        sha512 (cellRead s.mem.cells a n) = slice pf 0x160 64 ∧ sha512 (cellRead s.mem.cells b m) = slice pf 0x1A0 64 ∧
        (∀ x ∈ toks, x < s.weights.elim 0 (fun w => (shapeOf w.bytes).vocab)) ∧ field pf 0x264 4 = out ∧ toks ≠ [] ∧ toks.length ≤ capacity s d)) := by
  refine replay_ready (2 ^ 63 + 0x10000) 1 cnt replaying rfl rfl (by decide) (by decide) (by decide) _ ?_
  rw [show (job 0x0530 (replay (2 ^ 63 + 0x10000) 1 cnt)).payload = replay (2 ^ 63 + 0x10000) 1 cnt from rfl,
    show (on 0x0530 (replay (2 ^ 63 + 0x10000) 1 cnt) replaying).weights = replaying.weights from rfl,
    show (on 0x0530 (replay (2 ^ 63 + 0x10000) 1 cnt) replaying).mem = replaying.mem from rfl,
    show inHbm (on 0x0530 (replay (2 ^ 63 + 0x10000) 1 cnt) replaying) = inHbm replaying from rfl,
    show devOk (on 0x0530 (replay (2 ^ 63 + 0x10000) 1 cnt) replaying) = devOk replaying from rfl,
    show poisonedAt (on 0x0530 (replay (2 ^ 63 + 0x10000) 1 cnt) replaying) = poisonedAt replaying from rfl,
    show capacity (on 0x0530 (replay (2 ^ 63 + 0x10000) 1 cnt) replaying) = capacity replaying from rfl]
  have c : field (proofOf 1 cnt) 0x260 4 = 1 := (proof_count _ _).trans (by obtain ⟨rfl, _⟩ | ⟨rfl, _⟩ := h <;> decide +kernel)
  have o : field (proofOf 1 cnt) 0x264 4 = out := (proof_outputs _ _).trans (by obtain ⟨rfl, rfl⟩ | ⟨rfl, rfl⟩ := h <;> decide +kernel)
  simp only [replay_proof, replay_keys, proof_key, c, o, proof_tokens, proof_meta, replay_head _ _ _ _ _ (show 8 + 8 ≤ 32 by decide),
    replay_head _ _ _ _ _ (show 0x10 + 8 ≤ 32 by decide), replay_head _ _ _ _ _ (show 0x18 + 4 ≤ 32 by decide)]
  simp only [field, proof_front _ _ _ _ (show 0 + 4 ≤ 352 by decide), proof_front _ _ _ _ (show 4 + 2 ≤ 352 by decide),
    proof_front _ _ _ _ (show 6 + 2 ≤ 352 by decide), proof_front _ _ _ _ (show 0xC + 4 ≤ 352 by decide),
    proof_front _ _ _ _ (show 0xE0 + 64 ≤ 352 by decide), true_and]
  refine ⟨?_, ?_, ?_, ?_, ?_, rfl, 0x10000, 0x10000, ?_, ?_, ?_, ?_, ?_, ?_, ?_, ?_, ?_, ?_, ?_, rfl, ?_, ?_, ?_⟩ <;> decide +kernel

/-- Inputs that meet the hypotheses of ReplayVerified, clause by clause. -/
theorem witness_replayVerified :
    (∃ (s : State) (mb : MbId) (j : Job) (d : Session), Begun s mb 0x0530 j ∧ j.payload.length = 14944 ∧ field j.payload 4 4 = 0 ∧ field j.payload 0x1C 4
      = 0 ∧ badAddr (field j.payload 8 8) = false ∧ badAddr (field j.payload 0x10 8) = false ∧ s.dec = some d ∧ d.handle = field j.payload 0 4 ∧
      replayRefused d = false ∧
      (let pf := slice j.payload 0xA40 12320
      field pf 0 4 = 0x4650584F ∧ field pf 4 2 = 1 ∧ field pf 0xC 4 = 0x3020 ∧ sha512 (slice j.payload 0x20 2592) = slice pf 0x1DC0 64 ∧ field pf 6 2 ≠ 1)) ∧
    (∃ (s : State) (mb : MbId) (j : Job) (d : Session), Begun s mb 0x0530 j ∧ j.payload.length = 14944 ∧ field j.payload 4 4 = 0 ∧ field j.payload 0x1C 4
      = 0 ∧ badAddr (field j.payload 8 8) = false ∧ badAddr (field j.payload 0x10 8) = false ∧ s.dec = some d ∧ d.handle = field j.payload 0 4 ∧
      replayRefused d = false ∧
      (let pf := slice j.payload 0xA40 12320
      field pf 0 4 = 0x4650584F ∧ field pf 4 2 = 1 ∧ field pf 0xC 4 = 0x3020 ∧ sha512 (slice j.payload 0x20 2592) = slice pf 0x1DC0 64 ∧ field pf 6 2 = 1 ∧
      s.weights.all (fun x => x.digest != slice pf 0xE0 64) = true)) ∧
    (∃ (s : State) (mb : MbId) (j : Job) (d : Session) (a b : Nat), Begun s mb 0x0530 j ∧ j.payload.length = 14944 ∧ field j.payload 4 4 = 0 ∧ field
      j.payload 0x1C 4 = 0 ∧ badAddr (field j.payload 8 8) = false ∧ badAddr (field j.payload 0x10 8) = false ∧ s.dec = some d ∧ d.handle = field
      j.payload 0 4 ∧ replayRefused d = false ∧
      (let pf := slice j.payload 0xA40 12320
      field pf 0 4 = 0x4650584F ∧ field pf 4 2 = 1 ∧ field pf 0xC 4 = 0x3020 ∧ sha512 (slice j.payload 0x20 2592) = slice pf 0x1DC0 64 ∧ field pf 6 2 = 1 ∧
      s.weights.any (fun x => x.digest == slice pf 0xE0 64) = true ∧ d.finishReq = false ∧
      (let n := 4 * field pf 0x260 4
      
      (let m := field j.payload 0x18 4
      
      (let toks := (List.range (field pf 0x260 4)).map (fun i => field (cellRead s.mem.cells a n) (4 * i) 4)
      field j.payload 8 8 = 2 ^ 63 + a ∧ a < 2 ^ 48 ∧ field j.payload 0x10 8 = 2 ^ 63 + b ∧ b < 2 ^ 48 ∧ inHbm s a n = true ∧ devOk s a n = true ∧
      poisonedAt s a n = false ∧ inHbm s b m = true ∧ devOk s b m = true ∧ poisonedAt s b m = false ∧ sha512 (cellRead s.mem.cells a n) = slice pf
      0x160 64 ∧ sha512 (cellRead s.mem.cells b m) = slice pf 0x1A0 64 ∧ (∀ x ∈ toks, x < s.weights.elim 0 (fun w => (shapeOf w.bytes).vocab)) ∧ field
      pf 0x264 4 = 0))))) ∧
    (∃ (s : State) (mb : MbId) (j : Job) (d : Session) (a b : Nat), Begun s mb 0x0530 j ∧ j.payload.length = 14944 ∧ field j.payload 4 4 = 0 ∧ field
      j.payload 0x1C 4 = 0 ∧ badAddr (field j.payload 8 8) = false ∧ badAddr (field j.payload 0x10 8) = false ∧ s.dec = some d ∧ d.handle = field
      j.payload 0 4 ∧ replayRefused d = false ∧
      (let pf := slice j.payload 0xA40 12320
      field pf 0 4 = 0x4650584F ∧ field pf 4 2 = 1 ∧ field pf 0xC 4 = 0x3020 ∧ sha512 (slice j.payload 0x20 2592) = slice pf 0x1DC0 64 ∧ field pf 6 2 = 1 ∧
      s.weights.any (fun x => x.digest == slice pf 0xE0 64) = true ∧ d.finishReq = false ∧
      (let n := 4 * field pf 0x260 4
      
      (let m := field j.payload 0x18 4
      
      (let toks := (List.range (field pf 0x260 4)).map (fun i => field (cellRead s.mem.cells a n) (4 * i) 4)
      field j.payload 8 8 = 2 ^ 63 + a ∧ a < 2 ^ 48 ∧ field j.payload 0x10 8 = 2 ^ 63 + b ∧ b < 2 ^ 48 ∧ inHbm s a n = true ∧ devOk s a n = true ∧
      poisonedAt s a n = false ∧ inHbm s b m = true ∧ devOk s b m = true ∧ poisonedAt s b m = false ∧ sha512 (cellRead s.mem.cells a n) = slice pf
      0x160 64 ∧ sha512 (cellRead s.mem.cells b m) = slice pf 0x1A0 64 ∧ (∀ x ∈ toks, x < s.weights.elim 0 (fun w => (shapeOf w.bytes).vocab)) ∧ field
      pf 0x264 4 ≠ 0 ∧ toks ≠ [] ∧ toks.length ≤ capacity s d))))) :=
  ⟨replay_ready 0 0 0 replaying rfl rfl (by decide) (by decide) (by decide)
      (fun _ _ j _ => let pf := slice j.payload 0xA40 12320
        field pf 0 4 = 0x4650584F ∧ field pf 4 2 = 1 ∧ field pf 0xC 4 = 0x3020 ∧
        sha512 (slice j.payload 0x20 2592) = slice pf 0x1DC0 64 ∧ field pf 6 2 ≠ 1) (by
      show let pf := slice (replay 0 0 0) 0xA40 12320
           field pf 0 4 = 0x4650584F ∧ field pf 4 2 = 1 ∧ field pf 0xC 4 = 0x3020 ∧
           sha512 (slice (replay 0 0 0) 0x20 2592) = slice pf 0x1DC0 64 ∧ field pf 6 2 ≠ 1
      simp only [replay_proof, replay_keys, proof_key, field]
      simp only [proof_front _ _ _ _ (show 0 + 4 ≤ 352 by decide), proof_front _ _ _ _ (show 4 + 2 ≤ 352 by decide),
        proof_front _ _ _ _ (show 6 + 2 ≤ 352 by decide), proof_front _ _ _ _ (show 0xC + 4 ≤ 352 by decide), true_and]
      decide +kernel),
   replay_ready 0 1 0 changedWeights rfl rfl (by decide) (by decide) (by decide)
      (fun s _ j _ => let pf := slice j.payload 0xA40 12320
        field pf 0 4 = 0x4650584F ∧ field pf 4 2 = 1 ∧ field pf 0xC 4 = 0x3020 ∧
        sha512 (slice j.payload 0x20 2592) = slice pf 0x1DC0 64 ∧ field pf 6 2 = 1 ∧
        s.weights.all (fun x => x.digest != slice pf 0xE0 64) = true) (by
      show let pf := slice (replay 0 1 0) 0xA40 12320
           field pf 0 4 = 0x4650584F ∧ field pf 4 2 = 1 ∧ field pf 0xC 4 = 0x3020 ∧
           sha512 (slice (replay 0 1 0) 0x20 2592) = slice pf 0x1DC0 64 ∧ field pf 6 2 = 1 ∧
           changedWeights.weights.all (fun x => x.digest != slice pf 0xE0 64) = true
      simp only [replay_proof, replay_keys, proof_key, field]
      simp only [proof_front _ _ _ _ (show 0 + 4 ≤ 352 by decide), proof_front _ _ _ _ (show 4 + 2 ≤ 352 by decide),
        proof_front _ _ _ _ (show 6 + 2 ≤ 352 by decide), proof_front _ _ _ _ (show 0xC + 4 ≤ 352 by decide),
        proof_front _ _ _ _ (show 0xE0 + 64 ≤ 352 by decide), true_and]
      decide +kernel),
   by
    obtain ⟨s, mb, j, d, h1, h2, h3, h4, h5, h6, h7, h8, h9, g1, g2, g3, g4, g5, g6, g7, a, b, k1, k2, k3, k4, k5, k6, k7, k8, k9, l1, l2, l3, v, o, _⟩ := replay_starts 1 0 (.inl ⟨rfl, rfl⟩)
    exact ⟨s, mb, j, d, a, b, h1, h2, h3, h4, h5, h6, h7, h8, h9, g1, g2, g3, g4, g5, g6, g7, k1, k2, k3, k4, k5, k6, k7, k8, k9, l1, l2, l3, v, o⟩,
   by
    obtain ⟨s, mb, j, d, h1, h2, h3, h4, h5, h6, h7, h8, h9, g1, g2, g3, g4, g5, g6, g7, a, b, k1, k2, k3, k4, k5, k6, k7, k8, k9, l1, l2, l3, v, o, g⟩ := replay_starts 4294967297 1 (.inr ⟨rfl, rfl⟩)
    exact ⟨s, mb, j, d, a, b, h1, h2, h3, h4, h5, h6, h7, h8, h9, g1, g2, g3, g4, g5, g6, g7, k1, k2, k3, k4, k5, k6, k7, k8, k9, l1, l2, l3, v, by show _ ≠ 0; rw [o]; decide, g⟩⟩

/-- Descriptors of four input tokens and of room for 65,536 outputs. -/
def input (a : Nat) : FDesc := desc 1 (pay [(1, 0x10), (3, 0), (4, 11), (8, a), (8, 4), (8, 77), (32, 0)])
def output : FDesc := desc 1 (pay [(1, 0x11), (3, 1), (4, 11), (8, 0x1000), (8, 65536), (8, 77), (32, 0)])

/-- Inputs that meet the hypotheses of DecodeDescriptors, clause by clause. -/
theorem witness_decodeDescriptors :
    (∃ (s : State) (n : Nat) (f : FDesc) (d : Session) (a : Nat), descAt s n = some f ∧ f.taken = false ∧ f.fn = 1 ∧ field f.bytes 0 1 = 0x10 ∧
      inputReading s = false ∧ decodeDescBad s f.bytes 0x10 = false ∧ s.dec = some d ∧ prefilled d = false ∧
      (let cnt := field f.bytes 0x10 4
      field f.bytes 8 8 = 2 ^ 63 + a ∧ inHbm s a (4 * cnt) = true ∧ devOk s a (4 * cnt) = true ∧ poisonedAt s a (4 * cnt) = false ∧
      (let toks := (List.range cnt).map (fun i => field (cellRead s.mem.cells a (4 * cnt)) (4 * i) 4)
      (∀ x ∈ toks, x < s.weights.elim 0 (fun w => (shapeOf w.bytes).vocab)) ∧ d.inputs.length + cnt ≤ d.inputCnt))) ∧
    (∃ (s : State) (n : Nat) (f : FDesc), descAt s n = some f ∧ f.taken = false ∧ f.fn = 1 ∧ field f.bytes 0 1 = 0x10 ∧ inputReading s = false ∧
      decodeDescBad s f.bytes 0x10 = false ∧ s.dec.any prefilled = false ∧ field f.bytes 8 8 < 2 ^ 63) ∧
    (∃ (s : State) (n : Nat) (f : FDesc) (d : Session), descAt s n = some f ∧ f.taken = false ∧ f.fn = 1 ∧ field f.bytes 0 1 = 0x11 ∧ decodeDescBad s
      f.bytes 0x11 = false ∧ (∀ a, field f.bytes 8 8 = 2 ^ 63 + a → devOk s a (4 * field f.bytes 0x10 4) = true) ∧ s.dec = some d ∧ (d.state ≠ 6 ∨
      d.signWait = true)) ∧
    (∃ (s : State) (n : Nat) (f : FDesc) (d : Session), descAt s n = some f ∧ f.taken = false ∧ f.fn = 1 ∧ field f.bytes 0 1 = 0x11 ∧ decodeDescBad s
      f.bytes 0x11 = false ∧ (∀ a, field f.bytes 8 8 = 2 ^ 63 + a → devOk s a (4 * field f.bytes 0x10 4) = true) ∧ s.dec = some d ∧ d.state = 6 ∧
      d.signWait = false ∧ d.owed = false) ∧
    (∃ (s : State) (n : Nat) (f : FDesc) (d : Session), descAt s n = some f ∧ f.taken = false ∧ f.fn = 1 ∧ field f.bytes 0 1 = 0x11 ∧ decodeDescBad s
      f.bytes 0x11 = false ∧ (∀ a, field f.bytes 8 8 = 2 ^ 63 + a → devOk s a (4 * field f.bytes 0x10 4) = true) ∧ s.dec = some d ∧ d.state = 6 ∧
      d.signWait = false ∧ d.owed = true) :=
  ⟨⟨fetchedIn (input (2 ^ 63 + 0x1000)) (decoding { sess with state := 1 }), 0, input (2 ^ 63 + 0x1000), { sess with state := 1 }, 0x1000, by decide +kernel⟩,
   ⟨fetchedIn (input 0x1000) (decoding sess), 0, input 0x1000, by decide +kernel⟩,
   ⟨fetchedIn output (decoding sess), 0, output, sess, by refine ⟨?_, ?_, ?_, ?_, ?_, fun a h => absurd h (by rw [show field output.bytes 8 8 = 0x1000 by decide +kernel]; omega), ?_, ?_⟩ <;> decide +kernel⟩,
   ⟨fetchedIn output (decoding { sess with state := 6 }), 0, output, { sess with state := 6 }, by refine ⟨?_, ?_, ?_, ?_, ?_, fun a h => absurd h (by rw [show field output.bytes 8 8 = 0x1000 by decide +kernel]; omega), ?_, ?_, ?_, ?_⟩ <;> decide +kernel⟩,
   ⟨fetchedIn output (decoding { sess with state := 6, owed := true }), 0, output, { sess with state := 6, owed := true }, by refine ⟨?_, ?_, ?_, ?_, ?_, fun a h => absurd h (by rw [show field output.bytes 8 8 = 0x1000 by decide +kernel]; omega), ?_, ?_, ?_, ?_⟩ <;> decide +kernel⟩⟩

/-- The first chunk may run. -/
def prefilling : Session := { sess with state := 3, inputs := [1, 2, 3, 4] }
/-- Room for 4 outputs. -/
def room : OutDesc := { desc := 0, stream := false, addr := 0x1000, capacity := 4, written := 0, firstPos := 0, tag := 0 }

/-- Inputs that meet the hypotheses of StepsRun, clause by clause. -/
theorem witness_stepsRun :
    (∃ (s : State) (d : Session) (w : Resident), s.dec = some d ∧ s.weights = some w ∧ mayCommit s = false ∧ mayStep s d 3 = true ∧ decodePoisoned s =
      false) ∧
    (∃ (s : State) (d : Session) (w : Resident), s.dec = some d ∧ s.weights = some w ∧ mayStep s d 4 = true ∧ decodePoisoned s = false) ∧
    (∃ (s : State) (d : Session) (p : PendingStep), s.dec = some d ∧ d.pendStep = some p ∧ mayCommit s = true) ∧
    (∃ (s : State) (d : Session), s.dec = some d ∧ d.state = 5 ∧ d.finishReq = false ∧ parkWhy s d d.parkedIn = false) :=
  ⟨⟨decoding prefilling, prefilling, wts, by decide +kernel⟩,
   ⟨decoding { stepping with pendStep := none, outDescs := [room] }, { stepping with pendStep := none, outDescs := [room] }, wts, by decide +kernel⟩,
   ⟨decoding stepping, stepping, stepDone, by decide +kernel⟩,
   ⟨decoding { prefilling with state := 5, parkedIn := 3 }, { prefilling with state := 5, parkedIn := 3 }, by decide +kernel⟩⟩

/-- An action of the session on graver 3, and a state in which it is instantiated. -/
def named : DatumName := { stroke := 0, member := 0, unit := 3, epoch := 0, slot := 4 }
def act : Action :=
  { id := 1, work := .decode, plate := 9, unit := 3, start := 0, due := 0, inputs := [], reads := [], steps := [], outputs := [], stores := [], checked := [], sends := false
    trigger := none, exch := none, twin := false, running := false, consumed := [], poisoned := false }
def acting (a : Action) (l : List Datum) : State :=
  { decoding stepping with prs := { live.prs with actions := [a], data := l }
                           pla := { (decoding stepping).pla with grants := [⟨.decode, 3, true, []⟩] } }

/-- Inputs that meet the hypotheses of ActionsRun, clause by clause. -/
theorem witness_actionsRun :
    (∃ (s : State) (a : Nat) (bad : List MemFail) (x : Action), s.prs.actions.find? (fun y => y.id == a) = some x ∧ mayStart s x = true ∧
      (x.inputs.filterMap (datumAt s x)).all (fun d => !d.poison) = true ∧ (actionReads bad x x.reads s).2.1 = false) ∧
    (∃ (s : State) (a : Nat) (x : Action), s.prs.actions.find? (fun y => y.id == a) = some x ∧ x.running = true ∧ x.sends = false ∧ x.trigger = none ∧
      x.exch = none ∧ (x.outputs.map (fun o => { o.1 with stroke := 0 })).Nodup ∧ (∀ o ∈ x.outputs, datumAt s x
      { o.1 with stroke := sessionStroke s x.work } = none)) ∧
    (∃ (s : State) (a : Nat) (x : Action) (o : DatumName × Nat × Nat), s.prs.actions.find? (fun y => y.id == a) = some x ∧ x.running = true ∧ x.sends =
      false ∧ x.exch = none ∧ o ∈ x.outputs ∧ (datumAt s x { o.1 with stroke := sessionStroke s x.work }).isSome = true) :=
  ⟨⟨acting { act with inputs := [named] } [{ name := named, bytes := [1], poison := false, readers := 2, work := .decode }], 1, [], { act with inputs := [named] }, by decide +kernel⟩,
   ⟨acting { act with running := true, outputs := [(named, 2, 0)] } [], 1, { act with running := true, outputs := [(named, 2, 0)] }, by decide +kernel⟩,
   ⟨acting { act with running := true, outputs := [(named, 2, 0)] } [{ name := named, bytes := [1], poison := false, readers := 2, work := .decode }], 1, { act with running := true, outputs := [(named, 2, 0)] }, (named, 2, 0), by decide +kernel⟩⟩

/-- A session whose step commits at stroke 10, with the actions of `acting`; and one in which the halves of a twin session disagree. -/
def later : Session := { stepping with lastAt := 10 }
def pressing : State := { acting { act with due := 5 } [] with dec := some later }
def parted : State :=
  { pressing with prs := { pressing.prs with checks := [{ work := .decode, action := 1, second := false, due := 0, unit := 3, slot := 4, bytes := [1] }] } }

/-- Inputs that meet the hypotheses of PressAdvances, clause by clause. -/
theorem witness_pressAdvances :
    (∃ (s : State), s.rst.railsOn = true ∧ s.rst.inReset = false ∧ s.rst.optLoad = false ∧ decodeHolds s = false ∧ participants s ≠ [] ∧ (∀ d ∈
      participants s, unretired s d = false) ∧ twinDiffers s = [] ∧ (guardSet s = true → somethingOpen s = true) ∧ exhausted s = false) ∧
    (∃ (s : State) (d : Session), s.rst.railsOn = true ∧ s.rst.inReset = false ∧ s.rst.optLoad = false ∧ decodeHolds s = false ∧ participants s ≠ [] ∧ (∀
      n ∈ participants s, unretired s n = false) ∧ twinDiffers s = [.decode] ∧ s.dec = some d ∧ d.twinRetry = false) ∧
    (∃ (s : State), s.rst.railsOn = true ∧ s.rst.inReset = false ∧ s.rst.optLoad = false ∧ decodeHolds s = false ∧ participants s = [] ∧ twinDiffers s =
      [] ∧ (guardSet s = true → somethingOpen s = true) ∧ exhausted s = false) ∧
    (∃ (s : State), s.rst.railsOn = true ∧ s.rst.inReset = false ∧ s.rst.optLoad = false ∧ decodeHolds s = false ∧ participants s = [] ∧ twinDiffers s =
      [] ∧ guardSet s = true ∧ somethingOpen s = false) :=
  ⟨⟨pressing, by decide +kernel⟩,
   ⟨parted, later, by decide +kernel⟩,
   ⟨live, by decide +kernel⟩,
   ⟨{ live with prs := { live.prs with stroke := 2 ^ 47 } }, by decide +kernel⟩⟩

/-- A load of plate 9 runs. -/
def swap9 : Swap := { work := .decode, plate := 9, mask := 1, stroke := 9, start := 0, loading := true, loaded := false }
def swapping : State := { decoding stepping with pla := { (decoding stepping).pla with store := [plate1], swaps := [swap9] } }

/-- Inputs that meet the hypotheses of StallsAndLoads, clause by clause. -/
theorem witness_stallsAndLoads :
    (∃ (s : State) (d : Nat) (ds : List Nat), (participants s).filter (unretired s) = d :: ds ∧ (d :: ds).all (remoteWait s) = false) ∧
    (∃ (s : State) (plate : Nat) (x : Swap), s.pla.swaps.find? (fun y => y.plate == plate && y.loading && !y.loaded) = some x ∧ (readPlate plate [] s).1 =
      false) ∧
    (∃ (s : State) (plate : Nat) (bad : List MemFail) (x : Swap), s.pla.swaps.find? (fun y => y.plate == plate && y.loading && !y.loaded) = some x ∧
      (readPlate plate bad s).1 = true) :=
  ⟨⟨acting act [], 3, [], by decide +kernel⟩,
   ⟨swapping, 9, swap9, by decide +kernel⟩,
   ⟨swapping, 9, [.check (plateStart swapping 9)], swap9, by decide +kernel⟩⟩

/-- What forms a ring of two modules, this one first. -/
def forming (me : Bytes) : Bytes := pay [(8, 5), (1, 2), (1, 0), (1, 1), (1, 0), (2, 4), (2, 0)] ++ (me ++ (peer me ++ zeros 1920))
where peer (me : Bytes) : Bytes := if leBytes 64 1 = me then leBytes 64 2 else leBytes 64 1
theorem forming_good (s : State) (h : allZero (identityDigest s) = false) (n : (identityDigest s).length = 64) :
    formBad s (forming (identityDigest s)) = false := by
  generalize hD : identityDigest s = D at *
  have np : (forming.peer D).length = 64 := by unfold forming.peer; split <;> exact leBytes_length _ _
  have zp : allZero (forming.peer D) = false := by unfold forming.peer; split <;> decide
  have ne : D ≠ forming.peer D := by
    unfold forming.peer; split
    · rename_i e; subst e; decide
    · exact fun e => ‹¬_› e.symm
  have l : (forming D).length = 2064 := by simp only [forming, List.length_append, n, np, zeros_length]; rfl
  have m0 : memberId (forming D) 0 = D := slice_mid _ D _ 16 64 (by decide) n
  have m1 : memberId (forming D) 1 = forming.peer D := by
    rw [forming, ← List.append_assoc]
    exact slice_mid _ _ _ 80 64 (by rw [List.length_append, n]; decide) np
  have f8 : field (forming D) 8 1 = 2 := rfl
  have f9 : field (forming D) 9 1 = 0 := rfl
  have rest : zeroAt (forming D) 144 1920 = true := by
    rw [forming, ← List.append_assoc, ← List.append_assoc, zeroAt,
      show ((pay [(8, 5), (1, 2), (1, 0), (1, 1), (1, 0), (2, 4), (2, 0)] ++ D) ++ forming.peer D) ++ zeros 1920 = _ ++ (zeros 1920 ++ []) by rw [List.append_nil],
      slice_mid _ _ _ 144 1920 (by simp only [List.length_append, n, np]; rfl) (zeros_length _)]
    exact zeros_zero _
  simp only [formBad, f8, f9, l, hD, m0, rest, show (List.range 2) = [0, 1] from rfl, List.map, m1, List.any, h, zp, noDup, show field (forming D) 0 4 = 5 from rfl,
    show field (forming D) 0xA 1 = 1 from rfl, show field (forming D) 0xC 2 = 4 from rfl, show zeroAt (forming D) 0xB 1 = true from rfl, show zeroAt (forming D) 0xE 2 = true from rfl]
  simp [ne]
theorem formed_ok (h : allZero (sha512 []) = false) : ∃ (s : State) (mb : MbId) (j : Job) (x : Instr × Nat × Bool),
    x ∈ [(Instr.ringForm mb, 0x0601, false), (Instr.ringSpareJoin mb, 0x0610, true)] ∧ Begun s mb x.2.1 j ∧ formBad s j.payload = false ∧
    formBusy s (field j.payload 8 1) = false :=
  ⟨on 0x0601 (forming (sha512 [])) live, 0, job 0x0601 (forming (sha512 [])), (Instr.ringForm 0, 0x0601, false), List.mem_cons_self .., ⟨rfl, rfl⟩,
   forming_good _ h (sha512_length _), by decide +kernel⟩
/-- A ring of three modules that is up, and a state in which ring ports hold it. -/
def trio : Ring := setRoutes
  { id := 5, count := 3, index := 0, rate := 1, blocks := 4, ids := [[1], [2], [3]], params := [], ports := [0, 1], state := 2, epoch := 0
    alive := 7, former := none, spare := false, holders := [0, 1, 2], mirrors := [], suspects := [], lostLinks := [], routes := []
    admitted := [], joining := none, handing := false, answered := false, mask := 7, frames := [], digests := [], failedMir := [], progress := [] }
def linked : Port := { mode := 2, up := true, keyed := true }
def around (r : Ring) (p : Port) : State := { live with ring := some r, ports := ⟨p, p, p, p, p⟩ }

/-- Inputs that meet the hypotheses of RingCommands, clause by clause. -/
theorem witness_ringCommands :
    (∃ (s : State) (mb : MbId) (j : Job), ∃ x, x ∈ [(Instr.ringForm mb, 0x0601, false), (Instr.ringSpareJoin mb, 0x0610, true)] ∧ Begun s mb x.2.1 j ∧
      formBad s j.payload = false ∧ formBusy s (field j.payload 8 1) = false) ∧
    (∃ (s : State) (mb : MbId) (r : Ring) (o : Nat) (j : Job), s.ring = some r ∧ r.state = 1 ∧ r.former = some (mb.val, o) ∧ jobAt s o = some j) ∧
    (∃ (s : State) (mb : MbId) (j : Job) (r : Ring), Begun s mb 0x0602 j ∧ j.payload.length = 8 ∧ field j.payload 4 4 = 0 ∧ s.ring = some r ∧ r.id % 2 ^
      32 = field j.payload 0 4) ∧
    (∃ (s : State) (mb : MbId) (j : Job) (r : Ring), Begun s mb 0x0603 j ∧ j.payload.length = 8 ∧ field j.payload 4 4 = 0 ∧ s.ring = some r ∧ r.id % 2 ^
      32 = field j.payload 0 4 ∧ s.dec.all (fun d => d.ring == 0) = true) ∧
    (∃ (s : State) (mb : MbId) (j : Job) (r : Ring), Begun s mb 0x0611 j ∧ j.payload.length = 72 ∧ zeroAt j.payload 5 3 = true ∧ s.ring = some r ∧ r.id %
      2 ^ 32 = field j.payload 0 4 ∧ (∀ p ∈ r.ports, p < 5) ∧
      (let i := field j.payload 4 1
      
      (let id := slice j.payload 8 64
      i < r.count ∧ r.alive.getLsbD i = false ∧ r.state ≠ 3 ∧ (∀ k ∈ membersOf r.alive, expectedId r k ≠ id)))) :=
  ⟨formed_ok (by decide +kernel),
   ⟨on 0x0601 [] (around { trio with state := 1, former := some (0, 0) } linked), 0, { trio with state := 1, former := some (0, 0) }, 0, job 0x0601 [], by decide +kernel⟩,
   ⟨on 0x0602 (pay [(8, 5)]) (around trio linked), 0, job 0x0602 (pay [(8, 5)]), trio, by decide +kernel⟩,
   ⟨on 0x0603 (pay [(8, 5)]) (around trio linked), 0, job 0x0603 (pay [(8, 5)]), trio, by decide +kernel⟩,
   ⟨on 0x0611 (pay [(4, 5), (4, 2), (64, 9)]) (around { trio with alive := 3 } linked), 0, job 0x0611 (pay [(4, 5), (4, 2), (64, 9)]), { trio with alive := 3 }, by decide +kernel⟩⟩

/-- A datum frame to this module, and a port that has frames in its replay buffer. -/
def frame1 : RingFrame :=
  { type := 1, dest := 0, src := 1, hopsLeft := 1, linkId := 0, frameCtr := 0, name := named, datumLen := 2, offset := 0, payload := [1, 2]
    tagOk := true, bad := [] }
def sent (p : Port) : State := { around trio p with dec := some stepping }
/-- The ring channel of port 0 has no room. -/
def crammed : State := { sent linked with buf := { live.buf with shares := mod5 live.buf.shares 0 (fun h => { h with cells := 10 ^ 9 }) } }

/-- Inputs that meet the hypotheses of RingFrames, clause by clause. -/
theorem witness_ringFrames :
    (∃ (s : State) (port : PortId) (f : RingFrame) (r : Ring), s.ring = some r ∧ ringLive s port.val = true ∧ frameFits f = true ∧ firstOfKey (get5
      s.ports port.val) f = false ∧
      (let p := get5 s.ports port.val
      (f.tagOk = false ∨ f.linkId ≠ p.rxId) ∧ shareFull s port.val f r = false)) ∧
    (∃ (s : State) (port : PortId) (f : RingFrame) (r : Ring), s.ring = some r ∧ ringLive s port.val = true ∧ frameFits f = true ∧ firstOfKey (get5
      s.ports port.val) f = false ∧
      (let p := get5 s.ports port.val
      (f.tagOk = false ∨ (f.linkId = p.rxId ∧ f.frameCtr = p.rxNext)) ∧ shareFull s port.val f r = true)) ∧
    (∃ (s : State) (port : PortId) (f : RingFrame) (r : Ring), s.ring = some r ∧ ringLive s port.val = true ∧ frameFits f = true ∧ firstOfKey (get5
      s.ports port.val) f = false ∧
      (let p := get5 s.ports port.val
      f.tagOk = true ∧ f.linkId = p.rxId ∧ p.rxNext < f.frameCtr)) ∧
    (∃ (s : State) (port : PortId) (f : RingFrame) (r : Ring), s.ring = some r ∧ ringLive s port.val = true ∧ frameFits f = true ∧ firstOfKey (get5
      s.ports port.val) f = false ∧
      (let p := get5 s.ports port.val
      f.tagOk = true ∧ f.linkId = p.rxId ∧ f.frameCtr < p.rxNext)) ∧
    (∃ (s : State) (port : PortId) (f : RingFrame) (r : Ring), s.ring = some r ∧ ringLive s port.val = true ∧ frameFits f = true ∧ firstOfKey (get5
      s.ports port.val) f = false ∧
      (let p := get5 s.ports port.val
      f.tagOk = true ∧ f.linkId = p.rxId ∧ f.frameCtr = p.rxNext ∧ f.dest = r.index ∧ f.type = 1 ∧ s.dec.isSome = true ∧ f.name.epoch = r.epoch ∧
      isDuplicate s f = false ∧ shareFull s port.val f r = false ∧ f.offset = 0 ∧ f.datumLen = f.payload.length ∧ fragments s f.name = [] ∧
      (p.hs.phase ≠ 0 ∨ initiates port.val = false ∨ p.rxNext + 1 ≠ 2 ^ 40))) ∧
    (∃ (s : State) (port : PortId) (d : Delimiter), ringLive s port.val = true ∧ d.nak = false ∧ (get5 s.ports port.val).ringQ = []) ∧
    (∃ (s : State) (port : PortId), ringLive s port.val = true ∧ (get5 s.ports port.val).replay ≠ [] ∧
      (let p := get5 s.ports port.val
      p.xoffIn = false ∧ p.resends.headD 0 < 7)) ∧
    (∃ (s : State) (port : PortId), ringLive s port.val = true ∧ (get5 s.ports port.val).replay ≠ [] ∧
      (let p := get5 s.ports port.val
      p.xoffIn = false ∧ 7 ≤ p.resends.headD 0)) ∧
    (∃ (s : State) (port : PortId), ringLive s port.val = true ∧ (get5 s.ports port.val).replay ≠ [] ∧
      (let p := get5 s.ports port.val
      p.replay.takeWhile (fun f => !(p.xoffIn && (f.type == 1 || f.type == 3))) = [])) ∧
    (∃ (s : State) (port : PortId), (get5 s.ports port.val).mode = 2 ∧ (get5 s.ports port.val).up = true ∧ (∀ f ∈ (get5 s.ports port.val).ringQ, canSend s
      port.val f.type f.payload.length = false)) ∧
    (∃ (s : State) (port : PortId) (r : Ring), s.ring = some r ∧ ringLive s port.val = true ∧ canSend s port.val 4 10 = true ∧ (get5 s.ports
      port.val).txCtr + 1 ≠ 2 ^ 40 ∧ (get5 s.ports port.val).txCtr + 1 ≠ 2 ^ 41) ∧
    (∃ (s : State) (port : PortId) (r : Ring), s.ring = some r ∧ ringLive s port.val = true) :=
  ⟨⟨sent linked, 0, { frame1 with tagOk := false }, trio, by decide +kernel⟩,
   ⟨crammed, 0, frame1, trio, by decide +kernel⟩,
   ⟨sent linked, 0, { frame1 with frameCtr := 1 }, trio, by decide +kernel⟩,
   ⟨sent { linked with rxNext := 1 }, 0, frame1, trio, by decide +kernel⟩,
   ⟨sent linked, 0, frame1, trio, by decide +kernel⟩,
   ⟨sent { linked with replay := [frame1] }, 0, { ack := 0, keyNext := false, nak := false, xoff := false, frame := false }, by decide +kernel⟩,
   ⟨sent { linked with replay := [frame1] }, 0, by decide +kernel⟩,
   ⟨sent { linked with replay := [frame1], resends := [7] }, 0, by decide +kernel⟩,
   ⟨sent { linked with replay := [frame1], xoffIn := true }, 0, by decide +kernel⟩,
   ⟨sent linked, 0, by decide +kernel⟩,
   ⟨sent linked, 0, trio, by decide +kernel⟩,
   ⟨sent linked, 0, trio, by decide +kernel⟩⟩

/-- A session of the ring between its steps, and a state in which it runs. -/
def mate : Session := { stepping with ring := 5, memberCnt := 3, pendStep := none }
def opener : Session := { mate with opensSeen := false }
def running (r : Ring) (d : Session) : State := { around r linked with dec := some d }
/-- A ring of six. -/
def six : Ring := { trio with count := 6, alive := 63, mask := 63, ports := [0, 1, 2, 3], holders := [0, 1, 2, 3, 4, 5] }
/-- The digest that member `i` sends. -/
def ballot (s : State) (d : Session) (i : Nat) (v : BitVec 64) : Datum :=
  { name := digestName i 0 (digestStroke s d.invoked false), bytes := bvBytes 8 v, poison := false, readers := 0, work := .decode }
def verdict : BitVec 64 := stepDigest mate stepDone
def voter : Session := { mate with pendStep := some { stepDone with voted := false, digest := some verdict } }
def ballots (v w : BitVec 64) : State :=
  let s := running trio voter
  { s with prs := { s.prs with data := [ballot s voter 1 v, ballot s voter 2 w] } }
def view (src : Nat) (alive : BitVec 32) : ViewFrame := { src := src, epoch := 1, alive := alive, lastStep := 0, digests := [] }
def mirrored : Ring := { trio with mirrors := [⟨8, 4, [2], 0, true⟩], state := 3, mask := 3 }
/-- The members hand stretches of the member before a spare over to it, and member 2 has agreed. -/
def handed : Ring := { trio with joining := some 1, handing := true, frames := [view 2 7] }
theorem both (p : Nat → Bool) (h : p 1 = true ∧ p 2 = true) : ∀ i ∈ others trio, p i = true := by
  rw [show others trio = [1, 2] by decide]
  simp [h.1, h.2]

/-- Inputs that meet the hypotheses of RecoveryOfRings, clause by clause. -/
theorem witness_recoveryOfRings :
    (∃ (s : State) (port : PortId) (member : Nat) (r : Ring) (d : Session), s.ring = some r ∧ s.dec = some d ∧ d.ring ≠ 0 ∧ d.state ≠ 6 ∧ d.state ≠ 5 ∧
      r.state = 2 ∧ r.ports = ringPorts r.count ∧ port.val ∈ r.ports ∧ facing r port.val = member ∧ member ≠ r.index ∧
      (let c := cableAt r.count r.index port.val
      c ∉ r.lostLinks ∧ r.alive.getLsbD r.index = true ∧ r.alive.getLsbD member = true ∧ 2 < popcount r.alive ∧ r.suspects = [] ∧ r.frames = [])) ∧
    (∃ (s : State) (member : Nat) (r : Ring) (d : Session), s.ring = some r ∧ s.dec = some d ∧ d.ring ≠ 0 ∧ d.state ≠ 6 ∧ r.state = 2 ∧ member ≠ r.index ∧
      waitsFor s member = true ∧ r.alive.getLsbD r.index = true ∧ r.alive.getLsbD member = true ∧ 2 < popcount r.alive ∧ r.suspects = [] ∧
      (let cables := (cablesOf r r.index member).filter (fun c => !r.lostLinks.contains c)
      cables.length ≠ 1)) ∧
    (∃ (s : State) (member : Nat) (r : Ring) (d : Session), ∃ c, s.ring = some r ∧ s.dec = some d ∧ d.ring ≠ 0 ∧ d.state ≠ 6 ∧ r.state = 2 ∧ member ≠
      r.index ∧ waitsFor s member = true ∧ r.alive.getLsbD r.index = true ∧ r.alive.getLsbD member = true ∧ 2 < popcount r.alive ∧ r.suspects = [] ∧
      (let cables := (cablesOf r r.index member).filter (fun c => !r.lostLinks.contains c)
      cables = [c] ∧ d.state ≠ 5 ∧ r.frames = [])) ∧
    (∃ (s : State) (src k member : Nat) (r : Ring) (d : Session), s.ring = some r ∧ s.dec = some d ∧ d.ring ≠ 0 ∧ d.state ≠ 6 ∧ d.state ≠ 5 ∧ r.state = 2
      ∧ src ≠ r.index ∧ member ≠ r.index ∧ k ≠ src ∧ src ≠ member ∧ r.alive.getLsbD src = true ∧ r.alive.getLsbD k = true ∧ r.alive.getLsbD member =
      true ∧ r.suspects = [(k, member)] ∧ r.joining = none ∧ r.frames = [] ∧ 2 < popcount r.alive) ∧
    (∃ (s : State) (c : Instr) (member : Nat) (r : Ring) (d : Session), s.ring = some r ∧ s.dec = some d ∧ d.ring ≠ 0 ∧ d.state ≠ 6 ∧ d.state ≠ 5 ∧ (c =
      .selfReportReceive member ∨ (c = .openJoinTimeout member ∧ d.opensSeen = false)) ∧ r.state = 2 ∧ member ≠ r.index ∧ r.alive.getLsbD member =
      true ∧ r.joining = none ∧ r.frames = [] ∧ 2 < popcount r.alive) ∧
    (∃ (s : State) (v : ViewFrame) (r : Ring) (d : Session), s.ring = some r ∧ s.dec = some d ∧ d.ring ≠ 0 ∧ d.state ≠ 6 ∧ r.spare = false ∧ v.src ≠
      r.index ∧ v.epoch = (r.epoch + 1) % 256 ∧ v.alive &&& ~~~r.alive = 0 ∧ r.state = 2 ∧ r.frames = [] ∧ 2 < popcount (r.alive &&& v.alive) ∧
      (r.joining = none ∨ r.alive &&& v.alive ≠ r.alive)) ∧
    (∃ (s : State) (v : ViewFrame) (r : Ring) (d : Session), s.ring = some r ∧ s.dec = some d ∧ d.ring ≠ 0 ∧ d.state ≠ 6 ∧ r.spare = false ∧ v.src ≠
      r.index ∧ v.epoch = (r.epoch + 1) % 256 ∧ v.alive &&& ~~~r.alive = 0 ∧ r.state = 3 ∧ v.alive = r.mask ∧ (∀ i ∈ membersOf r.mask, i = r.index ∨ i
      = v.src ∨ r.frames.any (fun x => x.src == i && x.alive == r.mask && x.epoch == (r.epoch + 1) % 256) = true) ∧ r.mask.getLsbD r.index = true ∧
      popcount r.alive < 2 * popcount r.mask ∧ d.pendStep = none ∧ (∀ k < r.count, (newHolder r d r.mask k).isSome = true) ∧ s.mem.poison = []) ∧
    (∃ (s : State) (r : Ring) (d : Session), s.ring = some r ∧ s.dec = some d ∧ d.ring ≠ 0 ∧ d.state ≠ 6 ∧ r.state = 3) ∧
    (∃ (s : State) (r : Ring) (d : Session) (p : PendingStep), s.ring = some r ∧ s.dec = some d ∧ d.ring ≠ 0 ∧ d.pendStep = some p ∧ p.voted = false ∧
      d.state ≠ 5 ∧ d.state ≠ 6 ∧ r.state = 2 ∧ (heldDigests s d p r).length = popcount r.alive ∧ (∀ x ∈ digestData s d p r, x.2.poison = false) ∧ (∀
      x ∈ heldDigests s d p r, p.digest = some x.2)) ∧
    (∃ (s : State) (r : Ring) (d : Session) (p : PendingStep), ∃ x, s.ring = some r ∧ s.dec = some d ∧ d.ring ≠ 0 ∧ d.pendStep = some p ∧ p.voted = false
      ∧ d.state ≠ 5 ∧ d.state ≠ 6 ∧ r.state = 2 ∧ (heldDigests s d p r).length = popcount r.alive ∧ (∀ x ∈ digestData s d p r, x.2.poison = false) ∧
      (heldDigests s d p r).find? (fun x => decide (popcount r.alive < 2 * holdersOf (heldDigests s d p r) x.2)) = some x ∧ 2 < popcount r.alive ∧
      (let gone := ((heldDigests s d p r).filter (fun y => y.2 != x.2)).map (·.1)
      p.digest = some x.2 ∧ gone ≠ [] ∧ r.index ∉ gone ∧ r.joining = none ∧ r.frames = [] ∧ 1 < popcount (gone.foldl clearBit r.alive))) ∧
    (∃ (s : State) (r : Ring) (d : Session) (digests : List (Nat × Bytes)), s.ring = some r ∧ s.dec = some d ∧ d.ring ≠ 0 ∧ d.state ≠ 6 ∧ d.opensSeen =
      false ∧ (∀ i ∈ others r, digests.any (fun x => x.1 == i) = true) ∧ (∀ i ∈ others r, digests.any (fun x => x.1 == i && x.2 == sha512 d.openBytes)
      = true)) ∧
    (∃ (s : State) (r : Ring) (d : Session) (digests : List (Nat × Bytes)), ∃ i, s.ring = some r ∧ s.dec = some d ∧ d.ring ≠ 0 ∧ d.state ≠ 6 ∧ d.opensSeen
      = false ∧ (∀ i ∈ others r, digests.any (fun x => x.1 == i) = true) ∧ i ∈ others r ∧ digests.any (fun x => x.1 == i && x.2 == sha512 d.openBytes)
      = false) ∧
    (∃ (s : State) (first count : Nat) (r : Ring) (d : Session) (m : Mirror), s.ring = some r ∧ s.dec = some d ∧ d.ring ≠ 0 ∧ r.mirrors.find? (fun m =>
      m.first == first && m.count == count && !m.done) = some m ∧ joinedSpare d m.holder = false) ∧
    (∃ (s : State) (index : Nat) (r : Ring) (d : Session), s.ring = some r ∧ s.dec = some d ∧ d.ring ≠ 0 ∧ d.state ≠ 6 ∧ r.joining = some index ∧ r.state
      = 2 ∧ r.handing = false ∧ r.alive.getLsbD index = true ∧ r.spare = false ∧ r.frames = [] ∧ 2 < popcount r.alive) ∧
    (∃ (s : State) (v : ViewFrame) (index : Nat) (r : Ring) (d : Session), s.ring = some r ∧ s.dec = some d ∧ d.ring ≠ 0 ∧ d.state ≠ 6 ∧ r.spare = false ∧
      r.state = 2 ∧ r.joining = some index ∧ r.handing = true ∧ r.mask = r.alive ∧ v.src ≠ r.index ∧ v.epoch = (r.epoch + 1) % 256 ∧ v.alive = r.alive
      ∧ (∀ i ∈ membersOf r.alive, i = r.index ∨ i = v.src ∨ r.frames.any (fun x => x.src == i && x.alive == r.alive && x.epoch == (r.epoch + 1) % 256)
      = true) ∧ atBoundary s = true ∧ s.mem.poison = []) :=
  ⟨⟨running trio mate, 0, 1, trio, mate, by decide +kernel⟩,
   ⟨{ running six mate with prs := { live.prs with actions := [{ act with inputs := [{ named with member := 3 }] }] } }, 3, six, mate, by decide +kernel⟩,
   ⟨{ running trio mate with prs := { live.prs with actions := [{ act with inputs := [{ named with member := 1 }] }] } }, 1, trio, mate, 0, by decide +kernel⟩,
   ⟨running { trio with suspects := [(0, 2)] } mate, 1, 0, 2, { trio with suspects := [(0, 2)] }, mate, by decide +kernel⟩,
   ⟨running trio mate, Instr.selfReportReceive 1, 1, trio, mate, by decide +kernel⟩,
   ⟨running trio mate, view 1 7, trio, mate, by decide +kernel⟩,
   ⟨running mirrored mate, view 1 3, mirrored, mate, by decide +kernel⟩,
   ⟨running { trio with state := 3 } mate, { trio with state := 3 }, mate, by decide +kernel⟩,
   ⟨ballots verdict verdict, trio, voter, { stepDone with voted := false, digest := some verdict }, by decide +kernel⟩,
   ⟨ballots verdict 0, trio, voter, { stepDone with voted := false, digest := some verdict }, (0, verdict), by decide +kernel⟩,
   ⟨running trio opener, trio, opener, [(1, sha512 opener.openBytes), (2, sha512 opener.openBytes)], rfl, rfl, by decide +kernel, by decide +kernel,
    by decide +kernel, both _ (by decide +kernel), both _ (by simp)⟩,
   ⟨running trio opener, trio, opener, [(1, []), (2, [])], 1, ⟨rfl, rfl, by decide +kernel, by decide +kernel, by decide +kernel, both _ (by decide +kernel), by decide +kernel, by decide +kernel⟩⟩,
   ⟨running { trio with mirrors := [⟨0, 4, [0], 0, false⟩] } mate, 0, 4, { trio with mirrors := [⟨0, 4, [0], 0, false⟩] }, mate, ⟨0, 4, [0], 0, false⟩, by decide +kernel⟩,
   ⟨running { trio with joining := some 1 } mate, 1, { trio with joining := some 1 }, mate, by decide +kernel⟩,
   ⟨running handed mate, { view 1 7 with lastStep := 0 }, 1, handed, mate, by decide +kernel⟩⟩

/-- A message of the neighbour at port 1 of the ring of three. -/
def hand : Handshake := { sigOk := true, decapOk := true, identity := [3], ringDigest := [], kem := [], nonce := [], chain := [], sig := [] }
def keying (phase : Nat) : State := around trio { linked with keyed := false, hs := { phase := phase } }
def rekeying (phase : Nat) : State := around trio { linked with hs := { phase := phase } }

/-- Inputs that meet the hypotheses of Handshakes, clause by clause. -/
theorem witness_handshakes :
    (∃ (s : State) (port : PortId) (h : Handshake) (r : Ring), s.ring = some r ∧ r.state ≠ 1 ∧ (get5 s.ports port.val).mode = 2 ∧ (get5 s.ports
      port.val).up = true ∧ (get5 s.ports port.val).keyed = false ∧ (get5 s.ports port.val).ringQ = [] ∧ initiates port.val = false ∧ drbgGrants 3 3 s
      = true ∧ h.sigOk = true ∧ h.decapOk = true ∧ h.identity = expectedId r (facing r port.val)) ∧
    (idsBad (hsKeys (bvBytes 32 (Config.mlkemDecaps [] [])) (hsBytes false hand)) = false → ∃ (s : State) (port : PortId) (h : Handshake) (r : Ring),
      s.ring = some r ∧ r.state ≠ 1 ∧ (get5 s.ports port.val).mode = 2 ∧ (get5 s.ports port.val).up = true ∧ (get5 s.ports port.val).keyed = false ∧
      (get5 s.ports port.val).ringQ = [] ∧ (get5 s.ports port.val).hs.phase = 1 ∧ h.sigOk = true ∧ h.decapOk = true ∧ h.identity = expectedId r
      (facing r port.val) ∧
      (let hs := (get5 s.ports port.val).hs
      
      (let k := hsKeys (bvBytes 32 (Config.mlkemDecaps hs.dk h.kem)) (hs.sentInit ++ hsBytes false h)
      idsBad k = false))) ∧
    (∃ (s : State) (port : PortId) (h : Handshake) (r : Ring) (c : Instr), s.ring = some r ∧ r.state ≠ 1 ∧ (get5 s.ports port.val).mode = 2 ∧ (get5
      s.ports port.val).up = true ∧ (get5 s.ports port.val).keyed = false ∧ ((c = .ringHandshakeInitReceive port h ∧ initiates port.val = false) ∨ (c
      = .ringHandshakeResponseReceive port h ∧ (get5 s.ports port.val).hs.phase = 1)) ∧ (h.sigOk = false ∨ h.decapOk = false ∨ h.identity ≠ expectedId
      r (facing r port.val))) ∧
    (∃ (s : State) (port : PortId), (get5 s.ports port.val).mode = 2 ∧ (get5 s.ports port.val).up = true ∧ (get5 s.ports port.val).keyed = true ∧ (get5
      s.ports port.val).hs.phase = 2 ∧ (get5 s.ports port.val).replay = [] ∧ (get5 s.ports port.val).ringQ = []) ∧
    (∃ (s : State) (port : PortId) (mb : MbId) (j : Job), Begun s mb 0x0905 j ∧ j.payload.length = 8 ∧ field j.payload 0 1 = port.val ∧ zeroAt j.payload 1
      7 = true ∧ (get5 s.ports port.val).mode = 2 ∧ (get5 s.ports port.val).keyed = true ∧ (get5 s.ports port.val).hs.phase = 0 ∧ initiates port.val =
      false) ∧
    (∃ (s : State) (port : PortId) (r : Ring), s.ring = some r ∧ (get5 s.ports port.val).mode = 2 ∧ (get5 s.ports port.val).keyed = true ∧ initiates
      port.val = true ∧ drbgReady 3 s = true ∧ (get5 s.ports port.val).up = true ∧ ((get5 s.ports port.val).hs.phase = 4 ∨ (get5 s.ports
      port.val).hs.phase = 1)) ∧
    (∃ (s : State) (port : PortId) (r : Ring), s.ring = some r ∧ (get5 s.ports port.val).mode = 2 ∧ (get5 s.ports port.val).keyed = true ∧ initiates
      port.val = true ∧ drbgReady 3 s = true ∧ (get5 s.ports port.val).up = true ∧ (get5 s.ports port.val).ringQ = [] ∧ (get5 s.ports
      port.val).hs.phase = 0 ∧ r.state ≠ 1) ∧
    (∃ (s : State) (port : PortId) (r : Ring) (mb : MbId) (j : Job), s.ring = some r ∧ (get5 s.ports port.val).mode = 2 ∧ (get5 s.ports port.val).keyed =
      true ∧ initiates port.val = true ∧ drbgReady 3 s = true ∧ Begun s mb 0x0905 j ∧ j.payload.length = 8 ∧ field j.payload 0 1 = port.val ∧ zeroAt
      j.payload 1 7 = true ∧ (get5 s.ports port.val).hs.phase = 0) :=
  ⟨⟨keying 0, 1, hand, trio, by decide +kernel⟩,
   fun h => ⟨keying 1, 1, hand, trio, rfl, by decide, rfl, rfl, rfl, rfl, rfl, rfl, rfl, rfl, h⟩,
   ⟨keying 0, 1, { hand with sigOk := false }, trio, Instr.ringHandshakeInitReceive 1 { hand with sigOk := false }, by decide +kernel⟩,
   ⟨rekeying 2, 1, by decide +kernel⟩,
   ⟨on 0x0905 (1 :: zeros 7) (rekeying 0), 1, 0, job 0x0905 (1 :: zeros 7), by decide +kernel⟩,
   ⟨rekeying 4, 0, trio, by decide +kernel⟩,
   ⟨rekeying 0, 0, trio, by decide +kernel⟩,
   ⟨on 0x0905 (zeros 8) (rekeying 0), 0, trio, 0, job 0x0905 (zeros 8), by decide +kernel⟩⟩

/-- What opens a round of 32 elements in slices of 16, for four clients. -/
def opensRound : Bytes :=
  pay [(8, 7), (1, 1), (1, 1), (1, 0), (1, 0), (4, 0), (8, 32), (4, 16), (4, 4), (4, 2), (4, 0), (24, 0)]
def rounded (r : Round) : State := { live with ptn := { live.ptn with rounds := [r] } }
def closed : Round := { round1 with state := 3 }
/-- A correction entry for slice 0, at 64 KiB. -/
def corrected : State :=
  { rounded closed with mem := { live.mem with cells := cellWrite [] 0x10000 (pay [(32, 5), (4, 0), (4, 1), (1, 0), (7, 0)]) } }
def shut (r : Round) : State :=
  { rounded r with mbx := { live.mbx with jobs := [{ job 0x0702 (pay [(8, 5)]) with phase := 2 }] } }

/-- Inputs that meet the hypotheses of RoundCommands, clause by clause. -/
theorem witness_roundCommands :
    (∃ (s : State) (mb : MbId) (j : Job), Begun s mb 0x0701 j ∧ guardSet s = false ∧ roundOpenBad s j.payload = false ∧ quiesced s 2 = false ∧
      s.ptn.rounds.length < 16 ∧
      (let h := freshHandle (workHandles s ++ s.rdm.windows.map (·.round) ++ s.ptn.staged.map (·.round)) s
      
      (let r := newRound h.2 h.1 j.payload
      
      (let room := roundResources r (BitVec.ofNat 32 (field j.payload 0xC 4)) h.2
      room.isSome = true)))) ∧
    (∃ (s : State) (mb : MbId) (j : Job) (r : Round), j.payload.length = 8 ∧ field j.payload 4 4 = 0 ∧ roundAt s (field j.payload 0 4) = some r ∧ Begun s
      mb 0x0702 j ∧ r.state = 1) ∧
    (∃ (s : State) (mb : MbId) (j : Job) (r : Round), j.payload.length = 8 ∧ field j.payload 4 4 = 0 ∧ roundAt s (field j.payload 0 4) = some r ∧ Begun s
      mb 0x0705 j ∧ r.state ≠ 3) ∧
    (∃ (s : State) (mb : MbId) (j : Job) (r : Round), j.payload.length = 8 ∧ field j.payload 4 4 = 0 ∧ roundAt s (field j.payload 0 4) = some r ∧ Begun s
      mb 0x0705 j ∧ r.state = 3) ∧
    (∃ (s : State) (mb : MbId) (j : Job) (r : Round), j.payload.length = 8 ∧ field j.payload 4 4 = 0 ∧ roundAt s (field j.payload 0 4) = some r ∧ Begun s
      mb 0x0706 j) ∧
    (∃ (s : State) (h m o : Nat) (r : Round) (j : Job), roundAt s h = some r ∧ firmwareRuns s = true ∧ r.state = 2 ∧ r.waiter = some (m, o) ∧ jobAt s o =
      some j ∧ r.aborting = false) ∧
    (∃ (s : State) (h m o : Nat) (r : Round) (j : Job), roundAt s h = some r ∧ firmwareRuns s = true ∧ r.state = 2 ∧ r.waiter = some (m, o) ∧ jobAt s o =
      some j ∧ r.aborting = true) ∧
    (∃ (s : State) (mb : MbId) (j : Job) (r : Round), Begun s mb 0x0703 j ∧ j.payload.length = 24 ∧ field j.payload 4 4 = 0 ∧ field j.payload 20 4 = 0 ∧
      roundAt s (field j.payload 0 4) = some r ∧ r.state = 3 ∧ 1 ≤ field j.payload 16 4 ∧ field j.payload 16 4 ≤ 2 ^ 24 ∧ field j.payload 8 8 < 2 ^
      63) ∧
    (∃ (s : State) (mb : MbId) (j : Job) (r : Round) (bad : List MemFail) (a : Nat), Begun s mb 0x0703 j ∧ j.payload.length = 24 ∧ field j.payload 4 4 = 0
      ∧ field j.payload 20 4 = 0 ∧ roundAt s (field j.payload 0 4) = some r ∧ r.state = 3 ∧ 1 ≤ field j.payload 16 4 ∧ field j.payload 16 4 ≤ 2 ^ 24 ∧
      (let n := 48 * field j.payload 16 4
      field j.payload 8 8 = 2 ^ 63 + a ∧ a < 2 ^ 48 ∧ devOk s a n = true ∧ (checkedRead bad a n s).2.1 = false ∧ jobAt s j.order = some j ∧ j.applied = 0 ∧
      (let es := entriesOf (cellRead s.mem.cells a n)
      (∀ e ∈ es, entryBad r e = false)))) ∧
    (∃ (s : State) (mb : MbId) (j : Job) (r : Round), Begun s mb 0x0704 j ∧ j.payload.length = 24 ∧ field j.payload 4 4 = 0 ∧ roundAt s (field j.payload 0
      4) = some r ∧ r.state = 3 ∧ field j.payload 8 8 < 2 ^ 63 ∧ field j.payload 16 8 < 2 ^ 63 ∧ fnReady s 2 = true ∧ fenced s 2 = false ∧ (∀ i <
      sliceCount r, (readPieces [] (accPieces s r i) s).1 = false)) ∧
    (∃ (s : State) (mb : MbId) (j : Job) (r : Round), j.payload.length = 16 ∧ field j.payload 4 4 = 0 ∧ roundAt s (field j.payload 0 4) = some r ∧ field
      j.payload 8 8 < 2 ^ 63 ∧ fenced s 2 = false ∧ Begun s mb 0x0707 j) ∧
    (∃ (s : State) (mb : MbId) (j : Job) (r : Round), j.payload.length = 16 ∧ field j.payload 4 4 = 0 ∧ roundAt s (field j.payload 0 4) = some r ∧ field
      j.payload 8 8 < 2 ^ 63 ∧ fenced s 2 = false ∧ Begun s mb 0x0708 j ∧ r.state = 3) :=
  ⟨⟨on 0x0701 opensRound live, 0, job 0x0701 opensRound, by decide +kernel, by decide +kernel, by decide +kernel, by decide +kernel,
      by decide +kernel, roundRes_some (newRound (freshHandle [] (on 0x0701 opensRound live)).2 (freshHandle [] (on 0x0701 opensRound live)).1 opensRound) 0
      (freshHandle [] (on 0x0701 opensRound live)).2 200 (by decide +kernel) (by decide +kernel) (by decide +kernel)⟩,
   ⟨on 0x0702 (pay [(8, 5)]) (rounded round1), 0, job 0x0702 (pay [(8, 5)]), round1, by decide +kernel⟩,
   ⟨on 0x0705 (pay [(8, 5)]) (rounded round1), 0, job 0x0705 (pay [(8, 5)]), round1, by decide +kernel⟩,
   ⟨on 0x0705 (pay [(8, 5)]) (rounded closed), 0, job 0x0705 (pay [(8, 5)]), closed, by decide +kernel⟩,
   ⟨on 0x0706 (pay [(8, 5)]) (rounded closed), 0, job 0x0706 (pay [(8, 5)]), closed, by decide +kernel⟩,
   ⟨shut { round1 with state := 2, waiter := some (0, 0) }, 5, 0, 0, { round1 with state := 2, waiter := some (0, 0) }, { job 0x0702 (pay [(8, 5)]) with phase := 2 }, by decide +kernel⟩,
   ⟨shut { round1 with state := 2, waiter := some (0, 0), aborting := true }, 5, 0, 0, { round1 with state := 2, waiter := some (0, 0), aborting := true }, { job 0x0702 (pay [(8, 5)]) with phase := 2 }, by decide +kernel⟩,
   ⟨on 0x0703 (pay [(8, 5), (8, 0x1000), (8, 1)]) (rounded closed), 0, job 0x0703 (pay [(8, 5), (8, 0x1000), (8, 1)]), closed, by decide +kernel⟩,
   ⟨on 0x0703 (pay [(8, 5), (8, 2 ^ 63 + 0x10000), (8, 1)]) (corrected), 0, job 0x0703 (pay [(8, 5), (8, 2 ^ 63 + 0x10000), (8, 1)]), closed, [], 0x10000, by decide +kernel⟩,
   ⟨on 0x0704 (pay [(8, 5), (8, 0x1000), (8, 0x2000)]) (rounded closed), 0, job 0x0704 (pay [(8, 5), (8, 0x1000), (8, 0x2000)]), closed, by decide +kernel⟩,
   ⟨on 0x0707 (pay [(8, 5), (8, 0x1000)]) (rounded closed), 0, job 0x0707 (pay [(8, 5), (8, 0x1000)]), closed, by decide +kernel⟩,
   ⟨on 0x0708 (pay [(8, 5), (8, 0x1000)]) (rounded closed), 0, job 0x0708 (pay [(8, 5), (8, 0x1000)]), closed, by decide +kernel⟩⟩

/-- A keyed network port. -/
def sa0 : Sa := { an := 1, slot := 64, ssci := 0, window := 0, salt := zeros 12, sci := 0, pn := 1 }
def keyedPort : Port := { mode := 1, up := true, rate := 1, txSa := [sa0], rxSa := [sa0] }
/-- A connection, a window that sums into the round, a slice, and the packet that carries it. -/
def conn1 : Conn :=
  { handle := 3, qpn := 2, pd := 0, port := 0, cx := true, relaxed := false, priority := 0, mtu := 5, ackTo := 10, retryCnt := 3, rnrRetry := 3
    minRnr := 1, remoteQpn := 9, sendRing := 0, recvRing := 0, params := [], error := false, sendPsn := 0, expPsn := 0, una := 0, outgoing := []
    incoming := none, order := [], recvs := [], history := [], retries := 0, rnrs := 0, rnrWait := false, cur := 400000, tgt := 400000, alpha := 1
    stage := 0, lastCut := none, lastCnp := none, portRate := 400000, cached := true, used := 0, missQueue := [], dupOld := none }
def sums : Window :=
  { index := 0, gen := 1, summing := true, pd := 0, write := true, read := false, region := 0, offset := 0, len := 4096, round := 5, sizes := [80], trigger := none
    revoking := false }
def slice1 (icv : Nat) : Bytes := pay [(8, 7), (4, 0), (4, 0), (4, 16), (4, 0), (8, icv), (32, 0), (4, 1), (4, 2), (4, 3), (4, 4)]
def icv1 : Nat := (crc64 (sliceFold 7 0 0) (pay [(4, 1), (4, 2), (4, 3), (4, 4)])).toNat
def carried : RocePacket :=
  { port := 0, qpn := 2, psn := 0, op := .write, first := true, last := true, rkey := 1, va := 0, dmaLen := 80, imm := 0, final := false, fails := [], ce := false
    bad := [], data := slice1 icv1 }
def summing (c : Conn) : State := { rounded round1 with rdm := { live.rdm with conns := [c], windows := [sums] } }
def flying : Incoming :=
  { psn := 0, psnEnd := 0, op := .write, opcode := 0, key := 1, va := 0, len := 80, imm := 0, final := false, recv := none, staged := some 0
    done := 80, held := [], fails := [], trigger := none, poison := false, tooLong := false, status := none }
def staged1 (icv : Nat) : Staged := { id := 0, round := 5, conn := 3, bytes := slice1 icv, poison := false, cells := 1, complete := true }
def stagedIn (icv : Nat) : State :=
  { summing { conn1 with order := [flying] } with ptn := { live.ptn with rounds := [round1], staged := [staged1 icv], nextStaged := 1 } }

/-- Inputs that meet the hypotheses of SliceAdmissions, clause by clause. -/
theorem witness_sliceAdmissions :
    (∃ (s : State) (p : RocePacket) (port : Nat) (inCh : Bool) (i : Instr) (c : Conn) (w : Window), ((i = .stagingReserve ∧ s.rdm.waiting =
      [{ port := port, qpn := p.qpn, arrival := .request p, inChannel := inCh }]) ∨ (i = .roceRequestReceive p ∧ s.rdm.waiting = [] ∧ portDelivers s
      p.port.val = true)) ∧ connOf s p.qpn = some c ∧ connAt s c.handle = some c ∧ c.error = false ∧ c.cached = true ∧ p.op = .write ∧ p.first = true
      ∧ p.psn = c.expPsn ∧ p.psn < 2 ^ 24 ∧ c.incoming = none ∧ c.order = [] ∧ packetFits c p 0 p.dmaLen = true ∧ keyCheck s c .write p.rkey p.va
      p.dmaLen = some w ∧ w.summing = true ∧ sliceRefused w p.va p.dmaLen = false ∧ stagingRoom s none p.dmaLen = true ∧ (∀ x ∈ s.ptn.staged, x.id ≠
      s.ptn.nextStaged)) ∧
    (∃ (s : State) (id : Nat) (x : Staged) (c : Conn) (r : Round), s.ptn.staged.find? (fun y => y.id == id) = some x ∧ connAt s x.conn = some c ∧
      sliceTurn c x = true ∧ roundAt s x.round = some r ∧ sliceCheck r x.bytes x.poison = none) ∧
    (∃ (s : State) (id : Nat) (x : Staged) (c : Conn) (r : Round), ∃ st, s.ptn.staged.find? (fun y => y.id == id) = some x ∧ connAt s x.conn = some c ∧
      sliceTurn c x = true ∧ roundAt s x.round = some r ∧ sliceCheck r x.bytes x.poison = some st) :=
  ⟨⟨{ summing conn1 with ports := ⟨keyedPort, keyedPort, keyedPort, keyedPort, keyedPort⟩ }, carried, 0, false, Instr.roceRequestReceive carried, conn1, sums, by decide +kernel⟩,
   ⟨stagedIn icv1, 0, staged1 icv1, { conn1 with order := [flying] }, round1, by decide +kernel⟩,
   ⟨stagedIn 0, 0, staged1 0, { conn1 with order := [flying] }, round1, Status.icvMismatch, by decide +kernel⟩⟩

/-- What opens a CKKS context of degree 4,096 with one prime, and a context of degree 2 with three. -/
def opensCtx : Bytes := pay [(4, 0), (4, 1), (4, 1), (4, 1), (1, 1), (1, 12), (1, 1), (1, 0), (4, 0), (8, 0), (8, 40961), (1, 30)]
def toy : HParams := { bgv := false, logN := 1, t := 0, q := [5, 13, 29], p := [17], drop := [1, 1, 1] }
def obj : HSlot := { valid := true, level := 1, comps := [[[1, 2], [3, 4]], [[0, 1], [5, 6]]], evalForm := true, scale := 4, keyTag := 9 }
/-- Key chunk `i` of a key of one prime and one special prime. -/
def chunk (i : Nat) : Bytes :=
  pay [(4, 0x4B56454F), (2, 1), (1, 1), (1, 1), (8, 7), (8, 9), (4, 0), (1, 0), (1, i / 2), (1, if i % 2 = 0 then 0 else 64), (1, 0), (4, i), (28, 0),
    (8, 1), (8, 2)]
def relin : HKey := { handle := 2, tag := 9, kind := 1, galois := 0, resident := true, banks := 1, chunks := [] }
def ctx1 : HCtx :=
  { handle := 6, twin := false, sheets := 1, keyBanks := 4, slotCnt := 8, params := toy, block := [1], chain := 7, faulted := false
    slots := [(0, obj), (1, obj)], keys := [relin], burnish := none, base := 0 }
def withCtx (c : HCtx) : State :=
  { live with hev := { live.hev with ctxs := [c] }, pla := { live.pla with grants := [⟨.ctx 6, 1, false, [0, 1, 2, 3]⟩] } }
def keyless : HCtx := { ctx1 with params := { toy with q := [5] }, keys := [] }
def keyStored : State :=
  { withCtx keyless with mem := { live.mem with cells := cellWrite [] 0x10000 ((List.range 4).flatMap chunk) } }
/-- A burnish plate of the context: its constant table is its only section. -/
def blade (i : Nat) : Plate :=
  { handle := i, image := pay [(18, 0), (2, 1), (236, 0), (2, 6), (2, 0), (4, 272), (4, 64), (4, 0), (1, 0), (1, 1), (2, 4), (2, 4), (1, 1), (1, 0), (4, 1), (52, 0)]
    digest := [], signer := [], kind := 5, sheets := 1, flags := 0, span := 0, shape := sha512 [1] }
def burnished : Bytes := pay [(4, 6), (4, 8), (4, 1), (4, 2), (4, 3), (4, 4), (4, 5), (4, 6), (4, 7), (4, 8)]
def blades : State := on 0x0806 burnished { withCtx ctx1 with pla := { (withCtx ctx1).pla with store := (List.range 9).map blade } }

/-- Inputs that meet the hypotheses of ContextCommands, clause by clause. -/
theorem witness_contextCommands :
    (∃ (s : State) (mb : MbId) (j : Job), Begun s mb 0x0801 j ∧ guardSet s = false ∧ ctxOpenBad j.payload = false ∧ blockFails (j.payload.drop 16) = none
      ∧ quiesced s 3 = false ∧ s.hev.ctxs.length < 8 ∧
      (let h := freshHandle (workHandles s) s
      
      (let room := ctxResources h.1 j.payload h.2
      room.isSome = true))) ∧
    (∃ (s : State) (mb : MbId) (j : Job) (off : Nat), Begun s mb 0x0801 j ∧ guardSet s = false ∧ ctxOpenBad j.payload = false ∧ blockFails (j.payload.drop
      16) = some off) ∧
    (∃ (s : State) (mb : MbId) (j : Job) (c : HCtx), j.payload.length = 8 ∧ field j.payload 4 4 = 0 ∧ ctxAt s (field j.payload 0 4) = some c ∧ Begun s mb
      0x0802 j ∧ ctxDescs s c.handle = []) ∧
    (∃ (s : State) (mb : MbId) (j : Job) (c : HCtx), j.payload.length = 8 ∧ field j.payload 4 4 = 0 ∧ ctxAt s (field j.payload 0 4) = some c ∧ Begun s mb
      0x0805 j) ∧
    (∃ (s : State) (mb : MbId) (j : Job) (c : HCtx), Begun s mb 0x0803 j ∧ j.payload.length = 24 ∧ field j.payload 4 4 ≤ 1 ∧ ctxAt s (field j.payload 0 4)
      = some c ∧ c.params.p ≠ [] ∧ field j.payload 16 8 = keyChunks c.params * chunkLen c.params ∧
      (let n := field j.payload 16 8
      (placeHbm n s).1.isSome = true ∧ field j.payload 8 8 < 2 ^ 63)) ∧
    (∃ (s : State) (mb : MbId) (j : Job) (c : HCtx), ∃ bad a, Begun s mb 0x0803 j ∧ j.payload.length = 24 ∧ field j.payload 4 4 ≤ 1 ∧ ctxAt s (field
      j.payload 0 4) = some c ∧ c.params.p ≠ [] ∧ field j.payload 16 8 = keyChunks c.params * chunkLen c.params ∧
      (let n := field j.payload 16 8
      (placeHbm n s).1.isSome = true ∧ field j.payload 8 8 = 2 ^ 63 + a ∧ a < 2 ^ 48 ∧ devOk s a n = true ∧ (checkedRead bad a n s).2.1 = false ∧
      (let img := cellRead s.mem.cells a n
      (∀ i < keyChunks c.params, chunkBad c img i = false) ∧ (∀ k ∈ c.keys, ¬(k.tag = field img 0x10 8 ∧ k.kind = field img 6 1 ∧ k.galois = field img 0x18
      4)) ∧ (placeHbm n (freshHandle (c.keys.map (·.handle)) s).2).1.isSome = true))) ∧
    (∃ (s : State) (mb : MbId) (j : Job) (c : HCtx) (k : HKey), Begun s mb 0x0804 j ∧ j.payload.length = 8 ∧ ctxAt s (field j.payload 0 4) = some c ∧
      c.keys.find? (fun k => k.handle == field j.payload 4 4) = some k ∧ keyNamed s c k = false) ∧
    (∃ (s : State) (mb : MbId) (j : Job) (c : HCtx) (ps : List Plate) (b : BurnishSet) (work : Nat) (banks : List Nat), Begun s mb 0x0806 j ∧
      j.payload.length = 8 + 4 * field j.payload 4 4 ∧ ctxAt s (field j.payload 0 4) = some c ∧ ctxDescs s c.handle = [] ∧ c.params.bgv = false ∧ 8 ≤
      field j.payload 4 4 ∧ field j.payload 4 4 ≤ 48 ∧
      (let hs := (List.range (field j.payload 4 4)).map (fun i => field j.payload (8 + 4 * i) 4)
      hs.map (plateAt s) = ps.map some ∧ (∀ p ∈ ps, burnishReason c p = none ∧ p.sheets = primarySheets c) ∧ (ps.head?).bind (fun p => burnishRecord c hs
      (sha512 (ps.flatMap (·.digest))) p.image) = some (b, work) ∧ pickBanks work c.sheets c.twin (keyBankList s c) s.draw = some banks)) :=
  ⟨by
    let s := on 0x0801 opensCtx live
    let h := freshHandle (workHandles s) s
    have c : (grant (.ctx h.1) (BitVec.ofNat 32 (field opensCtx 4 4)) (field opensCtx 0 4 == 1) (field opensCtx 8 4 * bankBytes) h.2).any (fun t =>
      inHbm t 0 65600 && !heldRange t 0 65600 && !onRing t 0 65600 && !onRegion t 0 65600) = true :=
      grant_any _ _ _ _ _ _ (fun b u => by rw [wipeBanks_heldRange]; rfl) (by decide +kernel)
    rw [Option.any_eq_true] at c
    obtain ⟨t, ht, c⟩ := c
    exact ⟨s, 0, job 0x0801 opensCtx, by decide +kernel, by decide +kernel, by decide +kernel, by decide +kernel, by decide +kernel,
      by decide +kernel, ctxRes_some h.1 opensCtx h.2 t 65600 ht (by decide +kernel) c⟩,
   ⟨on 0x0801 (opensCtx.take 32 ++ pay [(8, 6), (1, 30)]) (live), 0, job 0x0801 (opensCtx.take 32 ++ pay [(8, 6), (1, 30)]), 0x10, by decide +kernel⟩,
   ⟨on 0x0802 (pay [(8, 6)]) (withCtx ctx1), 0, job 0x0802 (pay [(8, 6)]), ctx1, by decide +kernel⟩,
   ⟨on 0x0805 (pay [(8, 6)]) (withCtx ctx1), 0, job 0x0805 (pay [(8, 6)]), ctx1, by decide +kernel⟩,
   ⟨on 0x0803 (pay [(4, 6), (4, 1), (8, 0x1000), (8, 320)]) (withCtx keyless), 0, job 0x0803 (pay [(4, 6), (4, 1), (8, 0x1000), (8, 320)]), keyless, by refine ⟨?_, ?_, ?_, ?_, ?_, ?_, placeHbm_some _ _ (by decide +kernel), ?_⟩ <;> decide +kernel⟩,
   ⟨on 0x0803 (pay [(4, 6), (4, 1), (8, 2 ^ 63 + 0x10000), (8, 320)]) (keyStored), 0, job 0x0803 (pay [(4, 6), (4, 1), (8, 2 ^ 63 + 0x10000), (8, 320)]), keyless, [], 0x10000, by refine ⟨?_, ?_, ?_, ?_, ?_, ?_, placeHbm_some _ _ (by decide +kernel), ?_, ?_, ?_, ?_, ?_, ?_, placeHbm_some _ _ (by decide +kernel)⟩ <;> decide +kernel⟩,
   ⟨on 0x0804 (pay [(4, 6), (4, 2)]) (withCtx ctx1), 0, job 0x0804 (pay [(4, 6), (4, 2)]), ctx1, relin, by decide +kernel⟩,
   by
    let hs := (List.range 8).map (fun i => field burnished (8 + 4 * i) 4)
    let ps := (List.range 8).map (fun i => blade (i + 1))
    have a : ∀ p ∈ ps, burnishReason ctx1 p = none ∧ p.sheets = primarySheets ctx1 := by
      intro p hp
      obtain ⟨i, _, rfl⟩ := List.mem_map.mp hp
      exact ⟨by simp [burnishReason, blade, ctx1], rfl⟩
    have c : ((ps.head?).bind (fun p => burnishRecord ctx1 hs (sha512 (ps.flatMap (·.digest))) p.image)).any
      (fun x => (pickBanks x.2 ctx1.sheets ctx1.twin (keyBankList blades ctx1) blades.draw).isSome) = true := by decide +kernel
    rw [Option.any_eq_true] at c
    obtain ⟨⟨r, work⟩, hr, c⟩ := c
    obtain ⟨banks, hb⟩ := Option.isSome_iff_exists.mp c
    have f : ∀ k, plateAt blades k = ((List.range 9).find? (fun i => i == k)).map blade := fun k => List.find?_map ..
    have m : hs.map (plateAt blades) = ps.map some := by
      rw [show hs = (List.range 8).map (· + 1) by decide +kernel, List.map_map, List.map_map]
      refine List.map_congr_left fun i hi => ?_
      simp only [Function.comp, f]
      rw [show (List.range 9).find? (fun x => x == i + 1) = some (i + 1) by revert hi; revert i; decide]
      rfl
    exact ⟨blades, 0, job 0x0806 burnished, ctx1, ps, r, work, banks, by decide +kernel, by decide +kernel, by decide +kernel, by decide +kernel,
      by decide +kernel, by decide +kernel, by decide +kernel, m, a, hr, hb⟩⟩

/-- A descriptor of an operation, one running for it, and the state that holds them. -/
def hdesc (op b key g cnt addr : Nat) : FDesc :=
  desc 3 (pay [(1, 0x20), (1, op), (2, 0), (4, 6), (4, 0), (4, b), (4, 2), (4, key), (8, 0), (4, g), (4, cnt), (8, addr), (16, 0)])
def hop (op : Nat) : HOp :=
  { desc := 0, ctx := 6, op := op, out := 2, result := none, computed := false, keyBytes := 0, hits := 0, checks := 0, data := [], retried := false
    streamed := 0, poisoned := false, plan := [] }
def done (op : Nat) : HOp := { hop op with computed := true, result := some obj }
def computing (c : HCtx) (f : FDesc) (l : List HOp) : State :=
  let s := fetchedIn f (withCtx c)
  { s with hev := { s.hev with ops := l }
           pla := { s.pla with store := [{ plate1 with kind := 4 }], active := [⟨.ctx 6, 9, 1⟩] } }
def rotor : HKey := { relin with handle := 3, kind := 2, galois := 3 }
def full : HCtx := { ctx1 with keys := [relin, rotor], slots := [(0, obj), (1, obj), (3, { obj with comps := [[[1, 2], [3, 4]]] })] }
def bladed : BurnishSet := { plates := [1], digest := [], outLevel := 1, inScale := 4, outScale := 4, relin := false, galois := [], banks := [] }
def imported : Bytes :=
  pay [(4, 0x5458434F), (2, 1), (1, 1), (1, 1), (8, 7), (8, 9), (1, 0), (1, 2), (1, 1), (1, 0), (2, 4), (2, 0), (8, 32), (24, 0), (8, 1), (8, 2), (8, 3), (8, 4)]
def atHbm (b : Bytes) (s : State) : State := { s with mem := { s.mem with cells := cellWrite [] 0x10000 b } }
def doubled : HCtx := { full with twin := true }

/-- Inputs that meet the hypotheses of HomomorphicOperations, clause by clause. -/
theorem witness_homomorphicOperations :
    (∃ (s : State) (n : Nat) (f : FDesc) (c : HCtx), ∃ st, descAt s n = some f ∧ f.fn = 3 ∧ f.taken = false ∧ ctxAt s (field f.bytes 4 4) = some c ∧
      mustYield s f = false ∧ c.faulted = false ∧ fieldsBad c f.bytes = false ∧ ctxReady s c = true ∧
      (let op := field f.bytes 1 1
      
      (let status := if op = 0x10 then burnishStatus c f.bytes else operationStatus c f.bytes
      (op = 2 → (hslotAt c (field f.bytes 8 4)).any (·.valid) = true) ∧ status = some st))) ∧
    (∃ (s : State) (n : Nat) (f : FDesc) (c : HCtx), descAt s n = some f ∧ f.fn = 3 ∧ f.taken = false ∧ ctxAt s (field f.bytes 4 4) = some c ∧ mustYield s
      f = false ∧ c.faulted = false ∧ fieldsBad c f.bytes = false ∧ ctxReady s c = true ∧
      (let op := field f.bytes 1 1
      
      (let status := if op = 0x10 then burnishStatus c f.bytes else operationStatus c f.bytes
      (op = 2 → (hslotAt c (field f.bytes 8 4)).any (·.valid) = true) ∧ status = none ∧ (∀ k a, (op = 8 ∨ op = 0x0B) → keyOf c f.bytes = some k → hslotAt c
      (field f.bytes 8 4) = some a → k.tag = a.keyTag) ∧ (∀ o ∈ s.hev.ops, o.desc ≠ n)))) ∧
    (∃ (s : State) (n : Nat) (i : Instr) (f : FDesc) (o : HOp) (c : HCtx) (a : HSlot), ∃ x, descAt s n = some f ∧ ctxAt s o.ctx = some c ∧ inA c f = some
      a ∧ x ∈ [(Instr.hevNeg n, 0x05, { a with comps := a.comps.map (limbs (basis c a.level) polyNeg) }), (Instr.hevRescale n, 0x09, rescaleObj c a),
      (Instr.hevDrop n, 0x0A, { a with level := a.level - 1, comps := a.comps.map (atLevel (a.level - 1)) }), (Instr.hevNtt n, 0x0D,
      { a with comps := evalComps c a.level a, evalForm := true }), (Instr.hevIntt n, 0x0E,
      { a with comps := coefComps c a.level a, evalForm := false })] ∧ i = x.1 ∧ s.hev.ops.find? (fun o => o.desc == n && o.op == x.2.1 &&
      !o.computed) = some o) ∧
    (∃ (s : State) (n : Nat) (i : Instr) (f : FDesc) (o : HOp) (c : HCtx) (a : HSlot), ∃ x, descAt s n = some f ∧ ctxAt s o.ctx = some c ∧ inA c f = some
      a ∧ x ∈ [(Instr.hevNeg n, 0x05, { a with comps := a.comps.map (limbs (basis c a.level) polyNeg) }), (Instr.hevRescale n, 0x09, rescaleObj c a),
      (Instr.hevDrop n, 0x0A, { a with level := a.level - 1, comps := a.comps.map (atLevel (a.level - 1)) }), (Instr.hevNtt n, 0x0D,
      { a with comps := evalComps c a.level a, evalForm := true }), (Instr.hevIntt n, 0x0E,
      { a with comps := coefComps c a.level a, evalForm := false })] ∧ i = x.1 ∧ s.hev.ops.find? (fun o => o.desc == n && o.op == x.2.1 &&
      !o.computed) = some o ∧ x.2.1 ≠ 0x09) ∧
    (∃ (s : State) (n : Nat) (f : FDesc) (o : HOp) (c : HCtx) (a b : HSlot), descAt s n = some f ∧ ctxAt s o.ctx = some c ∧ inA c f = some a ∧ inB c f =
      some b ∧
      (let running := fun (op : Nat) => s.hev.ops.find? (fun o => o.desc == n && o.op == op && !o.computed) = some o
      running 3)) ∧
    (∃ (s : State) (n : Nat) (f : FDesc) (o : HOp) (c : HCtx) (a b : HSlot), descAt s n = some f ∧ ctxAt s o.ctx = some c ∧ inA c f = some a ∧ inB c f =
      some b ∧
      (let running := fun (op : Nat) => s.hev.ops.find? (fun o => o.desc == n && o.op == op && !o.computed) = some o
      running 4)) ∧
    (∃ (s : State) (n : Nat) (f : FDesc) (o : HOp) (c : HCtx) (a b : HSlot), descAt s n = some f ∧ ctxAt s o.ctx = some c ∧ inA c f = some a ∧ inB c f =
      some b ∧
      (let running := fun (op : Nat) => s.hev.ops.find? (fun o => o.desc == n && o.op == op && !o.computed) = some o
      running 6)) ∧
    (∃ (s : State) (n : Nat) (f : FDesc) (o : HOp) (c : HCtx) (a b : HSlot), descAt s n = some f ∧ ctxAt s o.ctx = some c ∧ inA c f = some a ∧ inB c f =
      some b ∧
      (let running := fun (op : Nat) => s.hev.ops.find? (fun o => o.desc == n && o.op == op && !o.computed) = some o
      running 7)) ∧
    (∃ (s : State) (n : Nat) (f : FDesc) (o : HOp) (c : HCtx) (a b : HSlot), ∃ k, descAt s n = some f ∧ ctxAt s o.ctx = some c ∧ inA c f = some a ∧ inB c
      f = some b ∧
      (let running := fun (op : Nat) => s.hev.ops.find? (fun o => o.desc == n && o.op == op && !o.computed) = some o
      running 8 ∧ keyOf c f.bytes = some k)) ∧
    (∃ (s : State) (n : Nat) (f : FDesc) (o : HOp) (c : HCtx) (a : HSlot), ∃ k, descAt s n = some f ∧ ctxAt s o.ctx = some c ∧ inA c f = some a ∧
      (let running := fun (op : Nat) => s.hev.ops.find? (fun o => o.desc == n && o.op == op && !o.computed) = some o
      running 0x0B ∧ keyOf c f.bytes = some k)) ∧
    (∃ (s : State) (n : Nat) (f : FDesc) (o : HOp) (c : HCtx) (a : HSlot), descAt s n = some f ∧ ctxAt s o.ctx = some c ∧ inA c f = some a ∧
      (let running := fun (op : Nat) => s.hev.ops.find? (fun o => o.desc == n && o.op == op && !o.computed) = some o
      running 2 ∧ field f.bytes 0x28 8 < 2 ^ 63)) ∧
    (∃ (s : State) (n : Nat) (f : FDesc) (o : HOp) (c : HCtx) (a : HSlot), ∃ b, descAt s n = some f ∧ ctxAt s o.ctx = some c ∧ inA c f = some a ∧
      (let running := fun (op : Nat) => s.hev.ops.find? (fun o => o.desc == n && o.op == op && !o.computed) = some o
      running 0x10 ∧ c.burnish = some b)) ∧
    (∃ (s : State) (n : Nat) (f : FDesc) (o : HOp) (c : HCtx) (a : HSlot), descAt s n = some f ∧ ctxAt s o.ctx = some c ∧ inA c f = some a ∧
      (let running := fun (op : Nat) => s.hev.ops.find? (fun o => o.desc == n && o.op == op && !o.computed) = some o
      running 0x0C ∧ field f.bytes 0x28 8 < 2 ^ 63 ∧ s.hif.reads.any (fun r => r.purpose == .rotsumList n) = false)) ∧
    (∃ (s : State) (n : Nat) (f : FDesc) (o : HOp) (c : HCtx) (a : HSlot), ∃ x ks bad, descAt s n = some f ∧ ctxAt s o.ctx = some c ∧ inA c f = some a ∧
      (let running := fun (op : Nat) => s.hev.ops.find? (fun o => o.desc == n && o.op == op && !o.computed) = some o
      running 0x0C ∧ field f.bytes 0x28 8 = 2 ^ 63 + x ∧ x < 2 ^ 48 ∧ s.hif.reads.any (fun r => r.purpose == .rotsumList n) = false ∧ devOk s x (8 * field
      f.bytes 0x24 4) = true ∧ (checkedRead bad x (8 * field f.bytes 0x24 4) s).2.1 = false ∧ rotsumKeys c (cellRead s.mem.cells x (8 * field f.bytes
      0x24 4)) = some ks ∧ (∀ k ∈ ks, k.tag = a.keyTag))) ∧
    (∃ (s : State) (n : Nat) (f : FDesc) (o : HOp) (c : HCtx), descAt s n = some f ∧ ctxAt s o.ctx = some c ∧ s.hev.ops = [o] ∧ o.desc = n ∧ o.op = 1 ∧
      o.computed = false ∧ s.hif.reads.any (fun r => r.purpose == .hevImport n) = false ∧ field f.bytes 0x28 8 < 2 ^ 63) ∧
    (∃ (s : State) (n : Nat) (f : FDesc) (o : HOp) (c : HCtx), ∃ x bad, descAt s n = some f ∧ ctxAt s o.ctx = some c ∧ s.hev.ops = [o] ∧ o.desc = n ∧ o.op
      = 1 ∧ o.computed = false ∧ s.hif.reads.any (fun r => r.purpose == .hevImport n) = false ∧ field f.bytes 0x28 8 = 2 ^ 63 + x ∧ x < 2 ^ 48 ∧
      (let hd := cellRead s.mem.cells x 64
      
      (let len := field hd 0x20 8
      devOk s x 64 = true ∧ (checkedRead bad x 64 s).2.1 = false ∧ headerBad c hd = false ∧ devOk s (x + 64) len = true ∧ (checkedRead bad (x + 64) len
      (checkedRead bad x 64 s).2.2).2.1 = false ∧ residuesBad c (objectOf c hd (cellRead s.mem.cells (x + 64) len)) = false))) ∧
    (∃ (s : State) (n : Nat) (f : FDesc) (o : HOp) (c : HCtx) (r : HSlot), s.hev.ops.find? (fun o => o.desc == n && o.computed) = some o ∧ descAt s n =
      some f ∧ ctxAt s o.ctx = some c ∧ o.result = some r ∧ platesDone s o = true ∧ o.poisoned = false ∧ o.op ≠ 2) ∧
    (∃ (s : State) (n : Nat) (f : FDesc) (o : HOp) (c : HCtx) (r : HSlot), ∃ a, s.hev.ops.find? (fun o => o.desc == n && o.computed) = some o ∧ descAt s n
      = some f ∧ ctxAt s o.ctx = some c ∧ o.result = some r ∧ platesDone s o = true ∧ o.poisoned = false ∧ o.op = 2 ∧ field f.bytes 0x28 8 = a ∧ a < 2
      ^ 63) ∧
    (∃ (s : State) (n : Nat) (f : FDesc) (o : HOp) (c : HCtx) (r : HSlot), s.hev.ops.find? (fun o => o.desc == n && o.computed) = some o ∧ descAt s n =
      some f ∧ ctxAt s o.ctx = some c ∧ o.result = some r ∧ o.op ≠ 2) ∧
    (∃ (s : State) (n : Nat) (f : FDesc) (o : HOp) (c : HCtx) (r : HSlot), ∃ eval g q input output, s.hev.ops.find? (fun o => o.desc == n && o.computed) =
      some o ∧ descAt s n = some f ∧ ctxAt s o.ctx = some c ∧ o.result = some r ∧ passOf c f o g q = true ∧ passFails c eval g q input output = true) ∧
    (∃ (s : State) (n : Nat) (f : FDesc) (o : HOp) (c : HCtx) (r : HSlot), s.hev.ops.find? (fun o => o.desc == n && o.computed) = some o ∧ descAt s n =
      some f ∧ ctxAt s o.ctx = some c ∧ o.result = some r ∧ c.twin = true ∧ platesDone s o = true ∧ o.retried = false ∧ (∀ x ∈ s.hev.ops, x.desc = n →
      x = o)) ∧
    (∃ (s : State) (n : Nat) (f : FDesc) (o : HOp) (c : HCtx) (r : HSlot), s.hev.ops.find? (fun o => o.desc == n && o.computed) = some o ∧ descAt s n =
      some f ∧ ctxAt s o.ctx = some c ∧ o.result = some r ∧ c.twin = true ∧ platesDone s o = true ∧ o.retried = true ∧ o.op ≠ 2) :=
  ⟨⟨computing full (hdesc 3 3 2 0 0 0) [], 0, hdesc 3 3 2 0 0 0, full, Status.operandMismatch, by decide +kernel⟩,
   ⟨computing full (hdesc 3 1 2 0 0 0) [], 0, hdesc 3 1 2 0 0 0, full, by refine ⟨?_, ?_, ?_, ?_, ?_, ?_, ?_, ?_, ?_, ?_, fun k a h => absurd h (by decide +kernel), ?_⟩ <;> decide +kernel⟩,
   ⟨computing full (hdesc 5 1 2 0 0 0) [hop 5], 0, Instr.hevNeg 0, hdesc 5 1 2 0 0 0, hop 5, full, obj, (Instr.hevNeg 0, 0x05, { obj with comps := obj.comps.map (limbs (basis full obj.level) polyNeg) }), by decide +kernel⟩,
   ⟨computing full (hdesc 5 1 2 0 0 0) [hop 5], 0, Instr.hevNeg 0, hdesc 5 1 2 0 0 0, hop 5, full, obj, (Instr.hevNeg 0, 0x05, { obj with comps := obj.comps.map (limbs (basis full obj.level) polyNeg) }), by decide +kernel⟩,
   ⟨computing full (hdesc 3 1 2 0 0 0) [hop 3], 0, hdesc 3 1 2 0 0 0, hop 3, full, obj, obj, by decide +kernel⟩,
   ⟨computing full (hdesc 4 1 2 0 0 0) [hop 4], 0, hdesc 4 1 2 0 0 0, hop 4, full, obj, obj, by decide +kernel⟩,
   ⟨computing full (hdesc 6 3 2 0 0 0) [hop 6], 0, hdesc 6 3 2 0 0 0, hop 6, full, obj, { obj with comps := [[[1, 2], [3, 4]]] }, by decide +kernel⟩,
   ⟨computing full (hdesc 7 3 2 0 0 0) [hop 7], 0, hdesc 7 3 2 0 0 0, hop 7, full, obj, { obj with comps := [[[1, 2], [3, 4]]] }, by decide +kernel⟩,
   ⟨computing full (hdesc 8 1 2 0 0 0) [hop 8], 0, hdesc 8 1 2 0 0 0, hop 8, full, obj, obj, relin, by decide +kernel⟩,
   ⟨computing full (hdesc 0x0B 1 3 3 0 0) [hop 0x0B], 0, hdesc 0x0B 1 3 3 0 0, hop 0x0B, full, obj, rotor, by decide +kernel⟩,
   ⟨computing full (hdesc 2 1 3 3 0 0x1000) [hop 2], 0, hdesc 2 1 3 3 0 0x1000, hop 2, full, obj, by decide +kernel⟩,
   ⟨computing { full with burnish := some bladed } (hdesc 0x10 1 3 3 0 0) [hop 0x10], 0, hdesc 0x10 1 3 3 0 0, hop 0x10, { full with burnish := some bladed }, obj, bladed, by decide +kernel⟩,
   ⟨computing full (hdesc 0x0C 1 3 3 1 0x1000) [hop 0x0C], 0, hdesc 0x0C 1 3 3 1 0x1000, hop 0x0C, full, obj, by decide +kernel⟩,
   ⟨atHbm (pay [(4, 3), (4, 3)]) (computing full (hdesc 0x0C 1 3 3 1 (2 ^ 63 + 0x10000)) [hop 0x0C]), 0, hdesc 0x0C 1 3 3 1 (2 ^ 63 + 0x10000), hop 0x0C, full, obj, 0x10000, [rotor], [], by decide +kernel⟩,
   ⟨computing full (hdesc 1 1 3 3 1 0x1000) [hop 1], 0, hdesc 1 1 3 3 1 0x1000, hop 1, full, by decide +kernel⟩,
   ⟨atHbm imported (computing full (hdesc 1 1 3 3 1 (2 ^ 63 + 0x10000)) [hop 1]), 0, hdesc 1 1 3 3 1 (2 ^ 63 + 0x10000), hop 1, full, 0x10000, [], by decide +kernel⟩,
   ⟨computing full (hdesc 3 1 2 0 0 0) [done 3], 0, hdesc 3 1 2 0 0 0, done 3, full, obj, by decide +kernel⟩,
   ⟨computing full (hdesc 2 1 3 3 0 0x1000) [done 2], 0, hdesc 2 1 3 3 0 0x1000, done 2, full, obj, 0x1000, by decide +kernel⟩,
   ⟨computing full (hdesc 0x0B 1 2 0 0 0) [done 0x0B], 0, hdesc 0x0B 1 2 0 0 0, done 0x0B, full, obj, by decide +kernel⟩,
   ⟨computing full (hdesc 0x0B 1 3 3 0 0) [done 0x0B], 0, hdesc 0x0B 1 3 3 0 0, done 0x0B, full, obj, false, 3, full.params.q.headD 0, [1, 0], [0, 0], by decide +kernel⟩,
   ⟨computing doubled (hdesc 3 1 2 0 0 0) [done 3], 0, hdesc 3 1 2 0 0 0, done 3, doubled, obj, by decide +kernel⟩,
   ⟨computing doubled (hdesc 3 1 2 0 0 0) [{ done 3 with retried := true }], 0, hdesc 3 1 2 0 0 0, { done 3 with retried := true }, doubled, obj, by decide +kernel⟩⟩

/-- A network port, and a frame that it may protect. -/
def net : Port := { mode := 1, up := true, rate := 1 }
def secured : Port := keyedPort
def wired (p : Port) : State :=
  { live with ports := ⟨p, p, p, p, p⟩, kst := { live.kst with slots := live.kst.slots ++ [key 64 4] } }
def netFrame (k : FrameKind) : NetFrame := { kind := k, priority := 0, length := 256, ect := false, ce := false, fcsOk := true, bytes := [] }
/-- A channel whose borrowed room and guarantee are full. -/
def packed : Channel := { fifo := [(8192, false)] }
def brimful : State :=
  { wired secured with buf := { live.buf with channels := [packed] } }

/-- Inputs that meet the hypotheses of PortsAndLinks, clause by clause. -/
theorem witness_portsAndLinks :
    (∃ (s : State) (mb : MbId) (j : Job), Begun s mb 0x0901 j ∧ j.payload.length = 8 ∧ field j.payload 0 1 ≤ 4 ∧ field j.payload 1 1 ≤ 4 ∧ field j.payload
      2 1 ≤ 1 ∧ zeroAt j.payload 3 5 = true ∧
      (let n := field j.payload 0 1
      
      (let rate := field j.payload 1 1
      
      (let an := field j.payload 2 1 == 1
      
      (let p := get5 s.ports n
      p.mode ≠ 2 ∧ (∀ c ∈ s.rdm.conns, c.port.val ≠ n) ∧ p.rate = rate ∧ (rate ≤ 1 ∨ p.an = an)))))) ∧
    (∃ (s : State) (mb : MbId) (j : Job), Begun s mb 0x0901 j ∧ j.payload.length = 8 ∧ field j.payload 0 1 ≤ 4 ∧ field j.payload 1 1 ≤ 4 ∧ field j.payload
      2 1 ≤ 1 ∧ zeroAt j.payload 3 5 = true ∧
      (let n := field j.payload 0 1
      
      (let rate := field j.payload 1 1
      
      (let an := field j.payload 2 1 == 1
      
      (let p := get5 s.ports n
      p.mode ≠ 2 ∧ (∀ c ∈ s.rdm.conns, c.port.val ≠ n) ∧ (¬(p.rate = rate ∧ (rate ≤ 1 ∨ p.an = an)))))))) ∧
    (∃ (s : State) (mb : MbId) (j : Job), Begun s mb 0x0902 j ∧ j.payload.length = 8 ∧ field j.payload 0 1 ≤ 4 ∧ zeroAt j.payload 1 7 = true) ∧
    (∃ (s : State) (mb : MbId) (j : Job), Begun s mb 0x0903 j ∧ j.payload.length = 48 ∧ field j.payload 0 1 ≤ 4 ∧ field j.payload 1 1 ≤ 1 ∧ field
      j.payload 2 1 ≤ 3 ∧ field j.payload 3 1 = 0 ∧ field j.payload 6 2 = 0 ∧ field j.payload 12 4 ≤ 2 ^ 30 ∧ field j.payload 28 4 = 0 ∧
      (let n := field j.payload 0 1
      
      (let tx := field j.payload 1 1 = 0
      
      (let p := get5 s.ports n
      
      (let sas := if tx then p.txSa else p.rxSa
      
      (let a : Sa :=
        { an := field j.payload 2 1, slot := field j.payload 4 2, ssci := field j.payload 8 4, window := field j.payload 12 4, salt := slice j.payload 16 12, sci := field j.payload 40 8, pn := field j.payload 32 8 }
      p.mode ≠ 2 ∧ sas.length < 2 ∧ (∀ x ∈ sas, x.an ≠ a.an) ∧ (slotFor s a.slot 2).isSome = true ∧ p.waiting = [] ∧ (tx → a.pn < 0xC000000000000000))))))) ∧
    (∃ (s : State) (mb : MbId) (j : Job), Begun s mb 0x0904 j ∧ j.payload.length = 8 ∧ field j.payload 0 1 ≤ 4 ∧ field j.payload 1 1 ≤ 1 ∧ field j.payload
      2 1 ≤ 3 ∧ zeroAt j.payload 3 5 = true ∧
      (let p := get5 s.ports (field j.payload 0 1)
      (∃ a ∈ (if field j.payload 1 1 = 0 then p.txSa else p.rxSa), a.an = field j.payload 2 1))) ∧
    (∃ (s : State) (port : PortId), bringingUp s port.val = true) ∧
    (∃ (s : State) (port : PortId), bringingUp s port.val = true ∧
      (let p := get5 s.ports port.val
      p.mode = 1)) ∧
    (∃ (s : State) (port : PortId), bringingUp s port.val = true ∧
      (let p := get5 s.ports port.val
      p.mode = 2 ∧ initiates port.val = false)) ∧
    (∃ (s : State) (port : PortId), bringingUp s port.val = true ∧
      (let p := get5 s.ports port.val
      p.mode = 2 ∧ initiates port.val = true ∧ drbgReady 3 s = true ∧ s.ring.isSome = true)) ∧
    (∃ (s : State) (port : PortId),
      (let p := get5 s.ports port.val
      p.up = false)) ∧
    (∃ (s : State) (port : PortId),
      (let p := get5 s.ports port.val
      p.up = true)) ∧
    (∃ (s : State) (port : PortId),
      (let p := get5 s.ports port.val
      p.up = false)) ∧
    (∃ (s : State) (port : PortId) (f : NetFrame),
      (let p := get5 s.ports port.val
      p.mode = 1 ∧ p.up = true ∧ f.fcsOk = true ∧ 64 ≤ f.length ∧ f.length ≤ 9216 ∧ f.kind = .eapol ∧ fenced s 4 = false)) ∧
    (∃ (s : State) (port : PortId) (f : NetFrame),
      (let p := get5 s.ports port.val
      p.mode = 1 ∧ p.up = true ∧ f.fcsOk = true ∧ 64 ≤ f.length ∧ f.length ≤ 9216 ∧ f.kind = .linkPause)) ∧
    (∃ (s : State) (port : PortId) (f : NetFrame),
      (let p := get5 s.ports port.val
      p.mode = 1 ∧ p.up = true ∧ f.fcsOk = true ∧ 64 ≤ f.length ∧ f.length ≤ 9216 ∧ f.kind = .unprotected)) ∧
    (∃ (s : State) (port : PortId) (f : NetFrame), ∃ an sci pn icvOk,
      (let p := get5 s.ports port.val
      p.mode = 1 ∧ p.up = true ∧ f.fcsOk = true ∧ 64 ≤ f.length ∧ f.length ≤ 9216 ∧ f.kind = .macsec an sci pn icvOk ∧
      (let serves := fun (a : Sa) => a.an = an ∧ a.sci = sci ∧ pn ≤ a.pn + a.window
      (icvOk = false ∨ (∀ a ∈ p.rxSa, ¬serves a))))) ∧
    (∃ (s : State) (port : PortId) (f : NetFrame), ∃ an sci pn icvOk x,
      (let p := get5 s.ports port.val
      p.mode = 1 ∧ p.up = true ∧ f.fcsOk = true ∧ 64 ≤ f.length ∧ f.length ≤ 9216 ∧ f.kind = .macsec an sci pn icvOk ∧
      (let serves := fun (a : Sa) => a.an = an ∧ a.sci = sci ∧ pn ≤ a.pn + a.window
      icvOk = true ∧ (∃ a ∈ p.rxSa, serves a) ∧ p.txSa ≠ [] ∧ s.buf.channels[channelOf port.val f.priority]? = some x))) ∧
    (∃ (s : State) (port : PortId), (get5 s.ports port.val).mode = 1 ∧ (get5 s.ports port.val).up = true) :=
  ⟨⟨on 0x0901 ([0, 1, 0, 0, 0, 0, 0, 0]) (wired net), 0, job 0x0901 ([0, 1, 0, 0, 0, 0, 0, 0]), by decide +kernel⟩,
   ⟨on 0x0901 ([0, 2, 0, 0, 0, 0, 0, 0]) (wired net), 0, job 0x0901 ([0, 2, 0, 0, 0, 0, 0, 0]), by decide +kernel⟩,
   ⟨on 0x0902 (zeros 8) (wired net), 0, job 0x0902 (zeros 8), by decide +kernel⟩,
   ⟨on 0x0903 (pay [(1, 0), (1, 0), (2, 2), (2, 64), (2, 0), (4, 1), (4, 0), (12, 5), (4, 0), (8, 1), (8, 3)]) (wired secured), 0, job 0x0903 (pay [(1, 0), (1, 0), (2, 2), (2, 64), (2, 0), (4, 1), (4, 0), (12, 5), (4, 0), (8, 1), (8, 3)]), by decide +kernel⟩,
   ⟨on 0x0904 ([0, 0, 1, 0, 0, 0, 0, 0]) (wired secured), 0, job 0x0904 ([0, 0, 1, 0, 0, 0, 0, 0]), by decide +kernel⟩,
   ⟨wired { net with up := false }, 0, by decide +kernel⟩,
   ⟨wired { net with up := false }, 0, by decide +kernel⟩,
   ⟨around { trio with state := 1 } { linked with up := false, keyed := false }, 1, by decide +kernel⟩,
   ⟨around { trio with state := 1 } { linked with up := false, keyed := false }, 0, by decide +kernel⟩,
   ⟨wired { net with up := false }, 0, by decide +kernel⟩,
   ⟨wired net, 0, by decide +kernel⟩,
   ⟨wired { net with up := false }, 0, by decide +kernel⟩,
   ⟨wired net, 0, netFrame .eapol, by decide +kernel⟩,
   ⟨wired net, 0, netFrame .linkPause, by decide +kernel⟩,
   ⟨wired net, 0, netFrame .unprotected, by decide +kernel⟩,
   ⟨wired net, 0, netFrame (.macsec 1 0 1 true), 1, 0, 1, true, by decide +kernel⟩,
   ⟨brimful, 0, netFrame (.macsec 1 0 1 true), 1, 0, 1, true, packed, by decide +kernel⟩,
   ⟨wired net, 0, by decide +kernel⟩⟩

/-- A region of HBM and one of host memory, a window on the first, a ring of PF4, and a state with a domain that holds them. -/
def region1 : Region := { handle := 1, pd := 1, host := false, addr := 0x10000, len := 4096 }
def region2 : Region := { handle := 2, pd := 1, host := true, addr := 0x10000, len := 4096 }
def window1 : Window := { sums with summing := false, pd := 1, read := true, region := 1, len := 256, round := 0, sizes := [] }
def ring4 : WRing :=
  { num := 0, fn := 4, hbm := true, k := 4, cring := 0, base := 0x100000, state := 1, producer := 0, fetch := 0, completed := 0, flushed := 0, destroyer := none }
def conn2 : Conn := { conn1 with pd := 1 }
def remote (c : List Conn) (w : List Window) : State :=
  { wired secured with rdm := { live.rdm with pds := [1], regions := [region1, region2], conns := c, windows := w, freshIndex := 1 }
                       buf := { live.buf with wrings := [ring4] } }
def opensConn : Bytes :=
  pay [(4, 1), (1, 0), (1, 2), (1, 0), (1, 0), (1, 5), (1, 10), (1, 3), (1, 3), (1, 1), (3, 0), (4, 9), (4, 0), (4, 0), (2, 50000), (2, 0), (6, 5), (2, 0),
    (16, 0), (2, 0), (2, 0), (4, 0), (6, 5), (2, 0), (16, 0)]
def revoked : Window := { window1 with revoking := true }
def read1 : Incoming := { flying with op := .read, staged := none }
/-- Every connection that needs no HBM for its context is open, and HBM has no room. -/
def crowded (l : List Conn) : State :=
  { on 0x0916 opensConn (remote l []) with mem := { live.mem with held := [⟨0, 2 ^ 48, .weights⟩] } }
theorem crowded_full (l : List Conn) (h : l.length = 65536) : growSpill ((crowded l).rdm.conns.length + 1) (crowded l) = none := by
  have full : ∀ a n, 0 < n → (inHbm (crowded l) a n && !heldRange (crowded l) a n) = false := by
    intro a n hn
    by_cases c : inHbm (crowded l) a n = true
    · have o : overlaps a n 0 281474976710656 = true := by
        have z : hbmSize (crowded l) ≤ 2 ^ 48 := by rw [hbmSize]; split <;> decide
        simp only [inHbm, decide_eq_true_eq] at c
        simp only [overlaps, decide_eq_true_eq]
        omega
      rw [heldRange, if_pos c, show (crowded l).mem.held = [⟨0, 2 ^ 48, .weights⟩] from rfl]
      simp [o]
    · simp [c]
  have p : (placeHbm 0x4000000 (crowded l)).1 = none := by simp [placeHbm, full _ 0x4000000 (by decide)]
  rw [show (crowded l).rdm.conns.length = 65536 from h, growSpill, if_neg (by rw [show (crowded l).rdm.chunks = 0 from rfl]; decide)]
  split
  · rename_i q; rw [q] at p; cases p
  · rfl

/-- Inputs that meet the hypotheses of RemoteMemoryCommands, clause by clause. -/
theorem witness_remoteMemoryCommands :
    (∃ (s : State) (mb : MbId) (j : Job) (n : Nat), Begun s mb 0x0910 j ∧ j.payload = zeros 8 ∧ quiesced s 4 = false ∧ n < 256 ∧ (∀ i < n, i ∈ s.rdm.pds)
      ∧ n ∉ s.rdm.pds) ∧
    (∃ (s : State) (mb : MbId) (j : Job), Begun s mb 0x0911 j ∧ j.payload.length = 8 ∧ field j.payload 4 4 = 0 ∧ field j.payload 0 4 ∈ s.rdm.pds ∧ pdHolds
      s (field j.payload 0 4) = false) ∧
    (∃ (s : State) (mb : MbId) (j : Job), Begun s mb 0x0912 j ∧ j.payload.length = 24 ∧ field j.payload 0 4 ∈ s.rdm.pds ∧ field j.payload 4 4 ≤ 1 ∧
      quiesced s 4 = false ∧ s.rdm.regions.length < 65536 ∧
      (let a := field j.payload 8 8
      
      (let n := field j.payload 16 8
      
      (let host := field j.payload 4 4 == 1
      (host = false → inHbm s a n = true ∧ heldRange s a n = false))))) ∧
    (∃ (s : State) (mb : MbId) (j : Job), Begun s mb 0x0913 j ∧ j.payload.length = 8 ∧ field j.payload 4 4 = 0 ∧ (regionAt s (field j.payload 0 4)).isSome
      = true ∧ regionNamed s (field j.payload 0 4) = false) ∧
    (∃ (s : State) (mb : MbId) (j : Job) (w : Window) (i : Nat), Begun s mb 0x0914 j ∧ j.payload.length = 32 ∧ windowOf s j.payload = some w ∧ quiesced s
      4 = false ∧ (if s.rdm.freshIndex < 262144 then i = s.rdm.freshIndex else s.rdm.freed.head? = some i)) ∧
    (∃ (s : State) (mb : MbId) (j : Job) (w : Window), Begun s mb 0x0915 j ∧ j.payload.length = 8 ∧ field j.payload 4 4 = 0 ∧ windowByKey s (field
      j.payload 0 4) = some w ∧ w.revoking = false) ∧
    (∃ (s : State) (key : Nat) (w : Window), windowByKey s key = some w ∧ w.revoking = true ∧ inFlight s key = 0) ∧
    (∃ (s : State) (key : Nat) (w : Window), windowByKey s key = some w ∧ w.revoking = true ∧ inFlight s key ≠ 0) ∧
    (∃ (s : State) (mb : MbId) (j : Job), Begun s mb 0x0916 j ∧ connBad s j.payload = false ∧ quiesced s 4 = false ∧ (get5 s.ports (field j.payload 4
      1)).mode = 1 ∧ s.rdm.conns.length < 4194304 ∧
      (let spill := growSpill (s.rdm.conns.length + 1) s
      spill = none)) ∧
    (∃ (s : State) (mb : MbId) (j : Job), Begun s mb 0x0916 j ∧ connBad s j.payload = false ∧ quiesced s 4 = false ∧ (get5 s.ports (field j.payload 4
      1)).mode = 1 ∧ s.rdm.conns.length < 4194304 ∧
      (let spill := growSpill (s.rdm.conns.length + 1) s
      spill.isSome = true)) ∧
    (∃ (s : State) (mb : MbId) (j : Job), Begun s mb 0x0917 j ∧ j.payload.length = 8 ∧ field j.payload 4 4 = 0 ∧ (connAt s (field j.payload 0 4)).isSome =
      true) ∧
    (∃ (s : State) (mb : MbId) (j : Job) (c : Conn), Begun s mb 0x0918 j ∧ j.payload.length = 8 ∧ field j.payload 4 4 = 0 ∧ connAt s (field j.payload 0 4)
      = some c) ∧
    (∃ (s : State) (mb : MbId) (j : Job), Begun s mb 0x0919 j ∧ j.payload.length = 16 ∧ zeroAt j.payload 5 3 = true ∧ field j.payload 0 4 ≤ 65535 ∧ field
      j.payload 4 1 = 0) ∧
    (∃ (s : State) (mb : MbId) (j : Job), Begun s mb 0x0919 j ∧ j.payload.length = 16 ∧ zeroAt j.payload 5 3 = true ∧ field j.payload 0 4 ≤ 65535 ∧
      (let v := field j.payload 8 8
      field j.payload 4 1 = 1 ∧ v < 2 ^ 48)) ∧
    (∃ (s : State) (mb : MbId) (j : Job), Begun s mb 0x0919 j ∧ j.payload.length = 16 ∧ zeroAt j.payload 5 3 = true ∧ field j.payload 0 4 ≤ 65535 ∧ field
      j.payload 4 1 = 2) :=
  ⟨⟨on 0x0910 (zeros 8) (remote [conn2] [window1]), 0, job 0x0910 (zeros 8), 0, ⟨by decide +kernel, by decide +kernel, by decide +kernel, by decide +kernel, fun i h => absurd h (Nat.not_lt_zero i), by decide +kernel⟩⟩,
   ⟨on 0x0911 (pay [(8, 2)]) ({ remote [] [] with rdm := { live.rdm with pds := [1, 2] } }), 0, job 0x0911 (pay [(8, 2)]), by decide +kernel⟩,
   ⟨on 0x0912 (pay [(4, 1), (4, 0), (8, 0x20000), (8, 4096)]) (remote [conn2] [window1]), 0, job 0x0912 (pay [(4, 1), (4, 0), (8, 0x20000), (8, 4096)]), by decide +kernel⟩,
   ⟨on 0x0913 (pay [(8, 2)]) (remote [conn2] [window1]), 0, job 0x0913 (pay [(8, 2)]), by decide +kernel⟩,
   ⟨on 0x0914 (pay [(4, 1), (1, 1), (1, 3), (2, 0), (8, 0), (8, 256), (4, 0), (4, 2 ^ 32 - 1)]) (remote [conn2] [window1]), 0, job 0x0914 (pay [(4, 1), (1, 1), (1, 3), (2, 0), (8, 0), (8, 256), (4, 0), (4, 2 ^ 32 - 1)]), { window1 with index := 0, gen := 0 }, 1, by decide +kernel⟩,
   ⟨on 0x0915 (pay [(8, 1)]) (remote [conn2] [window1]), 0, job 0x0915 (pay [(8, 1)]), window1, by decide +kernel⟩,
   ⟨remote [conn2] [revoked], 1, revoked, by decide +kernel⟩,
   ⟨remote [{ conn2 with order := [read1] }] [revoked], 1, revoked, by decide +kernel⟩,
   ⟨crowded (List.replicate 65536 conn1), 0, job 0x0916 opensConn, ⟨rfl, rfl⟩, (show connBad (crowded _) _ = connBad (crowded []) _ from rfl).trans (by decide +kernel), by decide +kernel,
    by decide +kernel, by rw [show (crowded (List.replicate 65536 conn1)).rdm.conns = List.replicate 65536 conn1 from rfl, List.length_replicate]; decide,
    crowded_full _ List.length_replicate⟩,
   ⟨on 0x0916 opensConn (remote [conn2] [window1]), 0, job 0x0916 opensConn, by decide +kernel⟩,
   ⟨on 0x0917 (pay [(8, 3)]) (remote [conn2] [window1]), 0, job 0x0917 (pay [(8, 3)]), by decide +kernel⟩,
   ⟨on 0x0918 (pay [(8, 3)]) (remote [conn2] [window1]), 0, job 0x0918 (pay [(8, 3)]), conn2, by decide +kernel⟩,
   ⟨on 0x0919 (pay [(4, 7), (4, 0), (8, 5)]) (remote [conn2] [window1]), 0, job 0x0919 (pay [(4, 7), (4, 0), (8, 5)]), by decide +kernel⟩,
   ⟨on 0x0919 (pay [(4, 7), (4, 1), (8, 5)]) (remote [conn2] [window1]), 0, job 0x0919 (pay [(4, 7), (4, 1), (8, 5)]), by decide +kernel⟩,
   ⟨on 0x0919 (pay [(4, 7), (4, 2), (8, 5)]) (remote [conn2] [window1]), 0, job 0x0919 (pay [(4, 7), (4, 2), (8, 5)]), by decide +kernel⟩⟩

/-- Descriptors of a request and of a receive of the connection. -/
def rdesc (op flags len region threshold : Nat) : FDesc :=
  desc 4 (pay [(1, 0x30), (1, op), (2, flags), (4, 3), (8, 0x10000), (4, len), (4, region), (8, 0), (4, 5), (4, 0), (8, 0), (4, 0), (4, 0), (8, threshold)])
def vdesc (region : Nat) : FDesc := desc 4 (pay [(1, 0x31), (1, 0), (2, 0), (4, 3), (8, 0x10000), (4, 64), (4, region), (16, 0), (8, 77), (16, 0)])
def asking (c : Conn) (f : FDesc) : State :=
  { remote [c] [window1] with buf := { (remote [c] [window1]).buf with descs := [f] } }
def behind : State :=
  { asking conn2 (rdesc 3 0 16 1 0) with buf := { (asking conn2 (rdesc 3 0 16 1 0)).buf with descs := [rdesc 3 0 16 1 0, { rdesc 3 0 16 1 0 with id := 1 }] } }
/-- Requests that the module has sent, and a connection whose context is away. -/
def out1 : Outgoing := { desc := 0, op := 3, psn := 0, psnEnd := 0, bytes := 16, got := 0 }
def out2 : Outgoing := { desc := 0, op := 5, psn := 0, psnEnd := 0, bytes := 16, got := 0 }
def sender : Conn := { conn2 with sendPsn := 1, outgoing := [out1] }
def reader : Conn := { conn2 with sendPsn := 1, outgoing := [out2] }
def away : Conn := { conn2 with cached := false, missQueue := [.cnp] }

/-- Inputs that meet the hypotheses of RemoteMemoryRequests, clause by clause. -/
theorem witness_remoteMemoryRequests :
    (∃ (s : State) (n : Nat) (bad : List MemFail) (i : Instr) (f : FDesc), descAt s n = some f ∧ f.fn = 4 ∧ field f.bytes 0 1 = 0x30 ∧ f.taken = false ∧
      f.entry = none ∧
      (let op := field f.bytes 1 1
      
      (let triggered := bit (field f.bytes 2 2) 1
      ((i, op) ∈ [(.rdmSend ⟨n, bad⟩, 1), (.rdmSendImm ⟨n, bad⟩, 2), (.rdmWrite ⟨n, bad⟩, 3), (.rdmWriteImm ⟨n, bad⟩, 4), (.rdmRead n, 5)] ∨ (i =
      .triggeredRequestFire ⟨n, bad⟩ ∧ triggered = true)) ∧ earlierFired s f = false))) ∧
    (∃ (s : State) (n : Nat) (bad : List MemFail) (i : Instr) (f : FDesc), descAt s n = some f ∧ f.fn = 4 ∧ field f.bytes 0 1 = 0x30 ∧ f.taken = false ∧
      f.entry = none ∧
      (let op := field f.bytes 1 1
      
      (let triggered := bit (field f.bytes 2 2) 1
      ((i, op) ∈ [(.rdmSend ⟨n, bad⟩, 1), (.rdmSendImm ⟨n, bad⟩, 2), (.rdmWrite ⟨n, bad⟩, 3), (.rdmWriteImm ⟨n, bad⟩, 4), (.rdmRead n, 5)] ∨ (i =
      .triggeredRequestFire ⟨n, bad⟩ ∧ triggered = true)) ∧ earlierFired s f = true ∧ requestBad s f = true))) ∧
    (∃ (s : State) (n : Nat) (bad : List MemFail) (i : Instr) (f : FDesc) (c : Conn) (r : Region), descAt s n = some f ∧ f.fn = 4 ∧ field f.bytes 0 1 =
      0x30 ∧ f.taken = false ∧ f.entry = none ∧
      (let op := field f.bytes 1 1
      
      (let h := field f.bytes 4 4
      
      (let triggered := bit (field f.bytes 2 2) 1
      ((i, op) ∈ [(.rdmSend ⟨n, bad⟩, 1), (.rdmSendImm ⟨n, bad⟩, 2), (.rdmWrite ⟨n, bad⟩, 3), (.rdmWriteImm ⟨n, bad⟩, 4), (.rdmRead n, 5)] ∨ (i =
      .triggeredRequestFire ⟨n, bad⟩ ∧ triggered = true)) ∧ earlierFired s f = true ∧ requestBad s f = false ∧ connAt s h = some c ∧ regionAt s (field
      f.bytes 0x14 4) = some r ∧ c.error = true)))) ∧
    (∃ (s : State) (n : Nat) (bad : List MemFail) (i : Instr) (f : FDesc) (c : Conn) (r : Region), descAt s n = some f ∧ f.fn = 4 ∧ field f.bytes 0 1 =
      0x30 ∧ f.taken = false ∧ f.entry = none ∧
      (let op := field f.bytes 1 1
      
      (let h := field f.bytes 4 4
      
      (let triggered := bit (field f.bytes 2 2) 1
      
      (let ready := mapGet s.rdm.triggers (field f.bytes 0x30 4) ≥ field f.bytes 0x38 8
      ((i, op) ∈ [(.rdmSend ⟨n, bad⟩, 1), (.rdmSendImm ⟨n, bad⟩, 2), (.rdmWrite ⟨n, bad⟩, 3), (.rdmWriteImm ⟨n, bad⟩, 4), (.rdmRead n, 5)] ∨ (i =
      .triggeredRequestFire ⟨n, bad⟩ ∧ triggered = true)) ∧ earlierFired s f = true ∧ requestBad s f = false ∧ connAt s h = some c ∧ regionAt s (field
      f.bytes 0x14 4) = some r ∧ c.error = false ∧ ((triggered = true ∧ ¬ready) ∨ (op = 5 ∧ 16 ≤ readsOut s h))))))) ∧
    (∃ (s : State) (n : Nat) (bad : List MemFail) (i : Instr) (f : FDesc) (c : Conn) (r : Region), descAt s n = some f ∧ f.fn = 4 ∧ field f.bytes 0 1 =
      0x30 ∧ f.taken = false ∧ f.entry = none ∧
      (let op := field f.bytes 1 1
      
      (let h := field f.bytes 4 4
      
      (let a := field f.bytes 8 8
      
      (let len := field f.bytes 0x10 4
      
      (let triggered := bit (field f.bytes 2 2) 1
      
      (let ready := mapGet s.rdm.triggers (field f.bytes 0x30 4) ≥ field f.bytes 0x38 8
      ((i, op) ∈ [(.rdmSend ⟨n, bad⟩, 1), (.rdmSendImm ⟨n, bad⟩, 2), (.rdmWrite ⟨n, bad⟩, 3), (.rdmWriteImm ⟨n, bad⟩, 4), (.rdmRead n, 5)] ∨ (i =
      .triggeredRequestFire ⟨n, bad⟩ ∧ triggered = true)) ∧ earlierFired s f = true ∧ requestBad s f = false ∧ connAt s h = some c ∧ regionAt s (field
      f.bytes 0x14 4) = some r ∧ c.error = false ∧ (triggered = true → ready) ∧ (op = 5 → readsOut s h < 16) ∧ (op = 5 ∨ len = 0 ∨ (r.host = false ∧
      (checkedRead bad a len s).2.1 = false))))))))) ∧
    (∃ (s : State) (n : Nat) (bad : List MemFail) (i : Instr) (f : FDesc) (c : Conn) (r : Region), descAt s n = some f ∧ f.fn = 4 ∧ field f.bytes 0 1 =
      0x30 ∧ f.taken = false ∧ f.entry = none ∧
      (let op := field f.bytes 1 1
      
      (let h := field f.bytes 4 4
      
      (let a := field f.bytes 8 8
      
      (let len := field f.bytes 0x10 4
      
      (let triggered := bit (field f.bytes 2 2) 1
      
      (let ready := mapGet s.rdm.triggers (field f.bytes 0x30 4) ≥ field f.bytes 0x38 8
      ((i, op) ∈ [(.rdmSend ⟨n, bad⟩, 1), (.rdmSendImm ⟨n, bad⟩, 2), (.rdmWrite ⟨n, bad⟩, 3), (.rdmWriteImm ⟨n, bad⟩, 4), (.rdmRead n, 5)] ∨ (i =
      .triggeredRequestFire ⟨n, bad⟩ ∧ triggered = true)) ∧ earlierFired s f = true ∧ requestBad s f = false ∧ connAt s h = some c ∧ regionAt s (field
      f.bytes 0x14 4) = some r ∧ c.error = false ∧ (triggered = true → ready) ∧ (op = 5 → readsOut s h < 16) ∧ op ≠ 5 ∧ len ≠ 0 ∧ r.host = false ∧
      (checkedRead bad a len s).2.1 = true))))))) ∧
    (∃ (s : State) (n : Nat) (bad : List MemFail) (i : Instr) (f : FDesc) (c : Conn) (r : Region), descAt s n = some f ∧ f.fn = 4 ∧ field f.bytes 0 1 =
      0x30 ∧ f.taken = false ∧ f.entry = none ∧
      (let op := field f.bytes 1 1
      
      (let h := field f.bytes 4 4
      
      (let len := field f.bytes 0x10 4
      
      (let triggered := bit (field f.bytes 2 2) 1
      
      (let ready := mapGet s.rdm.triggers (field f.bytes 0x30 4) ≥ field f.bytes 0x38 8
      ((i, op) ∈ [(.rdmSend ⟨n, bad⟩, 1), (.rdmSendImm ⟨n, bad⟩, 2), (.rdmWrite ⟨n, bad⟩, 3), (.rdmWriteImm ⟨n, bad⟩, 4), (.rdmRead n, 5)] ∨ (i =
      .triggeredRequestFire ⟨n, bad⟩ ∧ triggered = true)) ∧ earlierFired s f = true ∧ requestBad s f = false ∧ connAt s h = some c ∧ regionAt s (field
      f.bytes 0x14 4) = some r ∧ c.error = false ∧ (triggered = true → ready) ∧ (op = 5 → readsOut s h < 16) ∧ op ≠ 5 ∧ len ≠ 0 ∧ r.host = true)))))) ∧
    (∃ (s : State) (n : Nat) (f : FDesc), descAt s n = some f ∧ f.fn = 4 ∧ field f.bytes 0 1 = 0x31 ∧ f.taken = false ∧ f.entry = none ∧ receiveBad s f =
      true) ∧
    (∃ (s : State) (n : Nat) (f : FDesc) (c : Conn), descAt s n = some f ∧ f.fn = 4 ∧ field f.bytes 0 1 = 0x31 ∧ f.taken = false ∧ f.entry = none ∧
      receiveBad s f = false ∧ connAt s (field f.bytes 4 4) = some c ∧ c.error = true) ∧
    (∃ (s : State) (n : Nat) (f : FDesc) (c : Conn), descAt s n = some f ∧ f.fn = 4 ∧ field f.bytes 0 1 = 0x31 ∧ f.taken = false ∧ f.entry = none ∧
      receiveBad s f = false ∧ connAt s (field f.bytes 4 4) = some c ∧ c.error = false) ∧
    (∃ (s : State) (conn : Nat) (c : Conn), connAt s conn = some c ∧ c.error = false) ∧
    (∃ (s : State) (conn : Nat) (c : Conn), connAt s conn = some c ∧ c.error = false ∧ c.rnrWait = true) ∧
    (∃ (s : State) (conn : Nat) (c : Conn), connAt s conn = some c ∧ c.error = false ∧ c.outgoing ≠ [] ∧ c.rnrWait = false) ∧
    (∃ (s : State) (conn : Nat) (c : Conn), connAt s conn = some c ∧ c.error = false ∧ (c.outgoing = [] ∨ c.rnrWait = true)) ∧
    (∃ (s : State) (conn : Nat) (c : Conn), connAt s conn = some c ∧ c.error = false ∧ c.rnrWait = false) ∧
    (∃ (s : State) (conn : Nat) (c : Conn), connAt s conn = some c ∧ (c.cached = true ∨ c.missQueue = [])) ∧
    (∃ (s : State) (conn : Nat) (c : Conn), connAt s conn = some c ∧ c.cached = false ∧ c.missQueue ≠ []) :=
  ⟨⟨behind, 1, [], Instr.rdmWrite ⟨1, []⟩, { rdesc 3 0 16 1 0 with id := 1 }, by decide +kernel⟩,
   ⟨asking conn2 (rdesc 3 0 16 9 0), 0, [], Instr.rdmWrite ⟨0, []⟩, rdesc 3 0 16 9 0, by decide +kernel⟩,
   ⟨asking { conn2 with error := true } (rdesc 3 0 16 1 0), 0, [], Instr.rdmWrite ⟨0, []⟩, rdesc 3 0 16 1 0, { conn2 with error := true }, region1, by decide +kernel⟩,
   ⟨asking conn2 (rdesc 3 2 16 1 5), 0, [], Instr.triggeredRequestFire ⟨0, []⟩, rdesc 3 2 16 1 5, conn2, region1, by decide +kernel⟩,
   ⟨asking conn2 (rdesc 3 0 16 1 0), 0, [], Instr.rdmWrite ⟨0, []⟩, rdesc 3 0 16 1 0, conn2, region1, by decide +kernel⟩,
   ⟨{ asking conn2 (rdesc 3 0 16 1 0) with mem := { live.mem with poison := [0x10000 / 64] } }, 0, [], Instr.rdmWrite ⟨0, []⟩, rdesc 3 0 16 1 0, conn2, region1, by decide +kernel⟩,
   ⟨asking conn2 (rdesc 3 0 16 2 0), 0, [], Instr.rdmWrite ⟨0, []⟩, rdesc 3 0 16 2 0, conn2, region2, by decide +kernel⟩,
   ⟨asking conn2 (vdesc 9), 0, vdesc 9, by decide +kernel⟩,
   ⟨asking { conn2 with error := true } (vdesc 1), 0, vdesc 1, { conn2 with error := true }, by decide +kernel⟩,
   ⟨asking conn2 (vdesc 1), 0, vdesc 1, conn2, by decide +kernel⟩,
   ⟨remote [sender] [], 3, sender, by decide +kernel⟩,
   ⟨remote [{ sender with rnrWait := true }] [], 3, { sender with rnrWait := true }, by decide +kernel⟩,
   ⟨asking sender (rdesc 3 0 16 1 0), 3, sender, by decide +kernel⟩,
   ⟨remote [conn2] [], 3, conn2, by decide +kernel⟩,
   ⟨remote [conn2] [], 3, conn2, by decide +kernel⟩,
   ⟨remote [conn2] [], 3, conn2, by decide +kernel⟩,
   ⟨remote [away] [window1], 3, away, by decide +kernel⟩⟩

/-- Packets of a write and a read through the window. -/
def writes : RocePacket := { carried with dmaLen := 4, data := [1, 2, 3, 4] }
def reads : RocePacket := { carried with op := .read, dmaLen := 16, data := [] }
def lastWrite : Incoming := { flying with final := true, staged := none, len := 4, done := 4, held := [(0, [1, 2, 3, 4], [])] }
def relaxedConn : Conn := { conn2 with relaxed := true, expPsn := 1, order := [lastWrite] }

/-- Inputs that meet the hypotheses of RemoteMemoryTraffic, clause by clause. -/
theorem witness_remoteMemoryTraffic :
    (∃ (s : State) (p : RocePacket), portDelivers s p.port.val = false) ∧
    (∃ (s : State) (p : RocePacket), portDelivers s p.port.val = true ∧ connOf s p.qpn = none ∧ s.rdm.waiting = []) ∧
    (∃ (s : State) (p : RocePacket) (c : Conn), ∃ w r, portDelivers s p.port.val = true ∧ connOf s p.qpn = some c ∧ connAt s c.handle = some c ∧ c.error =
      false ∧ c.cached = true ∧ channelHeld s p.port.val c = false ∧ p.first = true ∧ p.last = true ∧ p.psn = c.expPsn ∧ p.psn < 2 ^ 24 ∧ c.incoming =
      none ∧ c.order = [] ∧ packetFits c p 0 p.dmaLen = true ∧ (¬(c.relaxed = true ∧ p.final = true)) ∧ p.op = .write ∧ keyCheck s c .write p.rkey
      p.va p.dmaLen = some w ∧ w.summing = false ∧ regionAt s w.region = some r ∧ (memWrite (r.addr + w.offset + p.va) p.data s).1 = .ok ∧ p.bad = []
      ∧ s.mbx.ring = none) ∧
    (∃ (s : State) (p : RocePacket) (c : Conn), ∃ w r, portDelivers s p.port.val = true ∧ connOf s p.qpn = some c ∧ connAt s c.handle = some c ∧ c.error =
      false ∧ c.cached = true ∧ channelHeld s p.port.val c = false ∧ p.first = true ∧ p.last = true ∧ p.psn = c.expPsn ∧ p.psn < 2 ^ 24 ∧ c.incoming =
      none ∧ c.order = [] ∧ packetFits c p 0 p.dmaLen = true ∧ (¬(c.relaxed = true ∧ p.final = true)) ∧ p.op = .read ∧ keyCheck s c .read p.rkey p.va
      p.dmaLen = some w ∧ regionAt s w.region = some r ∧ 0 < p.dmaLen ∧ p.dmaLen ≤ mtuBytes c ∧ (checkedRead p.fails (r.addr + w.offset + p.va)
      p.dmaLen s).2.1 = false ∧ s.mbx.ring = none) ∧
    (∃ (s : State) (p : RocePacket) (c : Conn), portDelivers s p.port.val = true ∧ connOf s p.qpn = some c ∧ connAt s c.handle = some c ∧ c.error = false
      ∧ c.cached = true ∧ channelHeld s p.port.val c = false ∧ p.first = true ∧ p.last = true ∧ p.psn = c.expPsn ∧ p.psn < 2 ^ 24 ∧ c.incoming = none
      ∧ c.order = [] ∧ packetFits c p 0 p.dmaLen = true ∧ (¬(c.relaxed = true ∧ p.final = true)) ∧ (p.op = .write ∨ p.op = .writeImm ∨ p.op = .read) ∧
      keyCheck s c p.op p.rkey p.va p.dmaLen = none ∧ c.cx = true) ∧
    (∃ (s : State) (conn psn : Nat) (c : Conn) (m : Incoming), connAt s conn = some c ∧ c.order = [m] ∧ m.psn = psn ∧ waitsFinal c m = true ∧ m.staged =
      none ∧ m.status = none ∧ c.cx = true) ∧
    (∃ (s : State) (qpn psn : Nat) (c : Conn), ∃ i a, connOf s qpn = some c ∧ connAt s c.handle = some c ∧ portDelivers s c.port.val = true ∧ channelHeld
      s c.port.val c = false ∧ (i, a) ∈ [(Instr.roceAckReceive qpn psn none, Arrival.ack psn none), (.roceNakReceive qpn psn .remoteAccess, .nak psn
      .remoteAccess), (.psnSequenceNakReceive qpn psn, .seqNak psn), (.rnrNakReceive qpn psn 0, .rnrNak psn), (.cnpReceive qpn, .cnp)] ∧ c.error =
      true) ∧
    (∃ (s : State) (qpn psn : Nat) (c : Conn), ∃ i a, connOf s qpn = some c ∧ connAt s c.handle = some c ∧ portDelivers s c.port.val = true ∧ channelHeld
      s c.port.val c = false ∧ (i, a) ∈ [(Instr.roceAckReceive qpn psn none, Arrival.ack psn none), (.roceNakReceive qpn psn .remoteAccess, .nak psn
      .remoteAccess), (.psnSequenceNakReceive qpn psn, .seqNak psn), (.rnrNakReceive qpn psn 0, .rnrNak psn), (.cnpReceive qpn, .cnp)] ∧ c.error =
      false ∧ c.cached = false ∧ c.missQueue.length < 64 ∧ sumNat (s.rdm.conns.map (·.missQueue.length)) < 4096) ∧
    (∃ (s : State) (qpn : Nat) (c : Conn), connOf s qpn = some c ∧ connAt s c.handle = some c ∧ portDelivers s c.port.val = true ∧ channelHeld s
      c.port.val c = false ∧ c.error = false ∧ c.cached = true) ∧
    (∃ (s : State) (qpn psn : Nat) (c : Conn), connOf s qpn = some c ∧ connAt s c.handle = some c ∧ portDelivers s c.port.val = true ∧ channelHeld s
      c.port.val c = false ∧ c.error = false ∧ c.cached = true ∧ c.outgoing ≠ [] ∧ psnIn c.una (psnAdd c.sendPsn (2 ^ 24 - 1)) psn = true) ∧
    (∃ (s : State) (qpn psn : Nat) (c : Conn), connOf s qpn = some c ∧ connAt s c.handle = some c ∧ portDelivers s c.port.val = true ∧ channelHeld s
      c.port.val c = false ∧ c.error = false ∧ c.cached = true ∧ (c.outgoing = [] ∨ psnIn c.una (psnAdd c.sendPsn (2 ^ 24 - 1)) psn = false)) ∧
    (∃ (s : State) (qpn psn : Nat) (c : Conn), ∃ o, connOf s qpn = some c ∧ connAt s c.handle = some c ∧ portDelivers s c.port.val = true ∧ channelHeld s
      c.port.val c = false ∧ c.error = false ∧ c.cached = true ∧ outAt c psn = some o) ∧
    (∃ (s : State) (qpn psn : Nat) (c : Conn), ∃ o, connOf s qpn = some c ∧ connAt s c.handle = some c ∧ portDelivers s c.port.val = true ∧ channelHeld s
      c.port.val c = false ∧ c.error = false ∧ c.cached = true ∧ outAt c psn = some o) ∧
    (∃ (s : State) (qpn psn : Nat) (c : Conn), ∃ o, connOf s qpn = some c ∧ connAt s c.handle = some c ∧ portDelivers s c.port.val = true ∧ channelHeld s
      c.port.val c = false ∧ c.error = false ∧ c.cached = true ∧ outAt c psn = some o) ∧
    (∃ (s : State) (qpn psn : Nat) (c : Conn), ∃ o, connOf s qpn = some c ∧ connAt s c.handle = some c ∧ portDelivers s c.port.val = true ∧ channelHeld s
      c.port.val c = false ∧ c.error = false ∧ c.cached = true ∧ outAt c psn = some o) ∧
    (∃ (s : State) (qpn psn : Nat) (c : Conn), ∃ o, ∃ (data : Bytes) (f : FDesc) (r : Region), connOf s qpn = some c ∧ connAt s c.handle = some c ∧
      portDelivers s c.port.val = true ∧ channelHeld s c.port.val c = false ∧ c.error = false ∧ c.cached = true ∧ outAt c psn = some o ∧ c.outgoing =
      [o] ∧ o.op = 5 ∧ psn = psnAdd o.psn (o.got / mtuBytes c) ∧ descAt s o.desc = some f ∧ regionAt s (field f.bytes 0x14 4) = some r ∧ data ≠ [] ∧
      o.got + data.length ≤ o.bytes) :=
  ⟨⟨{ remote [conn2] [window1] with ports := live.ports }, writes, by decide +kernel⟩,
   ⟨remote [] [window1], writes, by decide +kernel⟩,
   ⟨remote [conn2] [window1], writes, conn2, window1, region1, by decide +kernel⟩,
   ⟨remote [conn2] [window1], reads, conn2, window1, region1, by decide +kernel⟩,
   ⟨remote [conn2] [window1], { writes with rkey := 7 }, conn2, by decide +kernel⟩,
   ⟨remote [relaxedConn] [window1], 3, 0, relaxedConn, lastWrite, by decide +kernel⟩,
   ⟨remote [{ sender with error := true }] [], 2, 0, { sender with error := true }, Instr.cnpReceive 2, Arrival.cnp, by decide +kernel⟩,
   ⟨remote [{ sender with cached := false }] [], 2, 0, { sender with cached := false }, Instr.cnpReceive 2, Arrival.cnp, by decide +kernel⟩,
   ⟨asking sender (rdesc 3 0 16 1 0), 2, sender, by decide +kernel⟩,
   ⟨asking sender (rdesc 3 0 16 1 0), 2, 0, sender, by decide +kernel⟩,
   ⟨remote [conn2] [], 2, 0, conn2, by decide +kernel⟩,
   ⟨asking sender (rdesc 3 0 16 1 0), 2, 0, sender, out1, by decide +kernel⟩,
   ⟨asking sender (rdesc 3 0 16 1 0), 2, 0, sender, out1, by decide +kernel⟩,
   ⟨asking sender (rdesc 3 0 16 1 0), 2, 0, sender, out1, by decide +kernel⟩,
   ⟨asking sender (rdesc 3 0 16 1 0), 2, 0, sender, out1, by decide +kernel⟩,
   ⟨asking reader (rdesc 5 0 16 2 0), 2, 0, reader, out2, [1, 2, 3, 4], rdesc 5 0 16 2 0, region2, by decide +kernel⟩⟩

/-- The completion ring of the work ring, and a state that holds both. -/
def cring4 : CRing :=
  { num := 0, fn := 4, hbm := true, k := 4, coalesce := 0, vector := 7, base := 0x180000, tail := 0x190000, producer := 5, consumer := 0, reserved := 0
    irqOpen := true, irqPending := false }
def rings (w : List WRing) (c : List CRing) (f : List FDesc) : State :=
  { remote [conn2] [window1] with buf := { live.buf with wrings := w, crings := c, descs := f } }
def pair : State := rings [ring4] [cring4] []
def drainedRing : WRing := { ring4 with state := 4, destroyer := some (0, 0) }
def posted : WRing := { ring4 with hbm := false, producer := 1 }
def stored : State := { rings [{ ring4 with producer := 1 }] [cring4] [] with mem := { live.mem with cells := cellWrite [] 0x100000 (rdesc 3 0 16 1 0).bytes } }

/-- Inputs that meet the hypotheses of WorkAndCompletionRings, clause by clause. -/
theorem witness_workAndCompletionRings :
    (∃ (s : State) (mb : MbId) (j : Job) (n : Nat), Begun s mb 0x0A01 j ∧ j.payload.length = 16 ∧ field j.payload 3 1 = 0 ∧ field j.payload 6 2 = 0 ∧
      (let fn := field j.payload 0 1
      
      (let k := field j.payload 2 1
      ownsRings fn = true ∧ 4 ≤ k ∧ k ≤ 16 ∧ (cringAt s (field j.payload 4 2)).any (fun c => c.fn == fn) = true ∧ ringBaseBad s (field j.payload 1 1) (field
      j.payload 8 8) (64 * 2 ^ k) = false ∧ quiesced s fn = false ∧ fenced s fn = false ∧ n < 8192 ∧ (∀ i < n, ∃ w ∈ s.buf.wrings, w.num = i) ∧ (∀ w ∈
      s.buf.wrings, w.num ≠ n)))) ∧
    (∃ (s : State) (mb : MbId) (j : Job) (n : Nat), Begun s mb 0x0A03 j ∧ j.payload.length = 24 ∧ field j.payload 6 2 = 0 ∧
      (let fn := field j.payload 0 1
      
      (let k := field j.payload 2 1
      
      (let v := field j.payload 4 2
      ownsRings fn = true ∧ 4 ≤ k ∧ k ≤ 16 ∧ (v < 2048 ∨ v = 0xFFFF) ∧ ringBaseBad s (field j.payload 1 1) (field j.payload 8 8) (32 * 2 ^ k) = false ∧
      tailBad s (field j.payload 16 8) = false ∧ quiesced s fn = false ∧ fenced s fn = false ∧ n < 8192 ∧ (∀ i < n, ∃ c ∈ s.buf.crings, c.num = i) ∧
      (∀ c ∈ s.buf.crings, c.num ≠ n))))) ∧
    (∃ (s : State) (mb : MbId) (j : Job) (w : WRing), j.payload.length = 8 ∧ zeroAt j.payload 2 6 = true ∧ wringAt s (field j.payload 0 2) = some w ∧
      Begun s mb 0x0A02 j ∧ jobAt s j.order = some j ∧ (w.state = 1 ∨ w.state = 2) ∧ drained s w = true) ∧
    (∃ (s : State) (mb : MbId) (j : Job) (w : WRing), j.payload.length = 8 ∧ zeroAt j.payload 2 6 = true ∧ wringAt s (field j.payload 0 2) = some w ∧
      Begun s mb 0x0A02 j ∧ jobAt s j.order = some j ∧ (w.state = 1 ∨ w.state = 2) ∧ drained s w = false) ∧
    (∃ (s : State) (mb : MbId) (j : Job) (w : WRing), j.payload.length = 8 ∧ zeroAt j.payload 2 6 = true ∧ wringAt s (field j.payload 0 2) = some w ∧
      Begun s mb 0x0A05 j) ∧
    (∃ (s : State) (mb : MbId) (j : Job), Begun s mb 0x0A04 j ∧ j.payload.length = 8 ∧ zeroAt j.payload 2 6 = true ∧ (cringAt s (field j.payload 0
      2)).isSome = true ∧ (∀ w ∈ s.buf.wrings, w.cring ≠ field j.payload 0 2)) ∧
    (∃ (s : State) (mb : MbId) (j : Job), Begun s mb 0x0A06 j ∧ j.payload.length = 8 ∧ zeroAt j.payload 2 6 = true ∧ 1 ≤ field j.payload 0 1 ∧ field
      j.payload 0 1 ≤ 4 ∧ field j.payload 1 1 = 0) ∧
    (∃ (s : State) (mb : MbId) (j : Job), Begun s mb 0x0A06 j ∧ j.payload.length = 8 ∧ zeroAt j.payload 2 6 = true ∧ 1 ≤ field j.payload 0 1 ∧ field
      j.payload 0 1 ≤ 4 ∧ field j.payload 1 1 = 1 ∧ fnIdle s (field j.payload 0 1) = true ∧ (∀ f ∈ s.buf.descs, f.fn ≠ field j.payload 0 1)) ∧
    (∃ (s : State) (wring m o : Nat) (w : WRing) (j : Job), wringAt s wring = some w ∧ w.state = 4 ∧ drained s w = true ∧ firmwareRuns s = true ∧
      w.destroyer = some (m, o) ∧ jobAt s o = some j) ∧
    (∃ (s : State) (fn : FnId) (secure : Bool) (ring : Nat) (v : BitVec 64), ∃ w, HostWrites s secure ∧ ownsRings fn.val = true ∧
      (let p := v.toNat % 2 ^ 32
      
      (let off := quiesced s fn.val || s.life.removal.isSome
      wringAt s ring = some w ∧ w.fn = fn.val ∧ off = false ∧ fenced s fn.val = false ∧ (p + 2 ^ 32 - w.fetch) % 2 ^ 32 ≤ 2 ^ w.k))) ∧
    (∃ (s : State) (fn : FnId) (secure : Bool) (ring : Nat) (v : BitVec 64), HostWrites s secure ∧ ownsRings fn.val = true ∧
      (let p := v.toNat % 2 ^ 32
      
      (let off := quiesced s fn.val || s.life.removal.isSome
      (wringAt s ring = none ∨ off = true ∨ fenced s fn.val = true ∨ (∃ w, wringAt s ring = some w ∧ (w.fn ≠ fn.val ∨ p ≠ w.producer ∧ 2 ^ w.k < (p + 2 ^ 32
      - w.fetch) % 2 ^ 32)))))) ∧
    (∃ (s : State) (fn : FnId) (secure : Bool) (ring : Nat) (v : BitVec 64), ∃ c, HostWrites s secure ∧ ownsRings fn.val = true ∧
      (let p := v.toNat % 2 ^ 32
      
      (let off := quiesced s fn.val || s.life.removal.isSome
      cringAt s ring = some c ∧ c.fn = fn.val ∧ off = false ∧ (p + 2 ^ 32 - c.consumer) % 2 ^ 32 ≤ (c.producer + 2 ^ 32 - c.consumer) % 2 ^ 32))) ∧
    (∃ (s : State) (fn : FnId) (secure : Bool) (ring : Nat) (v : BitVec 64), HostWrites s secure ∧ ownsRings fn.val = true ∧
      (let p := v.toNat % 2 ^ 32
      
      (let off := quiesced s fn.val || s.life.removal.isSome
      (cringAt s ring = none ∨ off = true ∨ (∃ c, cringAt s ring = some c ∧ (c.fn ≠ fn.val ∨ p ≠ c.consumer ∧ (c.producer + 2 ^ 32 - c.consumer) % 2 ^ 32 <
      (p + 2 ^ 32 - c.consumer) % 2 ^ 32)))))) ∧
    (∃ (s : State) (fn : FnId) (w : WRing), fenced s fn.val = false ∧ s.life.removal = none ∧ nextRing s fn.val = some w ∧ w.hbm = false) ∧
    (∃ (s : State) (fn : FnId) (bad : List MemFail) (w : WRing), fenced s fn.val = false ∧ s.life.removal = none ∧ nextRing s fn.val = some w ∧
      (let a := w.base + 64 * (w.fetch % 2 ^ w.k)
      w.hbm = true ∧ (checkedRead bad a 64 s).2.1 = false ∧
      (let b := cellRead s.mem.cells a 64
      kindOk w.fn (field b 0 1) (field b 1 1) = true))) ∧
    (∃ (s : State) (n : Nat) (c : CRing), cringAt s n = some c ∧ c.irqPending = false) ∧
    (∃ (s : State) (n : Nat) (c : CRing), cringAt s n = some c ∧ c.irqPending = true) :=
  ⟨⟨on 0x0A01 (pay [(1, 4), (1, 1), (1, 4), (1, 0), (2, 0), (2, 0), (8, 2 ^ 63 + 0x200000)]) (pair), 0, job 0x0A01 (pay [(1, 4), (1, 1), (1, 4), (1, 0), (2, 0), (2, 0), (8, 2 ^ 63 + 0x200000)]), 1, by decide +kernel⟩,
   ⟨on 0x0A03 (pay [(1, 4), (1, 0), (1, 4), (1, 0), (2, 7), (2, 0), (8, 0x1000), (8, 0x2000)]) (pair), 0, job 0x0A03 (pay [(1, 4), (1, 0), (1, 4), (1, 0), (2, 7), (2, 0), (8, 0x1000), (8, 0x2000)]), 1, by decide +kernel⟩,
   ⟨on 0x0A02 (zeros 8) (pair), 0, job 0x0A02 (zeros 8), ring4, by decide +kernel⟩,
   ⟨on 0x0A02 (zeros 8) (rings [ring4] [cring4] [rdesc 3 0 16 1 0]), 0, job 0x0A02 (zeros 8), ring4, by decide +kernel⟩,
   ⟨on 0x0A05 (zeros 8) (pair), 0, job 0x0A05 (zeros 8), ring4, by decide +kernel⟩,
   ⟨on 0x0A04 (pay [(2, 1), (6, 0)]) (rings [ring4] [cring4, { cring4 with num := 1 }] []), 0, job 0x0A04 (pay [(2, 1), (6, 0)]), by decide +kernel⟩,
   ⟨on 0x0A06 (pay [(1, 1), (7, 0)]) (pair), 0, job 0x0A06 (pay [(1, 1), (7, 0)]), by decide +kernel⟩,
   ⟨on 0x0A06 (pay [(1, 1), (1, 1), (6, 0)]) (pair), 0, job 0x0A06 (pay [(1, 1), (1, 1), (6, 0)]), by decide +kernel⟩,
   ⟨on 0x0A02 (zeros 8) (rings [drainedRing] [cring4] []), 0, 0, 0, drainedRing, job 0x0A02 (zeros 8), by decide +kernel⟩,
   ⟨pair, 4, false, 0, 3, ring4, by decide +kernel⟩,
   ⟨pair, 4, false, 9, 3, by decide +kernel⟩,
   ⟨pair, 4, false, 0, 3, cring4, by decide +kernel⟩,
   ⟨pair, 4, false, 9, 3, by decide +kernel⟩,
   ⟨rings [posted] [cring4] [], 4, posted, by decide +kernel⟩,
   ⟨stored, 4, [], { ring4 with producer := 1 }, by decide +kernel⟩,
   ⟨pair, 0, cring4, by decide +kernel⟩,
   ⟨rings [ring4] [{ cring4 with irqPending := true }] [], 0, { cring4 with irqPending := true }, by decide +kernel⟩⟩

/-- Outside OWNED_OPEN, and a read of host memory that waits. -/
def covered : State := { live with life := { live.life with overlay := true } }
def hread : HostRead := { id := 0, fn := 4, addr := 0x1000, len := 64, head := 0, purpose := .descriptor 0 0, issued := true, got := [], arrived := none }
def longRead : HostRead := { hread with len := 8192 }
def awaited : State := { pair with hif := { pair.hif with reads := [hread] } }
def fnState (f : FnState) : State := { live with hif := { live.hif with fns := ⟨f, f, f, f, f⟩ } }

/-- Inputs that meet the hypotheses of HostInterface, clause by clause. -/
theorem witness_hostInterface :
    (∃ (s : State) (secure : Bool), HostReads s secure ∧ ownedOpen s = false) ∧
    (∃ (s : State) (fn : FnId) (off len : Nat) (secure : Bool), HostReads s secure ∧ ownedOpen s = true ∧ devOk s (bar2Addr s fn.val off) len = true ∧
      poisonedAt s (bar2Addr s fn.val off) len = false) ∧
    (∃ (s : State) (fn : FnId) (off len : Nat) (secure : Bool), HostReads s secure ∧ ownedOpen s = true ∧ devOk s (bar2Addr s fn.val off) len = false) ∧
    (∃ (s : State) (secure : Bool), HostReads s secure ∧ ownedOpen s = false) ∧
    (∃ (s : State) (fn : FnId) (off : Nat) (data : Bytes) (secure : Bool), HostReads s secure ∧
      (let a := bar2Addr s fn.val off
      ownedOpen s = true ∧ devOk s a data.length = true ∧ hbmReadable s = true ∧ (memWrite a data s).1 = .ok ∧ Memory.wf s = true)) ∧
    (∃ (s : State) (fn : FnId) (off : Nat) (data : Bytes) (secure : Bool), HostReads s secure ∧
      (let a := bar2Addr s fn.val off
      ownedOpen s = true ∧ devOk s a data.length = false)) ∧
    (∃ (s : State) (rid : Nat) (r : HostRead), s.hif.reads.find? (fun r => r.id == rid) = some r ∧ r.issued = true ∧ r.arrived = none ∧ readReady s r =
      true) ∧
    (∃ (s : State) (rid : Nat) (r : HostRead), s.hif.reads.find? (fun r => r.id == rid) = some r ∧ r.issued = true ∧ r.arrived = none ∧ readReady s r =
      true ∧ (∀ x ∈ s.hif.reads, x.fn = r.fn → x.issued = true)) ∧
    (∃ (s : State) (rid : Nat) (r : HostRead), ∃ b, s.hif.reads.find? (fun r => r.id == rid) = some r ∧ r.issued = true ∧ r.arrived = none ∧ readReady s r
      = true ∧
      (let got := r.got ++ fit (nextPiece s r) b
      (r.purpose = .abandoned ∨ r.len ≤ got.length))) ∧
    (∃ (s : State) (rid : Nat) (r : HostRead), ∃ b, s.hif.reads.find? (fun r => r.id == rid) = some r ∧ r.issued = true ∧ r.arrived = none ∧ readReady s r
      = true ∧
      (let got := r.got ++ fit (nextPiece s r) b
      r.purpose ≠ .abandoned ∧ got.length < r.len ∧ fnReady s r.fn = true ∧ (readEarly r.purpose got s).1 = false ∧
      (let v := (readEarly r.purpose got s).2
      fnReady v r.fn = true))) ∧
    (∃ (s : State) (rid : Nat) (r : HostRead), ∃ n k w, s.hif.reads.find? (fun r => r.id == rid) = some r ∧ r.issued = true ∧ r.arrived = none ∧ readReady
      s r = true ∧ r.purpose = .descriptor n k ∧ wringAt s n = some w ∧ w.state = 1 ∧ r.got = [] ∧ r.head = 0) ∧
    (∃ (s : State) (rid : Nat) (r : HostRead), ∃ n k w b, s.hif.reads.find? (fun r => r.id == rid) = some r ∧ r.issued = true ∧ r.arrived = none ∧
      readReady s r = true ∧ r.purpose = .descriptor n k ∧ wringAt s n = some w ∧ w.state = 1 ∧ r.got = [] ∧ r.head = 0 ∧ b.length = 64 ∧ kindOk w.fn
      (field b 0 1) (field b 1 1) = true ∧ r.len = 64) ∧
    (∃ (s : State) (fn : FnId), hostReach s = true ∧ (s.hif.tdi = .unlocked ∨ s.hif.tdi = .error) ∧ fn.val ≠ 0 ∧ fenced s fn.val = true) ∧
    (∃ (s : State) (fn : FnId), hostReach s = true ∧ (s.hif.tdi = .unlocked ∨ s.hif.tdi = .error) ∧ fn.val ≠ 0 ∧ fenced s fn.val = false ∧ quiesced s
      fn.val = true) ∧
    (∃ (s : State) (fn : FnId), hostReach s = true ∧ (s.hif.tdi = .unlocked ∨ s.hif.tdi = .error) ∧ fn.val ≠ 0 ∧ fenced s fn.val = false ∧ quiesced s
      fn.val = false) ∧
    (∃ (s : State) (c : Instr), hostReach s = true ∧ (c = .flrPf0 ∨ c = .flr 0) ∧ (s.hif.tdi = .unlocked ∨ s.hif.tdi = .error)) ∧
    (∃ (s : State), hostReach s = true ∧ (s.hif.tdi = .unlocked ∨ s.hif.tdi = .error)) ∧
    (∃ (s : State), hostReach s = true) ∧
    (∃ (s : State) (fn : FnId), hostReach s = true ∧
      (let tags := (s.hif.reads.filter (fun r => r.fn == fn.val)).length ≤ 1024
      (get5 s.hif.fns fn.val).d3hot = false ∧ tags)) ∧
    (∃ (s : State) (fn : FnId), hostReach s = true ∧
      (let tags := (s.hif.reads.filter (fun r => r.fn == fn.val)).length ≤ 1024
      (get5 s.hif.fns fn.val).bme = true ∧ tags)) ∧
    (∃ (s : State) (speed : Fin 5) (width : Fin 4), hostReach s = true ∧ speed ≠ 0 ∧ width ≠ 0) ∧
    (∃ (s : State), s.rst.railsOn = true ∧ debugLive s = true) ∧
    (∃ (s : State), ∃ t, s.rst.railsOn = true ∧ debugLive s = true ∧ firmwareRuns t = false) ∧
    (∃ (s : State) (core : Fin 4), s.rst.railsOn = true ∧ debugLive s = true ∧ get4 s.mbx.halted core.val = true) ∧
    (∃ (s : State), s.rst.railsOn = true ∧ debugLive s = true) ∧
    (∃ (s : State), ∃ off width, s.rst.railsOn = true ∧ debugLive s = true ∧ rightAccess 0 off width false = false ∧ downAt s 0 off = false) ∧
    (∃ (s : State), ∃ a len, s.rst.railsOn = true ∧ debugLive s = true ∧ devOk s a len = true ∧ poisonedAt s a len = false) ∧
    (∃ (s : State), ∃ a b, s.rst.railsOn = true ∧ debugLive s = true ∧ devOk s a b.length = true ∧ hbmReadable s = true ∧ (memWrite a b s).1 = .ok ∧
      Memory.wf s = true) ∧
    (∃ (s : State), s.rst.railsOn = true ∧ debugLive s = false) ∧
    (∃ (s : State), s.rst.railsOn = true) :=
  ⟨⟨covered, false, by decide +kernel⟩,
   ⟨live, 1, 0x10000, 8, false, by decide +kernel⟩,
   ⟨live, 1, 0xC000000000, 8, false, by decide +kernel⟩,
   ⟨covered, false, by decide +kernel⟩,
   ⟨live, 1, 0x10000, [1, 2], false, by decide +kernel⟩,
   ⟨live, 1, 0xC000000000, [1, 2], false, by decide +kernel⟩,
   ⟨awaited, 0, hread, by decide +kernel⟩,
   ⟨awaited, 0, hread, by decide +kernel⟩,
   ⟨awaited, 0, hread, [1], by decide +kernel⟩,
   ⟨{ pair with hif := { pair.hif with reads := [longRead] } }, 0, longRead, [1], by decide +kernel⟩,
   ⟨awaited, 0, hread, 0, 0, ring4, by decide +kernel⟩,
   ⟨awaited, 0, hread, 0, 0, ring4, (rdesc 3 0 16 1 0).bytes, by decide +kernel⟩,
   ⟨fnState { master with fenced := true }, 4, by decide +kernel⟩,
   ⟨fnState { master with quiesced := true }, 4, by decide +kernel⟩,
   ⟨pair, 4, by decide +kernel⟩,
   ⟨live, .flrPf0, by decide +kernel⟩,
   ⟨live, by decide +kernel⟩,
   ⟨live, by decide +kernel⟩,
   ⟨live, 1, by decide +kernel⟩,
   ⟨live, 1, by decide +kernel⟩,
   ⟨live, 4, 2, by decide +kernel⟩,
   ⟨live, by decide +kernel⟩,
   ⟨live, { live with mbx := { live.mbx with halted := ⟨true, true, true, true⟩ } }, by decide +kernel⟩,
   ⟨{ live with mbx := { live.mbx with halted := ⟨true, true, true, true⟩ } }, 0, by decide +kernel⟩,
   ⟨live, by decide +kernel⟩,
   ⟨live, 1, 3, by decide +kernel⟩,
   ⟨live, 0x10000, 8, by decide +kernel⟩,
   ⟨live, 0x10000, [1, 2], by decide +kernel⟩,
   ⟨covered, by decide +kernel⟩,
   ⟨live, by decide +kernel⟩⟩

/-- A requester that has negotiated, and one in a secured session. -/
def negotiated (session : Nat) : State := { live with hif := { live.hif with spdmPhase := 3, spdmSig := true, spdmKem := true, session := session } }
def programmed : IdeStream :=
  { secure := true, keySet := 1, keys := [(0, 0, 0), (0, 0, 1), (0, 0, 2), (0, 1, 0), (0, 1, 1), (0, 1, 2)] }
def attached (t : Tdi) : State :=
  { negotiated 2 with life := { live.life with stored := .ownedConfidential }
                      hif := { (negotiated 2).hif with tdi := t, linkIde := programmed, selIde := programmed } }

/-- Inputs that meet the hypotheses of ConfidentialAttachment, clause by clause. -/
theorem witness_confidentialAttachment :
    (∃ (s : State), securityUp s = true) ∧
    (∃ (s : State), securityUp s = true ∧ 1 ≤ s.hif.spdmPhase) ∧
    (∃ (s : State), ∃ a b, securityUp s = true ∧ 2 ≤ s.hif.spdmPhase ∧ (a || b) = true) ∧
    (∃ (s : State), securityUp s = true ∧ 3 ≤ s.hif.spdmPhase ∧ attestReady s = true) ∧
    (∃ (s : State), ∃ off, securityUp s = true ∧ 3 ≤ s.hif.spdmPhase ∧ attestReady s = true ∧ off < s.kst.chain.length) ∧
    (∃ (s : State), securityUp s = true ∧ 3 ≤ s.hif.spdmPhase ∧ attestReady s = true ∧ s.hif.spdmSig = true ∧ drbgGrants 1 3 s = true) ∧
    (∃ (s : State), securityUp s = true ∧ 3 ≤ s.hif.spdmPhase ∧ attestReady s = true ∧ s.hif.spdmSig = true ∧ drbgGrants 1 3 s = true) ∧
    (∃ (s : State), securityUp s = true ∧ 3 ≤ s.hif.spdmPhase ∧ attestReady s = true ∧ s.hif.spdmSig = true ∧ drbgGrants 1 3 s = true ∧ s.hif.spdmKem =
      true ∧ s.hif.session = 0 ∧ drbgGrants 2 3 s = true) ∧
    (∃ (s : State), securityUp s = true ∧ 3 ≤ s.hif.spdmPhase ∧ s.hif.session = 1) ∧
    (∃ (s : State), securityUp s = true ∧ s.hif.session = 2) ∧
    (∃ (s : State), securityUp s = true ∧ s.hif.session = 2) ∧
    (∃ (s : State) (stream : Fin 2) (n : Nat), securityUp s = true ∧ s.hif.session = 2 ∧ nextSet (streamOf s stream.val) = some n) ∧
    (∃ (s : State) (stream : Fin 2), securityUp s = true ∧ (streamOf s stream.val).secure = true) ∧
    (∃ (s : State), securityUp s = true ∧ s.hif.tdi = .unlocked ∧ ownedConfidential s = true ∧ s.hif.selIde.secure = true ∧ (∀ i < 5, fenced s i = false)) ∧
    (∃ (s : State), securityUp s = true ∧ (s.hif.tdi ≠ .unlocked ∨ ownedConfidential s = false ∨ s.hif.selIde.secure = false)) ∧
    (∃ (s : State), securityUp s = true ∧ s.hif.tdi = .locked) ∧
    (∃ (s : State), securityUp s = true ∧ (s.hif.tdi = .locked ∨ s.hif.tdi = .run)) :=
  ⟨⟨live, by decide +kernel⟩,
   ⟨negotiated 0, by decide +kernel⟩,
   ⟨negotiated 0, true, false, by decide +kernel⟩,
   ⟨negotiated 0, by decide +kernel⟩,
   ⟨negotiated 0, 0, by decide +kernel⟩,
   ⟨negotiated 0, by decide +kernel⟩,
   ⟨negotiated 0, by decide +kernel⟩,
   ⟨negotiated 0, by decide +kernel⟩,
   ⟨negotiated 1, by decide +kernel⟩,
   ⟨negotiated 2, by decide +kernel⟩,
   ⟨negotiated 2, by decide +kernel⟩,
   ⟨attached .unlocked, 0, 0, by decide +kernel⟩,
   ⟨attached .run, 1, by decide +kernel⟩,
   ⟨attached .unlocked, by decide +kernel⟩,
   ⟨live, by decide +kernel⟩,
   ⟨attached .locked, by decide +kernel⟩,
   ⟨attached .locked, by decide +kernel⟩⟩

end Sys2Proof.Tests
end

section
/-! Every command evolves the state: one lemma for each row of the opcode table, over the lemmas of the shared operations, and from
them the step invariant of R18, R22 and R349. -/

namespace Sys2Proof.Machine

/-- The command goes on, to a state that `s` evolves to. -/
def EvolvesTo (s : State) (o : Out) : Prop := ∃ t, o = .next t ∧ Evolves s t

section
variable {s t : State}

theorem EvolvesTo.next (h : Evolves s t) : EvolvesTo s (.next t) := ⟨t, rfl, h⟩

theorem EvolvesTo.of_next (h : EvolvesTo s (.next t)) : Evolves s t := by
  obtain ⟨u, e, hu⟩ := h
  cases e
  exact hu

theorem EvolvesTo.newJob {mb op : Nat} {f : Job → State} (hf : ∀ j, Evolves s (f j)) : EvolvesTo s (.next (onNewJob mb op s f)) :=
  .next (onNewJob_evolves _ _ _ (.refl s) hf)

theorem EvolvesTo.job {mb op : Nat} {f : Job → State} (hf : ∀ j, Evolves s (f j)) : EvolvesTo s (.next (onJob mb op s f)) :=
  .next (onJob_evolves _ _ _ (.refl s) hf)

theorem EvolvesTo.reads {m : MbReads} {op : Nat} {f : Job → State} (hf : ∀ j, Evolves s (f j)) : EvolvesTo s (.next (onReads m op s f)) :=
  .next (onReads_evolves _ _ _ (.refl s) hf)

theorem Evolves.rfl : Evolves s s := .refl s

theorem Evolves.answered {j : Job} {st : Status} : Evolves s (answer j st s) := answer_evolves _ _ .rfl

theorem Evolves.finished {j : Job} {st : Status} {b : Bytes} : Evolves s (finish j st b s) := finish_evolves _ _ _ .rfl

theorem Evolves.fetch {j : Job} {sigOk : Bool} {a n first : Nat} {early : Early} {data : Except Status Bytes → State → State}
    (hearly : ∀ b t, Evolves s t → Evolves s (early b t).2) (hdata : ∀ x t, Evolves s t → Evolves s (data x t)) :
    Evolves s (fetchSource j sigOk a n first early data s) :=
  fetchSource_evolves _ _ _ _ _ _ _ .rfl hearly hdata

theorem publish_evolves {r : State} (x : Action) (w : Worked) (upset : List (Nat × Bytes)) (p : Bool × State) (o : DatumName × Nat × Nat)
    (h : Evolves r p.2) : Evolves r (publish x w upset p o).2 := by
  unfold publish
  refine .ite_snd h ?_
  dsimp only
  have checked : ∀ {c d : Prop} [Decidable c] [Decidable d] (data : List Datum) (check : CheckDatum),
      Evolves r (if c then modPrs (fun q => { q with checks := insertCheck check q.checks })
        (if d then p.2 else modPrs (fun q => { q with data := q.data ++ data }) p.2)
        else if d then p.2 else modPrs (fun q => { q with data := q.data ++ data }) p.2) := fun data _ =>
    have added := Evolves.ite h (modPrs_evolves (fun q => { q with data := q.data ++ data }) h id)
    .ite (modPrs_evolves _ added id) added
  split
  · exact .foldl (fun _ _ => sendDatum_evolves _ _ _) _ (checked _ _)
  · exact checked _ _

/-- A unit's list of outputs is published one after another. -/
theorem publishAll_evolves {r : State} (x : Action) (w : Worked) (upset : List (Nat × Bytes)) (l : List (DatumName × Nat × Nat))
    (twice : Bool) (h : Evolves r s) : Evolves r (l.foldl (publish x w upset) (twice, s)).2 := by
  induction l generalizing twice s with
  | nil => exact h
  | cons o l ih => exact ih _ (publish_evolves x w upset (twice, s) o h)

/-! ## Registers and mailboxes -/

theorem execCommandDispatch_evolves (mb : MbId) : EvolvesTo s (execCommandDispatch mb s) := by
  refine .next ?_
  split
  · exact .rfl
  · refine .ite .rfl ?_
    split
    · exact .answered
    · exact .ite .answered <| modJob_evolves _ _ .rfl

theorem execIdentityGet_evolves (mb : MbId) : EvolvesTo s (execIdentityGet mb s) := by
  refine .newJob fun _ => .ite .answered ?_
  split
  · exact .finished
  · exact .ite .answered .rfl

theorem execEventRingSet_evolves (mb : MbId) : EvolvesTo s (execEventRingSet mb s) := by
  refine .job fun _ => ?_
  dsimp only
  split
  · exact .answered
  · exact answer_evolves _ _ <| postFallback_evolves <| modMbx_evolves _ .rfl id id

/-! ## Lifecycle and keys -/

theorem execOwnerClaim_evolves (mb : MbId) (sigOk : Bool) : EvolvesTo s (execOwnerClaim mb sigOk s) := by
  refine .newJob fun _ => ?_
  split
  · exact .answered
  · refine .ite .answered ?_
    split
    · exact .answered
    · exact changeState_evolves _ _ _ _ _ .rfl

theorem execModeSet_evolves (mb : MbId) (sigOk : Bool) : EvolvesTo s (execModeSet mb sigOk s) := by
  refine .newJob fun _ => ?_
  split
  · exact .answered
  · refine .ite .answered ?_
    split
    · exact .answered
    · exact changeState_evolves _ _ _ _ _ .rfl

theorem execOwnerRelease_evolves (mb : MbId) (sigOk : Bool) : EvolvesTo s (execOwnerRelease mb sigOk s) := by
  refine .newJob fun _ => .ite .answered ?_
  split
  · exact .answered
  · exact changeState_evolves _ _ _ _ _ .rfl

theorem execRetire_evolves (mb : MbId) (sigOk : Bool) : EvolvesTo s (execRetire mb sigOk s) := by
  refine .newJob fun _ => .ite .answered ?_
  split
  · exact .answered
  · exact changeState_evolves _ _ _ _ _ .rfl

theorem execTamperUnlock_evolves (m : MbSensors) (sigOk : Bool) : EvolvesTo s (execTamperUnlock m sigOk s) := by
  refine .newJob fun _ => .ite (answer_evolves _ _ <| modLife_evolves _ .rfl) ?_
  split
  · exact answer_evolves _ _ <| modLife_evolves _ .rfl
  · exact .ite (answer_evolves _ _ <| modLife_evolves _ .rfl) <| removeTenant_evolves _ <| modLife_evolves _ <| waitJob_evolves _ _ <|
      modLife_evolves _ .rfl

theorem execKeyImportWrapped_evolves (mb : MbId) : EvolvesTo s (execKeyImportWrapped mb s) := by
  refine .newJob fun _ => .ite .answered ?_
  split
  · exact denySlot_evolves _ .rfl
  · refine .ite (answer_evolves _ _ <| modKst_evolves _ .rfl id (Nat.le_refl _)) ?_
    split
    · exact answer_evolves _ _ <| modKst_evolves _ .rfl id (Nat.le_refl _)
    · split
      · exact .answered
      · exact finish_evolves _ _ _ <| fillSlot_evolves _ .rfl

theorem execKeyDestroy_evolves (mb : MbId) : EvolvesTo s (execKeyDestroy mb s) := by
  refine .newJob fun _ => ?_
  split
  · exact .answered
  · exact .ite .answered <| .ite .answered <| answer_evolves _ _ <| clearSlots_evolves _ .rfl

theorem execKeySlotStatus_evolves (mb : MbId) : EvolvesTo s (execKeySlotStatus mb s) := by
  refine .newJob fun _ => ?_
  split
  · exact .answered
  · split
    · exact .finished
    · exact .finished

theorem execPlateKeyEnroll_evolves (mb : MbId) (sigOk : Bool) : EvolvesTo s (execPlateKeyEnroll mb sigOk s) := by
  refine .newJob fun _ => ?_
  dsimp only
  split
  · exact .answered
  · exact answer_evolves _ _ <| modLife_evolves _ .rfl

/-! ## Plates -/

theorem execPlateBind_evolves (mb : MbId) : EvolvesTo s (execPlateBind mb s) := by
  refine .newJob fun _ => .ite .answered ?_
  split
  · refine .ite .answered ?_
    split
    · exact rejectPlate_evolves _ _ .rfl
    · exact .ite .answered <| .ite .answered <| .ite .answered <| finish_evolves _ _ _ <| modPla_evolves _ .rfl
  · exact .answered

/-! ## Decode sessions -/

theorem execDraftLoad_evolves (m : MbReads) : EvolvesTo s (execDraftLoad m s) := by
  refine .reads fun _ => .ite .answered ?_
  split
  · exact .answered
  · exact .ite .answered <| .ite (denySlot_evolves _ .rfl) <| .fetch (fun _ _ => draftEarly_evolves _ _) fun _ _ => draftLoadData_evolves _ _

theorem execDecodeFinish_evolves (mb : MbId) : EvolvesTo s (execDecodeFinish mb s) := by
  refine .newJob fun _ => .ite .answered ?_
  split
  · exact .answered
  · exact answer_evolves _ _ <| .ite (stopSession_evolves _ _ _ .rfl) <| .ite .rfl <| settle_evolves <| modDec_evolves _ .rfl

theorem execDecodeClose_evolves (mb : MbId) : EvolvesTo s (execDecodeClose mb s) := by
  refine .newJob fun _ => .ite .answered ?_
  split
  · exact .answered
  · exact .ite .answered <| answer_evolves _ _ <| dropSession_evolves <| .foldl (fun _ _ => doneOut_evolves _ _ _ _ _) _ .rfl

theorem execDecodeStatus_evolves (mb : MbId) : EvolvesTo s (execDecodeStatus mb s) := by
  refine .newJob fun _ => .ite .answered ?_
  split
  · exact .answered
  · exact .finished

theorem execReplayVerify_evolves (m : MbReads) (sigOk : Bool) : EvolvesTo s (execReplayVerify m sigOk s) := by
  refine .reads fun _ => ?_
  dsimp only
  split
  · exact .answered
  · exact .ite .answered <| .ite .answered <| .ite .answered <| .ite (verdict_evolves _ _ .rfl) <|
      .ite (verdict_evolves _ _ .rfl) <| .fetch (fun _ _ => id) fun _ _ => replayTokens_evolves _ _

/-! ## Commands of the ring -/

theorem execRingFormTimeout_evolves (mb : MbId) : EvolvesTo s (execRingFormTimeout mb s) := by
  refine .next ?_
  split
  · exact .rfl
  · exact .ite (formFails_evolves _ .rfl) .rfl

theorem execRingStatus_evolves (mb : MbId) : EvolvesTo s (execRingStatus mb s) := by
  refine .newJob fun _ => .ite .answered ?_
  split
  · exact .answered
  · exact .finished

theorem execRingDissolve_evolves (mb : MbId) : EvolvesTo s (execRingDissolve mb s) := by
  refine .newJob fun _ => .ite .answered ?_
  split
  · exact .answered
  · exact .ite .answered <| answer_evolves _ _ <| .foldl (fun _ _ => releasePort_evolves _ _) _ <| set_ring_evolves _ .rfl

theorem execRingAdmit_evolves (mb : MbId) : EvolvesTo s (execRingAdmit mb s) := by
  refine .newJob fun _ => .ite .answered ?_
  split
  · exact .answered
  · exact .ite .answered <| .ite .answered <|
      .ite .answered <| answer_evolves _ _ <| .foldl (fun _ _ => ringBringUp_evolves _ _) _ <| modRing_evolves _ .rfl

/-! ## Commands of the platen -/

theorem execRoundOpen_evolves (mb : MbId) : EvolvesTo s (execRoundOpen mb s) := by
  refine .newJob fun _ => .ite .answered <| .ite .answered <| .ite .answered <| .ite .answered ?_
  dsimp only
  split
  · exact .answered
  next t e => exact finish_evolves _ _ _ <| modPtn_evolves _ <| roundResources_evolves _ _ (freshHandle_evolves _ .rfl) t e

theorem execRoundClose_evolves (mb : MbId) : EvolvesTo s (execRoundClose mb s) := by
  refine .newJob fun _ => ?_
  split
  · exact .answered
  · exact .ite .answered <| waitJob_evolves _ _ <| modRound_evolves _ _ .rfl

theorem execRoundCorrect_evolves (m : MbReads) : EvolvesTo s (execRoundCorrect m s) := by
  refine .reads fun _ => ?_
  split
  · exact .answered
  · exact .ite .answered <| .ite .answered <| .fetch (fun _ _ => checkEarly_evolves _ _) fun _ _ => correctFirst_evolves _ _

theorem execRoundRelease_evolves (m : MbReads) : EvolvesTo s (execRoundRelease m s) := by
  refine .reads fun _ => ?_
  split
  · exact .answered
  · refine .ite .answered <| .ite .answered ?_
    split
    · exact .answered
    · exact .answered
    · exact finish_evolves _ _ _ <| modPtn_evolves _ <| wipeRound_evolves _ <|
        .ite_snd (putOut_evolves _ _ _ <| releaseSlices_evolves _ _ _ _ _ .rfl) <| releaseSlices_evolves _ _ _ _ _ .rfl

theorem execRoundAbort_evolves (mb : MbId) : EvolvesTo s (execRoundAbort mb s) := by
  refine .newJob fun _ => ?_
  split
  · exact .answered
  · exact .ite (answer_evolves _ _ <| wipeRound_evolves _ .rfl) <| waitJob_evolves _ _ <| modRound_evolves _ _ .rfl

theorem execRoundStatus_evolves (mb : MbId) : EvolvesTo s (execRoundStatus mb s) := by
  refine .newJob fun _ => ?_
  split
  · exact .answered
  · exact .finished

theorem execRoundCounts_evolves (mb : MbId) : EvolvesTo s (execRoundCounts mb s) := by
  refine .newJob fun _ => ?_
  split
  · exact .answered
  · dsimp only
    split
    · exact .answered
    · exact answer_evolves _ _ <| putOut_evolves _ _ _ .rfl

theorem execRoundBitmap_evolves (mb : MbId) : EvolvesTo s (execRoundBitmap mb s) := by
  refine .newJob fun _ => ?_
  split
  · exact .answered
  · refine .ite .answered <| .ite .answered ?_
    split
    · exact .answered
    · exact answer_evolves _ _ <| putOut_evolves _ _ _ .rfl

/-! ## Commands of the homomorphic engine -/

theorem execHevCtxOpen_evolves (mb : MbId) : EvolvesTo s (execHevCtxOpen mb s) := by
  refine .newJob fun _ => .ite .answered <| .ite .answered ?_
  split
  · exact refuseWith_evolves _ _ _ .rfl
  · refine .ite .answered <| .ite .answered ?_
    dsimp only
    split
    · exact .answered
    next t e => exact finish_evolves _ _ _ <| modHev_evolves _ <| ctxResources_evolves _ _ (freshHandle_evolves _ .rfl) t e

theorem execHevKeyLoad_evolves (m : MbReads) : EvolvesTo s (execHevKeyLoad m s) := by
  refine .reads fun _ => ?_
  split
  · exact .answered
  · exact .ite .answered <| .ite .answered <| .fetch (fun _ _ => keyEarly_evolves _ _) fun _ _ => keyLoadData_evolves _ _

theorem execHevKeyDrop_evolves (mb : MbId) : EvolvesTo s (execHevKeyDrop mb s) := by
  refine .newJob fun _ => ?_
  split
  · exact .answered
  · split
    · exact .answered
    · exact .ite .answered <| answer_evolves _ _ <| release_evolves _ <| modCtx_evolves _ _ .rfl

theorem execHevCtxStatus_evolves (mb : MbId) : EvolvesTo s (execHevCtxStatus mb s) := by
  refine .newJob fun _ => ?_
  split
  · exact .answered
  · exact .finished

theorem execHevBurnishSet_evolves (mb : MbId) : EvolvesTo s (execHevBurnishSet mb s) := by
  refine .newJob fun _ => ?_
  dsimp only
  split
  · exact .answered
  · refine .ite .answered <| .ite .answered ?_
    split
    · exact refuseWith_evolves _ _ _ .rfl
    · split
      · exact refuseWith_evolves _ _ _ .rfl
      · split
        · exact .answered
        · exact finish_evolves _ _ _ <| modCtx_evolves _ _ <| modGrant_evolves _ _ <| set_draw_evolves _ .rfl (Nat.le_succ _)

/-! ## Commands of remote memory -/

theorem execRdmPdAlloc_evolves (mb : MbId) : EvolvesTo s (execRdmPdAlloc mb s) := by
  refine .newJob fun _ => .ite .answered <| .ite .answered ?_
  split
  · exact .answered
  · exact finish_evolves _ _ _ <| modRdm_evolves _ .rfl

theorem execRdmWindowOpen_evolves (mb : MbId) : EvolvesTo s (execRdmWindowOpen mb s) := by
  refine .newJob fun _ => ?_
  split
  · exact .answered
  · refine .ite .answered ?_
    dsimp only
    split
    · exact .answered
    · exact finish_evolves _ _ _ <| modRdm_evolves _ .rfl

theorem execRdmConnOpen_evolves (mb : MbId) : EvolvesTo s (execRdmConnOpen mb s) := by
  refine .newJob fun _ => .ite .answered <| .ite .answered <| .ite .answered ?_
  split
  · exact .answered
  next t e =>
    have grown := growSpill_evolves _ .rfl t e
    exact finish_evolves _ _ _ <| modRdm_evolves _ <| freshQpn_evolves <| freshHandle_evolves _ <| evictContext_evolves grown

theorem execRdmConnStatus_evolves (mb : MbId) : EvolvesTo s (execRdmConnStatus mb s) := by
  refine .newJob fun _ => ?_
  split
  · exact .answered
  · exact .finished

/-! ## Commands of the work rings -/

theorem execWringCreate_evolves (mb : MbId) : EvolvesTo s (execWringCreate mb s) := by
  refine .newJob fun _ => .ite .answered ?_
  split
  · exact .answered
  · split
    · exact .answered
    · exact finish_evolves _ _ _ <| modBuf_evolves _ .rfl

theorem execWringDestroy_evolves (mb : MbId) : EvolvesTo s (execWringDestroy mb s) := by
  refine .newJob fun _ => .ite .answered ?_
  split
  · exact .answered
  · exact .ite .answered <| .ite (freeDrained_evolves _ <| modWring_evolves _ _ <| abandonFetch_evolves _ .rfl) <| waitJob_evolves _ _ <|
      modWring_evolves _ _ <| abandonFetch_evolves _ .rfl

theorem execCringCreate_evolves (mb : MbId) : EvolvesTo s (execCringCreate mb s) := by
  refine .newJob fun _ => .ite .answered ?_
  split
  · exact .answered
  · split
    · exact .answered
    · exact finish_evolves _ _ _ <| modBuf_evolves _ .rfl

theorem execWringStatus_evolves (mb : MbId) : EvolvesTo s (execWringStatus mb s) := by
  refine .newJob fun _ => .ite .answered ?_
  split
  · exact .answered
  · exact .finished

/-! ## Tests, telemetry and firmware -/

theorem execRollbackAdvance_evolves (mb : MbId) : EvolvesTo s (execRollbackAdvance mb s) := by
  refine .newJob fun _ => ?_
  split
  · exact .answered
  · exact answer_evolves _ _ <| blowTo_evolves _ _ .rfl

/-! ## Doorbells and descriptors -/

theorem execDescriptorFetch_evolves (f : FnReads) : EvolvesTo s (execDescriptorFetch f s) := by
  refine .next <| .ite .rfl ?_
  split
  · exact .rfl
  · exact .ite (fetched_evolves _ _ _ <| checkedRead_evolves _ _ _ <| modFn_evolves _ _ <| modCring_evolves _ _ .rfl) <|
      hostReadReq_evolves _ _ _ _ <| modFn_evolves _ _ <| modCring_evolves _ _ .rfl

theorem execCompletionCoalesceExpire_evolves (cring : Nat) : EvolvesTo s (execCompletionCoalesceExpire cring s) := by
  refine .next ?_
  split
  · exact .rfl
  · exact .ite (modCring_evolves _ _ <| post_evolves _ _ .rfl) <| modCring_evolves _ _ .rfl

theorem execWringDrainDone_evolves (wring : Nat) : EvolvesTo s (execWringDrainDone wring s) := by
  refine .next ?_
  split
  · exact .rfl
  · exact .ite (freeDrained_evolves _ .rfl) .rfl

theorem execDecodeInputDescriptor_evolves (m : DescReads) : EvolvesTo s (execDecodeInputDescriptor m s) := by
  have taken := takeDesc_evolves m.id (.refl s)
  refine .next ?_
  dsimp only
  split
  · exact .rfl
  · refine .ite .rfl <| .ite (doneInput_evolves _ _ _ _ taken) <| .ite (doneInput_evolves _ _ _ _ taken) ?_
    split
    · exact hostReadReq_evolves _ _ _ _ taken
    · exact decodeInputData_evolves _ _ <| devRead_evolves _ _ _ taken
    · exact doneInput_evolves _ _ _ _ taken

theorem execDecodeOutputDescriptor_evolves (d : Nat) : EvolvesTo s (execDecodeOutputDescriptor d s) := by
  have taken := takeDesc_evolves d (.refl s)
  refine .next ?_
  split
  · exact .rfl
  · refine .ite .rfl <| .ite (doneOut_evolves _ _ _ _ _ taken) <| .ite (doneOut_evolves _ _ _ _ _ taken) ?_
    split
    · exact .rfl
    · exact .ite (modDec_evolves _ taken) <| .ite (.ite (modDec_evolves _ <| doneOut_evolves _ _ _ _ _ taken) <|
        doneOut_evolves _ _ _ _ _ taken) <| modDec_evolves _ taken

/-! ## Operations of the homomorphic engine -/

theorem execHevExport_evolves (d : Nat) : EvolvesTo s (execHevExport d s) := by
  refine .next <| onOp_evolves _ _ _ .rfl fun _ _ _ => ?_
  split
  · exact .ite (setResult_evolves _ _ _ _ _ .rfl) <| failRun_evolves _ _ _ .rfl
  · exact setResult_evolves _ _ _ _ _ .rfl
  · exact .rfl

theorem execHevMul_evolves (d : Nat) : EvolvesTo s (execHevMul d s) := by
  refine .next <| onOp_evolves _ _ _ .rfl fun _ _ _ => ?_
  split
  · exact setResult_evolves _ _ _ _ _ .rfl
  · exact .rfl

theorem execHevAutomorph_evolves (d : Nat) : EvolvesTo s (execHevAutomorph d s) := by
  refine .next <| onOp_evolves _ _ _ .rfl fun _ _ _ => ?_
  split
  · exact setResult_evolves _ _ _ _ _ .rfl
  · exact .rfl

theorem execBurnish_evolves (d : Nat) : EvolvesTo s (execBurnish d s) := by
  refine .next <| onOp_evolves _ _ _ .rfl fun _ _ _ => ?_
  split
  · exact setResult_evolves _ _ _ _ _ <| set_draw_evolves _ .rfl (Nat.le_succ _)
  · exact .rfl

theorem execHevOpBegin_evolves (d : Nat) : EvolvesTo s (execHevOpBegin d s) := by
  refine .next ?_
  split
  · exact .rfl
  · refine .ite .rfl ?_
    split
    · exact failOp_evolves _ _ .rfl
    · refine .ite .rfl <| .ite (failOp_evolves _ _ .rfl) <| .ite (failOp_evolves _ _ .rfl) <| .ite (failOp_evolves _ _ .rfl) <|
        .ite (exportInvalid_evolves _ _ .rfl) ?_
      split
      · exact failOp_evolves _ _ .rfl
      · split
        · exact .ite (tagMismatch_evolves _ _ _ _ _ .rfl) <| startOp_evolves _ _ .rfl
        · exact startOp_evolves _ _ .rfl

theorem execHevOpComplete_evolves (d : Nat) (ev : HevEvent) : EvolvesTo s (execHevOpComplete d ev s) := by
  refine .next ?_
  split
  · split
    · split
      · exact .ite .rfl <| .ite (endBadly_evolves _ _ _ _ .rfl) <| completeOp_evolves _ _ _ _ .rfl
      · exact stopMidway_evolves _ _ _ <| failWords_evolves _ _ .rfl
      · exact .ite (ctxFaulted_evolves _ _ <| stopMidway_evolves _ _ _ .rfl) .rfl
      · exact .ite (opMismatch_evolves _ _ _ _ <| countMismatch_evolves .rfl) .rfl
    · exact .rfl
  · exact .rfl

/-! ## Requests of remote memory -/

theorem execRdmReceivePost_evolves (d : Nat) : EvolvesTo s (execRdmReceivePost d s) := by
  refine .next ?_
  split
  · exact .rfl
  · exact .ite .rfl <| .ite (rdmFail_evolves _ _ .rfl) <| .ite (flushDesc_evolves _ _ .rfl) <| modConn_evolves _ _ <| takeDesc_evolves _ .rfl

/-! ## The press -/

theorem execActionBegin_evolves (a : ActionReads) : EvolvesTo s (execActionBegin a s) := by
  refine .next ?_
  split
  · exact .rfl
  next x _ =>
    have noted := fun (g : PrsState → List Action) l => noteExchange_evolves x l <|
      modPrs_evolves (fun p => { p with actions := g p }) (actionReads_evolves a.bad x x.reads (.refl s)) id
    have consumed := fun g l => Evolves.foldl (f := consume x) (fun _ _ => consume_evolves x _) x.inputs (noted g l)
    exact .ite .rfl <| .ite (readPoison_evolves _ <| consumed _ _) (consumed _ _)

theorem execActionComplete_evolves (a : Nat) (upset : List (Nat × Bytes)) : EvolvesTo s (execActionComplete a upset s) := by
  refine .next ?_
  split
  · exact .rfl
  next x _ =>
    refine .ite .rfl ?_
    have left := leaveInGraver_evolves x (workedOut s x) <| evaluateFor_evolves x <|
      modPrs_evolves (fun p => { p with actions := p.actions.filter (·.id != a) }) (.refl s) id
    have published := publishAll_evolves x (workedOut s x) upset x.outputs false left
    dsimp only
    split <;> split
    · exact engineFault_evolves <| raiseTrigger_evolves _ _ published
    · exact engineFault_evolves published
    · exact raiseTrigger_evolves _ _ published
    · exact published

theorem execPressStall_evolves : EvolvesTo s (execPressStall s) := by
  refine .next ?_
  dsimp only
  split
  · exact .rfl
  · exact .ite .rfl <| engineFault_evolves <| postEvent_evolves _ _ _ _ <| modPrs_evolves _ .rfl id

theorem execPlateLoadComplete_evolves (plate : Nat) (bad : List MemFail) : EvolvesTo s (execPlateLoadComplete plate bad s) := by
  refine .next ?_
  split
  · exact .rfl
  · exact .ite (postEvent_evolves _ _ _ _ <| poisonedPlate_evolves _ <| readPlate_evolves _ _ .rfl) <| modPla_evolves _ <|
      readPlate_evolves _ _ .rfl

/-! ## The decode session runs -/

theorem execVerificationStep_evolves : EvolvesTo s (execVerificationStep s) := by
  refine .next ?_
  split
  · exact .ite (.ite (decodeFault_evolves _ <| countDraft_evolves .rfl) <| beginStep_evolves _ _ .rfl) <| .ite (settle_evolves .rfl) .rfl
  · exact .rfl

theorem execSessionResume_evolves : EvolvesTo s (execSessionResume s) := by
  refine .next ?_
  split
  · exact .rfl
  · exact .ite .rfl <| .ite (settle_evolves .rfl) <| .ite .rfl <| resume_evolves _ .rfl

theorem execOpenDigestExchange_evolves (digests : List (Nat × Bytes)) : EvolvesTo s (execOpenDigestExchange digests s) := by
  refine .next ?_
  split
  · refine .ite .rfl <| .ite (.ite .rfl <| .ite (modDec_evolves _ .rfl) <| postEvent_evolves _ _ _ _ <| stopSession_evolves _ _ _ .rfl) ?_
    split
    · exact .ite (tryJoin_evolves <| sendView_evolves <| modRing_evolves _ .rfl) .rfl
    · exact .rfl
  · exact .rfl

/-! ## The sequence ring -/

theorem execRingFrameReceive_evolves (port : PortId) (f : RingFrame) : EvolvesTo s (execRingFrameReceive port f s) := by
  refine .next ?_
  split
  · exact .rfl
  · have switched : ∀ {c : Prop} [Decidable c], Evolves s (if c then switchReceive port.val s else s) :=
      .ite (switchReceive_evolves _ .rfl) .rfl
    exact .ite .rfl <| .ite (overrunShare_evolves _ .rfl) <|
      .ite (nak_evolves _ <| modPort_evolves _ _ <| .ite (rewindFrame_evolves _ _ switched) switched) <| .ite (nak_evolves _ switched) <|
      .ite (modPort_evolves _ _ switched) <| .ite (overrunShare_evolves _ switched) <|
      acceptFrame_evolves _ _ _ <| receiveLimit_evolves _ <| modPort_evolves _ _ switched

theorem execKeepaliveSend_evolves (port : PortId) : EvolvesTo s (execKeepaliveSend port s) := by
  refine .next ?_
  split
  · exact .rfl
  · exact .ite .rfl <| ctrLimits_evolves _ <| sendOn_evolves _ _ <| emit_evolves _ .rfl

theorem execLinkSilenceTimeout_evolves (member : Nat) (port : PortId) : EvolvesTo s (execLinkSilenceTimeout member port s) := by
  refine .next ?_
  split
  · exact .rfl
  · exact .ite .rfl <| suspect_evolves _ _ _ <| controlAll_evolves _ .rfl

theorem execProgressTimeout_evolves (member : Nat) : EvolvesTo s (execProgressTimeout member s) := by
  refine .next ?_
  split
  · exact .rfl
  · exact .ite .rfl <| suspect_evolves _ _ _ <| controlAll_evolves _ .rfl

theorem execStepDigestVote_evolves : EvolvesTo s (execStepDigestVote s) := by
  refine .next ?_
  split
  · split
    · exact .rfl
    · refine .ite .rfl <| .ite (decodeFault_evolves _ .rfl) <| .ite (modDec_evolves _ .rfl) ?_
      split
      · exact .ite (declareFailed_evolves _ _ .rfl) .rfl
      · exact .ite (settle_evolves <| modDec_evolves _ <| resendCopies_evolves <| dropAttempt_evolves <| modDec_evolves _ <| modRing_evolves _ <|
          set_draw_evolves _ .rfl (Nat.le_succ _)) <| stopSession_evolves _ _ _ .rfl
  · exact .rfl

theorem execViewFrameReceive_evolves (v : ViewFrame) : EvolvesTo s (execViewFrameReceive v s) := by
  refine .next ?_
  split
  · exact .rfl
  · have noted : ∀ f, Evolves s (modRing f s) := fun _ => modRing_evolves _ .rfl
    exact .ite .rfl <| .ite (.ite .rfl <| .ite (.ite (tryJoin_evolves <| noted _) <| spareAnswer_evolves <| noted _) <|
      spareAnswer_evolves <| modRing_evolves _ <| noted _) <| .ite .rfl <|
      .ite (tryJoin_evolves <| .ite (noted _) <| sendView_evolves <| modRing_evolves _ <| noted _) <|
      .ite (tryJoin_evolves <| noted _) <| .ite (proposeView_evolves _ <| noted _) <| tryInstall_evolves <| noted _

theorem execReformTimeout_evolves : EvolvesTo s (execReformTimeout s) := by
  refine .next ?_
  split
  · exact .rfl
  · exact .ite .rfl <| postEvent_evolves _ _ _ _ <| stopSession_evolves _ _ _ <| quietRing_evolves <| modRing_evolves _ .rfl

theorem execMirrorRebuildDone_evolves (first count : Nat) : EvolvesTo s (execMirrorRebuildDone first count s) := by
  refine .next ?_
  split
  · split
    · exact .rfl
    · exact .ite (rebuildMirrors_evolves <| dropMirrors_evolves <| releaseReplaced_evolves _ <| modRing_evolves _ .rfl) <|
        .ite (postEvent_evolves _ _ _ _ <| modRing_evolves _ .rfl) <| modRing_evolves _ .rfl
  · exact .rfl

theorem execSpareHandover_evolves (index : Nat) : EvolvesTo s (execSpareHandover index s) := by
  refine .next ?_
  split
  · exact .ite .rfl <| tryJoin_evolves <| sendView_evolves <| modRing_evolves _ .rfl
  · exact .rfl

theorem execRingHandshakeResponseReceive_evolves (port : PortId) (h : Handshake) : EvolvesTo s (execRingHandshakeResponseReceive port h s) := by
  refine .next ?_
  split
  · exact .rfl
  · exact .ite .rfl <| .ite (handshakeFails_evolves _ _ .rfl) <| .ite (handshakeFails_evolves _ _ .rfl) <|
      .ite (startHandshake_evolves _ .rfl) <| handshakeDone_evolves _ _ _ _ _ _ _ .rfl

/-! ## Ports -/

theorem execNetworkFrameReceive_evolves (port : PortId) (x : Heard NetFrame) : EvolvesTo s (execNetworkFrameReceive port x s) := by
  have counted := countFec_evolves port.val x.cw (.refl s)
  refine .next <| .ite counted ?_
  split
  · exact .ite counted <| emit_evolves _ counted
  · exact .ite (modPort_evolves _ _ counted) counted
  · exact .ite (modPort_evolves _ _ counted) counted
  · exact .ite (.ite (takeFrame_evolves _ _ _ _ counted) counted) <|
      .ite (modPort_evolves _ _ <| .ite (rewindPacket_evolves _ _ _ counted) counted) <| .ite (rewindPacket_evolves _ _ _ counted) counted

/-! ## Packets and timers of remote memory -/

theorem execRnrTimerExpire_evolves (conn : Nat) : EvolvesTo s (execRnrTimerExpire conn s) := by
  refine .next ?_
  split
  · exact .rfl
  · exact .ite .rfl <| resendFrom_evolves _ _ <| modConn_evolves _ _ .rfl

theorem execAckTimeout_evolves (conn : Nat) : EvolvesTo s (execAckTimeout conn s) := by
  refine .next ?_
  split
  · exact .rfl
  · exact .ite .rfl <| .ite (.elim (modRdm_evolves _ .rfl) fun _ => giveUp_evolves _ _ <| modRdm_evolves _ .rfl) <| resendFrom_evolves _ _ <|
      modConn_evolves _ _ <| modRdm_evolves _ .rfl

theorem execContextFetchDone_evolves (conn : Nat) : EvolvesTo s (execContextFetchDone conn s) := by
  refine .next ?_
  split
  · exact .rfl
  · exact .ite .rfl <| .foldl (fun _ _ => arrive_evolves _ _ _ _) _ <| touch_evolves _ <| modConn_evolves _ _ <| evictContext_evolves .rfl

theorem execFinalWritePlace_evolves (conn psn : Nat) : EvolvesTo s (execFinalWritePlace conn psn s) := by
  refine .next ?_
  split
  · exact .rfl
  · split
    · exact .rfl
    · exact .ite .rfl <| settleAll_evolves _ <| endMessage_evolves _ _ _ <| modConn_evolves _ _ <| placeHeld_evolves _ .rfl

theorem execRevokeDone_evolves (key : Nat) : EvolvesTo s (execRevokeDone key s) := by
  refine .next ?_
  split
  · exact .rfl
  · exact .ite .rfl <| postEvent_evolves _ _ _ _ <| modRdm_evolves _ .rfl

/-! ## The platen -/

theorem execSliceAdmission_evolves (id : Nat) (bad : List MemFail) : EvolvesTo s (execSliceAdmission id bad s) := by
  refine .next ?_
  split
  · exact .rfl
  · exact .ite .rfl <| settleAll_evolves _ <| modConn_evolves _ _ <| modPtn_evolves _ <| admitSlice_evolves _ _ .rfl

theorem execRoundClosed_evolves (round : Nat) : EvolvesTo s (execRoundClosed round s) := by
  refine .next ?_
  split
  · exact .rfl
  · refine .ite .rfl <| .ite (abortRound_evolves _ .rfl) ?_
    dsimp only
    split
    · exact conclude_evolves _ _ _ <| modRound_evolves _ _ .rfl
    · exact modRound_evolves _ _ .rfl

theorem execEventIrqCoalesceExpire_evolves : EvolvesTo s (execEventIrqCoalesceExpire s) := by
  refine .next ?_
  split
  · exact modMbx_evolves _ .rfl id id
  · exact .ite (modMbx_evolves _ (post_evolves _ _ .rfl) id id) <| modMbx_evolves _ .rfl id id

/-! ## Confidential attachment -/

theorem execKSetGo_evolves (stream : Fin 2) : EvolvesTo s (execKSetGo stream s) := by
  refine .next <| inSession_evolves _ .rfl fun _ h => ?_
  split
  · exact spdmAnswer_evolves _ <| modStream_evolves _ _ h
  · exact spdmError_evolves _ h

/-! ## Check values, Standby and the debug port -/

theorem execDebugBar0Access_evolves (port : DebugPort) (width : Nat) (write : Option (BitVec 64)) :
    EvolvesTo s (execDebugBar0Access port width write s) := by
  refine .next <| .ite .rfl ?_
  split
  · exact emit_evolves _ <| modPins_evolves _ .rfl
  · exact modPins_evolves _ .rfl
  · refine .ite .rfl ?_
    split
    · exact pf0Write_evolves _ _ _ .rfl
    · exact pf0Read_evolves _ _ .rfl

theorem execDebugMemoryAccess_evolves (a : AddrReads) (len : Nat) (write : Option Bytes) : EvolvesTo s (execDebugMemoryAccess a len write s) := by
  refine .next <| .ite .rfl ?_
  split
  · exact deviceWrite_evolves _ _ _ .rfl
  · exact deviceRead_evolves _ _ _ .rfl

/-! ## Reset and boot -/

theorem execOptionLoadDone_evolves (records : List OptRecord) (missing secBootOk secOtherOk : Bool) :
    EvolvesTo s (execOptionLoadDone records missing secBootOk secOtherOk s) := by
  have loaded := fun g => modRst_evolves g <| recordCause_evolves <| set_idsOk_evolves true (.refl s)
  have alarmed := fun g => Evolves.ite (c := (s.rst.level == .core) = true) (loaded g) (latchedAlarms_evolves (loaded g))
  exact .next <| .ite .rfl <| .ite (modPins_evolves _ <| modRst_evolves _ <| alarmed _) <|
    .ite (alarmed _) <| startSecurity_evolves _ _ <| alarmed _

theorem execFirmwareReady_evolves (ctrlBootOk ctrlOtherOk : Bool) : EvolvesTo s (execFirmwareReady ctrlBootOk ctrlOtherOk s) := by
  refine .next <| .ite .rfl ?_
  split
  next t e => exact postFallback_evolves <| startConsole_evolves <| modMbx_evolves _ (bootFirmware_evolves _ _ _ .rfl t e) id id
  · exact modMbx_evolves _ .rfl id id

/-! ## Memory and entropy -/

theorem execHbmZeroFillDone_evolves : EvolvesTo s (execHbmZeroFillDone s) := by
  have zeroed := fun g => writePages_evolves 0 (hbmSize s / 4096) 0 63 (modMpr_evolves g (.refl s))
  refine .next <| .ite .rfl ?_
  dsimp only
  split
  · exact endRemoval_evolves _ <| modMem_evolves _ (zeroed _) (cells_filter_wf _ _)
  · exact modMem_evolves _ (zeroed _) (cells_filter_wf _ _)

theorem execEntropyBlock_evolves (src : Fin 8) (bits : BitVec 1024) : EvolvesTo s (execEntropyBlock src bits s) := by
  refine .next ?_
  split
  · exact .rfl
  · exact .ite .rfl <| .ite (condition_evolves _ <| modEnt_evolves _ .rfl) <| modEnt_evolves _ .rfl

/-! ## Training, links and tests -/

theorem execSelfTestDone_evolves (mb : MbId) (sigs : List (BitVec 64)) (errs : List PatternErr) :
    EvolvesTo s (execSelfTestDone mb sigs errs s) := by
  refine .next ?_
  split
  · exact .ite .rfl <| .ite (logicDone_evolves _ _ _ _ <| modTst_evolves _ .rfl id) <|
      .ite (memoryDone_evolves _ _ _ _ <| modTst_evolves _ .rfl id) <| patternDone_evolves _ _ <| modTst_evolves _ .rfl id
  · exact .rfl

theorem execEntropyWaitTimeout_evolves (mb : MbId) : EvolvesTo s (execEntropyWaitTimeout mb s) := by
  refine .next ?_
  split
  · exact .ite .answered .rfl
  · exact .rfl

/-! ## All commands -/

end

/-- Every command of the block goes on, to a state that the present one evolves to: a row whose effect is one shared operation is
settled in its arm, a row that splits cases by its lemma above. -/
theorem exec_evolves (c : Instr) (s : State) : EvolvesTo s (exec c s) :=
  match c with
  | .registerWrite .. => .next <| placeWrite_evolves _ _ _ _ _ .rfl
  | .badRegisterAccess .. => .next <| .ite .rfl <|
      .ite (bar0Write_evolves _ _ .rfl fun _ h => .ite h <| countBad_evolves h) <| bar0Read_evolves _ _ _ .rfl fun _ h => emit_evolves _ <|
      .ite h <| countBad_evolves h
  | .loRegisterRead .. => .next <| bar0Read_evolves _ _ _ .rfl fun _ h => emit_evolves _ <| latchHi_evolves _ h
  | .snapCtrlArm .. => .next <| bar0Write_evolves _ _ .rfl fun _ => armFromRegister_evolves
  | .mailboxGo .. => .next <| .ite (.ite (mailboxGo_evolves _ .rfl) .rfl) <| bar0Write_evolves _ _ .rfl fun _ => mailboxGo_evolves _
  | .commandDispatch .. => execCommandDispatch_evolves ..
  | .smbusBlockWrite .. => .next <| .ite .rfl <| .ite (emit_evolves _ .rfl) <| .ite .rfl <| smbusBytes_evolves _ _ _ .rfl
  | .smbusProcessCall .. => .next <| .ite .rfl <| .ite (emit_evolves _ .rfl) <| emit_evolves _ .rfl
  | .identityGet .. => execIdentityGet_evolves ..
  | .moduleStatus .. => .newJob fun _ => .ite .answered .finished
  | .eventRingSet .. => execEventRingSet_evolves ..
  | .eventRingClear .. => .job fun _ => .ite .answered <| answer_evolves _ _ <| modMbx_evolves _ .rfl id id
  | .lifecycleGet .. => .newJob fun _ => .ite .answered .finished
  | .ownerClaim .. => execOwnerClaim_evolves ..
  | .modeSet .. => execModeSet_evolves ..
  | .ownerRelease .. => execOwnerRelease_evolves ..
  | .retire .. => execRetire_evolves ..
  | .tamperUnlock .. => execTamperUnlock_evolves ..
  | .keyGenerate .. => .job fun _ => keyGenerate_evolves _ .rfl
  | .keyImportWrapped .. => execKeyImportWrapped_evolves ..
  | .keyDestroy .. => execKeyDestroy_evolves ..
  | .keySlotStatus .. => execKeySlotStatus_evolves ..
  | .keyOriginStatement .. => .job fun _ => keyOrigin_evolves _ .rfl
  | .attestReport .. => .job fun _ => attestReport_evolves _ .rfl
  | .certChainGet .. => .newJob fun _ => .ite .answered <| .ite (.ite .answered .rfl) <| .ite .answered .finished
  | .plateKeyEnroll .. => execPlateKeyEnroll_evolves ..
  | .hbmKeyRotate .. => .job fun _ => keyRotate_evolves _ .rfl
  | .randomGet .. => .job fun _ => .ite .answered <| .ite (waitJob_evolves _ _ .rfl) <| finish_evolves _ _ _ <| drbgTake_evolves _ .rfl
  | .randomGetTimeout .. => .job fun _ => .ite .rfl <| answer_evolves _ _ <| modEnt_evolves _ .rfl
  | .plateStage .. => .reads fun _ => .ite .answered <|
      .ite (rejectPlate_evolves _ _ .rfl) <| .fetch (fun _ _ => plateEarly_evolves _ _) fun _ _ => plateStageData_evolves _ _ _
  | .plateBind .. => execPlateBind_evolves ..
  | .plateUnstage .. => .newJob fun _ => .ite .answered <| .ite .answered <| answer_evolves _ _ <| modPla_evolves _ <| writeLines_evolves _ _ .rfl
  | .fabricStatus .. => .newJob fun _ => .ite .answered .finished
  | .decodeOpen .. => .job fun _ => decodeOpen_evolves _ .rfl
  | .weightsLoad .. => .reads fun _ => .ite .answered <| .ite .answered <|
      .ite (denySlot_evolves _ .rfl) <| .fetch (fun _ _ => weightsEarly_evolves _ _) fun _ _ => weightsLoadData_evolves _ _
  | .draftLoad .. => execDraftLoad_evolves ..
  | .weightsUnload .. => .newJob fun _ => .ite .answered <| .ite .answered <| answer_evolves _ _ <| dropWeights_evolves .rfl
  | .decodeFinish .. => execDecodeFinish_evolves ..
  | .decodeClose .. => execDecodeClose_evolves ..
  | .decodeStatus .. => execDecodeStatus_evolves ..
  | .replayVerify .. => execReplayVerify_evolves ..
  | .ringForm .. => .newJob fun _ => beginForm_evolves _ _ .rfl
  | .ringFormTimeout .. => execRingFormTimeout_evolves ..
  | .ringStatus .. => execRingStatus_evolves ..
  | .ringDissolve .. => execRingDissolve_evolves ..
  | .ringSpareJoin .. => .newJob fun _ => beginForm_evolves _ _ .rfl
  | .ringAdmit .. => execRingAdmit_evolves ..
  | .roundOpen .. => execRoundOpen_evolves ..
  | .roundClose .. => execRoundClose_evolves ..
  | .roundCorrect .. => execRoundCorrect_evolves ..
  | .roundRelease .. => execRoundRelease_evolves ..
  | .roundAbort .. => execRoundAbort_evolves ..
  | .roundStatus .. => execRoundStatus_evolves ..
  | .roundCounts .. => execRoundCounts_evolves ..
  | .roundBitmap .. => execRoundBitmap_evolves ..
  | .hevCtxOpen .. => execHevCtxOpen_evolves ..
  | .hevCtxClose .. => .newJob fun _ => .ite .answered <| .ite .answered <| answer_evolves _ _ <| closeCtx_evolves _ .rfl
  | .hevKeyLoad .. => execHevKeyLoad_evolves ..
  | .hevKeyDrop .. => execHevKeyDrop_evolves ..
  | .hevCtxStatus .. => execHevCtxStatus_evolves ..
  | .hevBurnishSet .. => execHevBurnishSet_evolves ..
  | .portSet .. => .newJob fun _ => .ite .answered <| .ite .answered <| .ite .answered <| answer_evolves _ _ <| applySetting_evolves _ _ _ .rfl
  | .portStatus .. => .newJob fun _ => .ite .answered .finished
  | .macsecSaSet .. => .newJob fun _ => .ite .answered <| .ite .answered <| .ite .answered <| .ite .answered <|
      .ite (denySlot_evolves _ .rfl) <| answer_evolves _ _ <| netFlush_evolves _ <|
      .ite (pnWarn_evolves _ _ <| modPort_evolves _ _ .rfl) <| modPort_evolves _ _ .rfl
  | .macsecSaClear .. => .newJob fun _ => .ite .answered <| .ite .answered <| answer_evolves _ _ <| modPort_evolves _ _ .rfl
  | .linkRekey .. => .newJob fun _ => .ite .answered <| .ite .answered <| .ite .answered <| answer_evolves _ _ <| beginRekey_evolves _ .rfl
  | .rdmPdAlloc .. => execRdmPdAlloc_evolves ..
  | .rdmPdFree .. => .newJob fun _ => .ite .answered <| .ite .answered <| answer_evolves _ _ <| modRdm_evolves _ .rfl
  | .rdmRegionReg .. => .newJob fun _ => .ite .answered <| .ite .answered <| .ite .answered <|
      .ite .answered <| finish_evolves _ _ _ <| modRdm_evolves _ <| freshHandle_evolves _ .rfl
  | .rdmRegionDereg .. => .newJob fun _ => .ite .answered <| .ite .answered <| answer_evolves _ _ <| modRdm_evolves _ .rfl
  | .rdmWindowOpen .. => execRdmWindowOpen_evolves ..
  | .rdmWindowRevoke .. => .newJob fun _ => .ite .answered <| finish_evolves _ _ _ <| modRdm_evolves _ .rfl
  | .rdmConnOpen .. => execRdmConnOpen_evolves ..
  | .rdmConnClose .. => .newJob fun _ => .ite .answered <| answer_evolves _ _ <| closeConn_evolves _ .rfl
  | .rdmConnStatus .. => execRdmConnStatus_evolves ..
  | .rdmTrigger .. => .newJob fun _ => .ite .answered <| finish_evolves _ _ _ <| .ite (modRdm_evolves _ .rfl) <|
      .ite (raiseTrigger_evolves _ _ .rfl) .rfl
  | .wringCreate .. => execWringCreate_evolves ..
  | .wringDestroy .. => execWringDestroy_evolves ..
  | .cringCreate .. => execCringCreate_evolves ..
  | .cringDestroy .. => .newJob fun _ => .ite .answered <| .ite .answered <| answer_evolves _ _ <| modBuf_evolves _ .rfl
  | .wringStatus .. => execWringStatus_evolves ..
  | .funcQuiesce .. => .newJob fun _ => .ite .answered <| .ite (answer_evolves _ _ <| modFn_evolves _ _ .rfl) <|
      .ite .answered <| answer_evolves _ _ <| modFn_evolves _ _ .rfl
  | .bistLogic .. => .job fun _ => .ite .rfl <| .ite .answered <| .ite .answered <| .ite (startTest_evolves _ _ _ _ .rfl) <|
      .ite (waitJob_evolves _ _ .rfl) <| startTest_evolves _ _ _ _ <| seedMasks_evolves .rfl
  | .bistMemory .. => .newJob fun _ => .ite .answered <| .ite .answered <| startTest_evolves _ _ _ _ .rfl
  | .hbmPatternTest .. => .newJob fun _ => .ite .answered <| .ite .answered <| startTest_evolves _ _ _ _ .rfl
  | .snapshotArm .. => .newJob fun _ => .ite .answered <| answer_evolves _ _ <| armSnapshot_evolves _ .rfl
  | .snapshotRead .. => .newJob fun _ => .ite .answered <| finish_evolves _ _ _ <| set_draw_evolves _ .rfl (Nat.le_add_right _ _)
  | .fwStage .. => .reads fun _ => .ite .answered <|
      .ite (answer_evolves _ _ <| emptySome_evolves .rfl) <| .fetch (fun _ _ => fwEarly_evolves _ _) fun _ _ => fwStageData_evolves _ _ _
  | .fwActivate .. => .newJob fun _ => .ite .answered <| answer_evolves _ _ <| modComp_evolves _ _ .rfl fun _ => Nat.le_refl _
  | .fwStatus .. => .newJob fun _ => .ite .answered .finished
  | .rollbackAdvance .. => execRollbackAdvance_evolves ..
  | .workRingDoorbell .. => .next <| bar0Write_evolves _ _ .rfl fun _ h => .ite (workDoorbell_evolves _ _ _ h) <| countBad_evolves h
  | .completionRingDoorbell .. => .next <| bar0Write_evolves _ _ .rfl fun _ h => .ite (completionDoorbell_evolves _ _ _ h) <| countBad_evolves h
  | .eventRingDoorbell .. => .next <| bar0Write_evolves _ _ .rfl fun _ h => .ite h <| eventDoorbell_evolves _ h
  | .descriptorFetch .. => execDescriptorFetch_evolves ..
  | .completionCoalesceExpire .. => execCompletionCoalesceExpire_evolves ..
  | .wringDrainDone .. => execWringDrainDone_evolves ..
  | .decodeInputDescriptor .. => execDecodeInputDescriptor_evolves ..
  | .decodeOutputDescriptor .. => execDecodeOutputDescriptor_evolves ..
  | .hevImport .. => .next <| onOp_evolves _ _ _ .rfl fun _ _ _ => readFor_evolves _ _ _ _ _ _ .rfl fun _ _ => importHeader_evolves _ _ _
  | .hevExport .. => execHevExport_evolves ..
  | .hevAdd .. => .next <| onPair_evolves _ _ _ .rfl
  | .hevSub .. => .next <| onPair_evolves _ _ _ .rfl
  | .hevNeg .. => .next <| onSingle_evolves _ _ _ .rfl
  | .hevAddPlain .. => .next <| onPair_evolves _ _ _ .rfl
  | .hevMulPlain .. => .next <| onPair_evolves _ _ _ .rfl
  | .hevMul .. => execHevMul_evolves ..
  | .hevRescale .. => .next <| onSingle_evolves _ _ _ .rfl
  | .hevDrop .. => .next <| onSingle_evolves _ _ _ .rfl
  | .hevAutomorph .. => execHevAutomorph_evolves ..
  | .hevRotsum .. => .next <| onOp_evolves _ _ _ .rfl fun _ _ _ => readFor_evolves _ _ _ _ _ _ .rfl fun _ _ => rotsumData_evolves _ _
  | .hevNtt .. => .next <| onSingle_evolves _ _ _ .rfl
  | .hevIntt .. => .next <| onSingle_evolves _ _ _ .rfl
  | .burnish .. => execBurnish_evolves ..
  | .hevOpBegin .. => execHevOpBegin_evolves ..
  | .hevOpComplete .. => execHevOpComplete_evolves ..
  | .rdmSend .. => .next <| onRequest_evolves _ _ .rfl
  | .rdmSendImm .. => .next <| onRequest_evolves _ _ .rfl
  | .rdmWrite .. => .next <| onRequest_evolves _ _ .rfl
  | .rdmWriteImm .. => .next <| onRequest_evolves _ _ .rfl
  | .rdmRead .. => .next <| onRequest_evolves _ _ .rfl
  | .rdmReceivePost .. => execRdmReceivePost_evolves ..
  | .triggeredRequestFire .. => .next <| onRequest_evolves _ _ .rfl
  | .actionBegin .. => execActionBegin_evolves ..
  | .actionComplete .. => execActionComplete_evolves ..
  | .pressAdvance .. => .next <| .ite .rfl <| .ite (retireStroke_evolves .rfl) <| retireStroke_evolves <| modPrs_evolves _ .rfl id
  | .idleStroke .. => .next <| .ite .rfl <| retireStroke_evolves <| modClk_evolves _ .rfl
  | .pressStall .. => execPressStall_evolves ..
  | .snapshotDone .. => .next <| .ite .rfl <| postEvent_evolves _ _ _ _ <| modTst_evolves _ (modPrs_evolves _ .rfl id) fun wf => ⟨wf.2, rfl⟩
  | .plateLoadComplete .. => execPlateLoadComplete_evolves ..
  | .prefillChunk .. => .next <| tryJoin_evolves <| prefillNext_evolves .rfl
  | .verificationStep .. => execVerificationStep_evolves ..
  | .stepCommit .. => .next <| tryJoin_evolves <| .ite (commitPending_evolves .rfl) .rfl
  | .sessionResume .. => execSessionResume_evolves ..
  | .openDigestExchange .. => execOpenDigestExchange_evolves ..
  | .openJoinTimeout .. => .next <| .ite (declareFailed_evolves _ _ .rfl) .rfl
  | .ringFrameReceive .. => execRingFrameReceive_evolves ..
  | .ringDelimiterReceive .. => .next <| .ite (countFec_evolves _ _ .rfl) <| pumpAll_evolves _ <|
      .ite (resendAll_evolves _ <| modPort_evolves _ _ <| countFec_evolves _ _ .rfl) <| modPort_evolves _ _ <| countFec_evolves _ _ .rfl
  | .ringRetxTimeout .. => .next <| .ite (resendAll_evolves _ .rfl) .rfl
  | .ringIdleDelimiter .. => .next <| .ite (emitDelimiter_evolves _ _ <| set_draw_evolves _ .rfl (Nat.le_succ _)) .rfl
  | .keepaliveSend .. => execKeepaliveSend_evolves ..
  | .keepaliveReceive .. => .next <| .ite (modRing_evolves _ .rfl) .rfl
  | .linkSilenceTimeout .. => execLinkSilenceTimeout_evolves ..
  | .progressTimeout .. => execProgressTimeout_evolves ..
  | .suspicionReceive .. => .next <| .ite (suspect_evolves _ _ _ .rfl) .rfl
  | .selfReportReceive .. => .next <| .ite (declareFailed_evolves _ _ .rfl) .rfl
  | .stepDigestVote .. => execStepDigestVote_evolves ..
  | .viewFrameReceive .. => execViewFrameReceive_evolves ..
  | .reformTimeout .. => execReformTimeout_evolves ..
  | .mirrorRebuildDone .. => execMirrorRebuildDone_evolves ..
  | .spareHandover .. => execSpareHandover_evolves ..
  | .ringHandshakeInitReceive .. => .next <| answerHandshake_evolves _ _ .rfl
  | .ringHandshakeResponseReceive .. => execRingHandshakeResponseReceive_evolves ..
  | .rekeySwitch .. => .next <| .ite .rfl <| pumpAll_evolves _ <| modPort_evolves _ _ <| switchKey_evolves _ _ .rfl
  | .rekeyRetry .. => .next <| .ite (startHandshake_evolves _ <| modPort_evolves _ _ .rfl) .rfl
  | .portTrainAttempt .. => .next <| .ite (modPort_evolves _ _ .rfl) .rfl
  | .portLinkUp .. => .next <| .ite .rfl <| .ite (netFlush_evolves _ <| modPort_evolves _ _ <| modPort_evolves _ _ .rfl) <|
      .ite (startHandshake_evolves _ <| modPort_evolves _ _ .rfl) <| modPort_evolves _ _ .rfl
  | .linkDown .. => .next <| .ite (linkGoesDown_evolves _ _ <| countFec_evolves _ _ .rfl) .rfl
  | .networkFrameReceive .. => execNetworkFrameReceive_evolves ..
  | .pfcPauseReceive .. => .next <| .ite (modPort_evolves _ _ .rfl) .rfl
  | .roceRequestReceive .. => .next <| .ite .rfl <| arrive_evolves _ _ _ _ .rfl
  | .roceAckReceive .. => .next <| answerPacket_evolves _ _ .rfl
  | .roceReadResponseReceive .. => .next <| answerPacket_evolves _ _ .rfl
  | .roceNakReceive .. => .next <| answerPacket_evolves _ _ .rfl
  | .psnSequenceNakReceive .. => .next <| answerPacket_evolves _ _ .rfl
  | .rnrNakReceive .. => .next <| answerPacket_evolves _ _ .rfl
  | .rnrTimerExpire .. => execRnrTimerExpire_evolves ..
  | .ackTimeout .. => execAckTimeout_evolves ..
  | .contextFetchDone .. => execContextFetchDone_evolves ..
  | .cnpReceive .. => .next <| answerPacket_evolves _ _ .rfl
  | .rateIncreaseTimer .. => .next <| modConn_evolves _ _ .rfl
  | .finalWritePlace .. => execFinalWritePlace_evolves ..
  | .revokeDone .. => execRevokeDone_evolves ..
  | .stagingReserve .. => .next <| .foldl (fun _ _ => arrive_evolves _ _ _ _) _ <| modRdm_evolves _ .rfl
  | .sliceAdmission .. => execSliceAdmission_evolves ..
  | .roundClosed .. => execRoundClosed_evolves ..
  | .eventIrqCoalesceExpire .. => execEventIrqCoalesceExpire_evolves ..
  | .bar2Read .. => .next <| bar0Read_evolves _ _ _ .rfl fun _ h =>
      .ite (refuseRead_evolves _ _ <| bar2Denied_evolves h) <| deviceRead_evolves _ _ _ <| .ite h <| setAer_evolves _ _ h
  | .bar2Write .. => .next <| .ite .rfl <| .ite (countReject_evolves .rfl) <| .ite (bar2Denied_evolves .rfl) <| deviceWrite_evolves _ _ _ .rfl
  | .hostReadCompletion .. => .next <| endRead_evolves _ _ .rfl
  | .hostCompletionTimeout .. => .next <| endRead_evolves _ _ .rfl
  | .flr .. => .next <| flr_evolves _ .rfl
  | .flrPf0 .. => .next <| flr_evolves _ .rfl
  | .hotReset .. => .next <| flr_evolves _ .rfl
  | .busMasterEnableSet .. => .next <| .ite .rfl <| releaseHeld_evolves _ <| modFn_evolves _ _ .rfl
  | .getVersion .. => .next <| spdmAt_evolves _ _ .rfl fun _ h => spdmAnswer_evolves _ <| modHif_evolves _ h
  | .getCapabilities .. => .next <| spdmAt_evolves _ _ .rfl fun _ h => spdmAnswer_evolves _ <| modHif_evolves _ h
  | .negotiateAlgorithms .. => .next <| spdmAt_evolves _ _ .rfl fun _ h => .ite (spdmError_evolves _ h) <| spdmAnswer_evolves _ <| modHif_evolves _ h
  | .getDigests .. => .next <| spdmAt_evolves _ _ .rfl fun _ h => withAttest_evolves _ h fun _ _ h1 => emit_evolves _ h1
  | .getCertificate .. => .next <| spdmAt_evolves _ _ .rfl fun _ h => withAttest_evolves _ h fun _ _ h1 =>
      .ite (spdmError_evolves _ h1) <| emit_evolves _ h1
  | .challenge .. => .next <| spdmAt_evolves _ _ .rfl fun _ h =>
      .ite (spdmError_evolves _ h) <| withSign_evolves _ _ h fun _ _ h1 => spdmSigned_evolves _ _ _ <| spdmBody_evolves _ h1
  | .getMeasurements .. => .next <| spdmAt_evolves _ _ .rfl fun _ h =>
      .ite (spdmError_evolves _ h) <| withSign_evolves _ _ h fun _ _ h1 => spdmSigned_evolves _ _ _ h1
  | .keyExchange .. => .next <| spdmAt_evolves _ _ .rfl fun _ h => .ite (spdmError_evolves _ h) <|
      .ite (spdmError_evolves _ h) <| withSign_evolves _ _ h fun _ _ h => spdmSigned_evolves _ _ _ <| modHif_evolves _ <| drbgTake_evolves 32 h
  | .finish .. => .next <| spdmAt_evolves _ _ .rfl fun _ h => .ite (spdmError_evolves _ h) <|
      .ite (spdmAnswer_evolves _ <| modHif_evolves _ h) <| spdmError_evolves _ <| modHif_evolves _ h
  | .endSession .. => .next <| inSession_evolves _ .rfl fun _ h => spdmAnswer_evolves _ <| modHif_evolves _ h
  | .keyUpdate .. => .next <| inSession_evolves _ .rfl fun _ h => spdmAnswer_evolves _ <| modHif_evolves _ h
  | .heartbeat .. => .next <| inSession_evolves _ .rfl fun _ => spdmAnswer_evolves _
  | .ideKmKeyProg .. => .next <| inSession_evolves _ .rfl fun _ h => spdmAnswer_evolves _ <| modStream_evolves _ _ <| fillSlot_evolves _ h
  | .kSetGo .. => execKSetGo_evolves ..
  | .ideIntegrityFail .. => .next <| .ite .rfl <| tdiError_evolves <| modHif_evolves _ <| modStream_evolves _ _ .rfl
  | .lockInterfaceRequest .. => .next <| tdisp_evolves _ _ .rfl fun _ h => .ite (spdmError_evolves _ h) <| spdmAnswer_evolves _ <| modHif_evolves _ h
  | .startInterfaceRequest .. => .next <| tdisp_evolves _ _ .rfl fun _ h => .ite (spdmError_evolves _ h) <| spdmAnswer_evolves _ <| modHif_evolves _ h
  | .stopInterfaceRequest .. => .next <| tdisp_evolves _ _ .rfl fun _ h => spdmAnswer_evolves _ <| modHif_evolves _ h
  | .getDeviceInterfaceReport .. => .next <| tdisp_evolves _ _ .rfl fun _ h => .ite (emit_evolves _ h) <| spdmError_evolves _ h
  | .cvuStart .. => .next <| bar0Write_evolves _ _ .rfl fun _ => cvuStart_evolves
  | .cvuDataWrite .. => .next <| bar0Write_evolves _ _ .rfl fun _ => cvuData_evolves _ _
  | .cvuByteStep .. => .next <| modCvu_evolves _ .rfl
  | .cvuResultRead .. => .next <| bar0Read_evolves _ _ _ .rfl fun _ => cvuRead_evolves
  | .standbyRequest .. => .next <| bar0Write_evolves _ _ .rfl fun _ => standbyWrite_evolves _
  | .debugBar0Access .. => execDebugBar0Access_evolves ..
  | .debugMemoryAccess .. => execDebugMemoryAccess_evolves ..
  | .debugHalt .. => .next <| .ite .rfl <| modMbx_evolves _ .rfl id id
  | .debugStep .. => .next <| .ite .rfl <| modMbx_evolves _ .rfl id id
  | .debugResume .. => .next <| .ite .rfl <| firmwareResumes_evolves <| modMbx_evolves _ .rfl id id
  | .powerOn .. => .next <| powerOnReset_evolves .rfl
  | .resetNFall .. => .next <| modRst_evolves _ .rfl
  | .coreResetQualify .. => .next <| .ite (powerOnReset_evolves .rfl) <| .ite .rfl <| modRst_evolves _ <|
      .ite (clearSystem_evolves <| abandonFirmware_evolves .rfl) <| clearCore_evolves <| abandonFirmware_evolves .rfl
  | .resetStretchRelease .. => .next <| modRst_evolves _ .rfl
  | .systemResetQualify .. => .next <| .ite .rfl <| modRst_evolves _ <| clearSystem_evolves .rfl
  | .resetNRise .. => .next <| .ite (.ite (modRst_evolves _ .rfl) .rfl) <|
      .ite (modRst_evolves _ <| .ite (modRst_evolves _ .rfl) .rfl) <| beginOptionLoad_evolves <| .ite (modRst_evolves _ .rfl) .rfl
  | .optionLoadDone .. => execOptionLoadDone_evolves ..
  | .firmwareReady .. => execFirmwareReady_evolves ..
  | .watchdogExpire .. => .next <| .ite .rfl <| modPins_evolves _ <| modMbx_evolves _ .rfl id id
  | .hbmZeroFillDone .. => execHbmZeroFillDone_evolves ..
  | .hbmSweepDone .. => .next <| .ite .rfl <| postEvent_evolves _ _ _ _ <| clearSlots_evolves _ <| modMpr_evolves _ .rfl
  | .entropyBlock .. => execEntropyBlock_evolves ..
  | .drbgInstantiate .. => .next <| .ite (seedDrbg_evolves _ .rfl) .rfl
  | .drbgReseed .. => .next <| .ite (seedDrbg_evolves _ .rfl) .rfl
  | .powerCapDecision .. => .next <| .ite .rfl <| modClk_evolves _ <| set_draw_evolves _ .rfl (Nat.le_succ _)
  | .fastPowerLimit .. => .next <| .ite .rfl <| modPins_evolves _ <| modClk_evolves _ .rfl
  | .thermalSample .. => .next <| .ite .rfl <| modClk_evolves _ .rfl
  | .thermalTrip .. => .next <| .ite .rfl <| set_backup_evolves _ <| powerOff_evolves .rfl
  | .inputUndervoltage .. => .next <| inputLost_evolves .rfl
  | .inputOvervoltage .. => .next <| inputLost_evolves .rfl
  | .tamperAlarm .. => .next <| .ite (tamperAlarm_evolves _ .rfl) .rfl
  | .backupTamperLatch .. => .next <| .ite .rfl <| set_backup_evolves _ .rfl
  | .backupSupplyLoss .. => .next <| .ite .rfl <| set_backup_evolves _ .rfl
  | .hbmTrainingDone .. => .next <| .ite .rfl <| startFill_evolves <| modMpr_evolves _ .rfl
  | .pcieLinkUp .. => .next <| .ite .rfl <| modHif_evolves _ .rfl
  | .pcieLinkDown .. => .next <| modHif_evolves _ .rfl
  | .selfTestDone .. => execSelfTestDone_evolves ..
  | .entropyWaitTimeout .. => execEntropyWaitTimeout_evolves ..
  | .fastLimitAlertRelease .. => .next <| modPins_evolves _ .rfl
  | .busMasterEnableClear .. => .next <| .ite .rfl <| modFn_evolves _ _ .rfl
  | .d3hotTransition .. => .next <| .ite .rfl <| .ite (modFn_evolves _ _ .rfl) <| releaseHeld_evolves _ <| modFn_evolves _ _ .rfl
  | .pfcPauseExpire .. => .next <| netFlush_evolves _ <| modPort_evolves _ _ .rfl

theorem tick_frame (s : State) : (tick s).kst = s.kst ∧ (tick s).out = s.out ∧ (tick s).partId = s.partId := by
  unfold tick sweepOn
  dsimp only
  split <;> exact ⟨rfl, rfl, rfl⟩

/-- Settles O5: a command evolves the state (`exec_evolves`), and a microsecond of the timer touches none of the four. -/
theorem nothingTakenBack : Obligations.NothingTakenBack := by
  intro s t hstep
  unfold step at hstep
  split at hstep
  · cases hstep
    obtain ⟨hkst, hout, hpart⟩ := tick_frame s
    rw [hkst, hout, hpart]
    exact ⟨Nat.le_refl _, id, List.prefix_rfl, rfl⟩
  next c rest _ =>
    have evolved := exec_evolves c { s with pending := rest }
    rw [hstep] at evolved
    have kept := evolved.of_next
    exact ⟨kept.serial, kept.seed, kept.sent, kept.part⟩

end Sys2Proof.Machine
end

section
/-! What a fence runs leaves the state of the TDI (15_host_interface.md R306): one lemma for each operation, in the order of the model. -/

namespace Sys2Proof.Machine

section
variable (s : State)

@[simp] theorem ite_tdi (c : Prop) [Decidable c] (a b : State) : (if c then a else b).hif.tdi = if c then a.hif.tdi else b.hif.tdi :=
  apply_ite (·.hif.tdi) c a b

@[simp] theorem foldl_tdi {α : Type} (f : State → α → State) (l : List α) (hf : ∀ t a, (f t a).hif.tdi = t.hif.tdi) :
    (l.foldl f s).hif.tdi = s.hif.tdi := by
  induction l generalizing s with
  | nil => rfl
  | cons a l ih => exact (ih _).trans (hf _ _)

@[simp] theorem foldr_tdi {α : Type} (f : α → State → State) (l : List α) (hf : ∀ a t, (f a t).hif.tdi = t.hif.tdi) :
    (l.foldr f s).hif.tdi = s.hif.tdi := by
  induction l with
  | nil => rfl
  | cons a l ih => exact (hf _ _).trans ih

/-! ## Messages, memory, events, completions and rings -/

@[simp] theorem send_tdi (o : Output) : (send o s).hif.tdi = s.hif.tdi := rfl

@[simp] theorem post_tdi (fn : Nat) (o : Output) : (post fn o s).hif.tdi = s.hif.tdi := by simp [post]

@[simp] theorem postData_tdi (fn a : Nat) (b : Bytes) : (postData fn a b s).hif.tdi = s.hif.tdi := by simp [postData]

@[simp] theorem mapPages_tdi (p n : Nat) (f : PageMeta → PageMeta) : (mapPages p n f s).hif.tdi = s.hif.tdi := by simp [mapPages]

@[simp] theorem countWalks_tdi (n : Nat) : (countWalks n s).hif.tdi = s.hif.tdi := rfl

@[simp] theorem writePages_tdi (p n lo hi : Nat) : (writePages p n lo hi s).hif.tdi = s.hif.tdi := by simp [writePages]

@[simp] theorem writeLines_tdi (a n : Nat) : (writeLines a n s).hif.tdi = s.hif.tdi := by simp [writeLines]

@[simp] theorem wipeHbm_tdi (a n : Nat) : (wipeHbm a n s).hif.tdi = s.hif.tdi := by simp [wipeHbm]

@[simp] theorem release_tdi (p : Owner → Bool) : (release p s).hif.tdi = s.hif.tdi := by simp [release]

@[simp] theorem memWrite_tdi (a : Nat) (bs : Bytes) : (memWrite a bs s).2.hif.tdi = s.hif.tdi := by
  unfold memWrite
  dsimp only
  split
  · split
    · rfl
    · split <;> simp
  · simp

@[simp] theorem ringStore_tdi (fn : Nat) (hbm : Bool) (a : Nat) (bs : Bytes) : (ringStore fn hbm a bs s).hif.tdi = s.hif.tdi := by simp [ringStore]

@[simp] theorem tailStore_tdi (fn : Nat) (tail producer : Nat) : (tailStore fn tail producer s).hif.tdi = s.hif.tdi := by
  unfold tailStore
  split <;> simp

@[simp] theorem loseEvent_tdi : (loseEvent s).hif.tdi = s.hif.tdi := rfl

@[simp] theorem signalEvent_tdi (vector : Nat) : (signalEvent vector s).hif.tdi = s.hif.tdi := by simp [signalEvent]

@[simp] theorem writeEvent_tdi (r : EventRing) (code sev seq arg0 arg1 : Nat) : (writeEvent r code sev seq arg0 arg1 s).hif.tdi = s.hif.tdi := by
  unfold writeEvent
  dsimp only
  split <;> simp

@[simp] theorem postEvent_tdi (code sev arg0 arg1 : Nat) : (postEvent code sev arg0 arg1 s).hif.tdi = s.hif.tdi := by
  unfold postEvent
  split <;> simp

@[simp] theorem modJob_tdi (order : Nat) (f : Job → Job) : (modJob order f s).hif.tdi = s.hif.tdi := rfl

@[simp] theorem finishWith_tdi (reason : Option Nat) (j : Job) (st : Status) (payload : Bytes) :
    (finishWith reason j st payload s).hif.tdi = s.hif.tdi := by simp [finishWith]

@[simp] theorem finish_tdi (j : Job) (st : Status) (payload : Bytes) : (finish j st payload s).hif.tdi = s.hif.tdi := by simp [finish]

@[simp] theorem conclude_tdi (j : Job) (st : Status) (payload : Bytes) : (conclude j st payload s).hif.tdi = s.hif.tdi := by simp [conclude]

@[simp] theorem modWring_tdi (n : Nat) (f : WRing → WRing) : (modWring n f s).hif.tdi = s.hif.tdi := rfl

@[simp] theorem modCring_tdi (n : Nat) (f : CRing → CRing) : (modCring n f s).hif.tdi = s.hif.tdi := rfl

@[simp] theorem signalCring_tdi (c : CRing) : (signalCring c s).hif.tdi = s.hif.tdi := by simp [signalCring]

@[simp] theorem writeEntry_tdi (cn : Nat) (entry : Bytes) : (writeEntry cn entry s).hif.tdi = s.hif.tdi := by
  unfold writeEntry
  split <;> simp

@[simp] theorem finishDesc_tdi (d : Nat) (entry : Bytes) : (finishDesc d entry s).hif.tdi = s.hif.tdi := by
  unfold finishDesc
  split
  · rfl
  · dsimp only
    split <;> simp

@[simp] theorem flushHeld_tdi (ring n : Nat) : (flushHeld ring n s).hif.tdi = s.hif.tdi := by
  induction n generalizing s with
  | zero => rfl
  | succ n ih =>
    unfold flushHeld
    split
    · rfl
    · split <;> simp [ih]

@[simp] theorem completeDesc_tdi (d : Nat) (entry : Bytes) : (completeDesc d entry s).hif.tdi = s.hif.tdi := by
  unfold completeDesc
  split <;> simp

@[simp] theorem dropReads_tdi (p : HostRead → Bool) : (dropReads p s).hif.tdi = s.hif.tdi := rfl

@[simp] theorem wipeSheets_tdi (m : BitVec 32) : (wipeSheets m s).hif.tdi = s.hif.tdi := rfl

@[simp] theorem dropSwaps_tdi (p : Swap → Bool) : (dropSwaps p s).hif.tdi = s.hif.tdi := rfl

@[simp] theorem endWork_tdi (w : Work) : (endWork w s).hif.tdi = s.hif.tdi := rfl

/-! ## Fetches -/

@[simp] theorem abandonFetch_tdi (w : WRing) : (abandonFetch w s).hif.tdi = s.hif.tdi := by simp [abandonFetch]

/-! ## The homomorphic engine -/

@[simp] theorem modCtx_tdi (h : Nat) (f : HCtx → HCtx) : (modCtx h f s).hif.tdi = s.hif.tdi := rfl

@[simp] theorem putSlot_tdi (h n : Nat) (o : HSlot) : (putSlot h n o s).hif.tdi = s.hif.tdi := rfl

@[simp] theorem invalidate_tdi (h n : Nat) : (invalidate h n s).hif.tdi = s.hif.tdi := by
  unfold invalidate
  split <;> simp

@[simp] theorem finishOp_tdi (f : FDesc) (st : Status) (level keyBytes : Nat) :
    (finishOp f st level keyBytes s).hif.tdi = s.hif.tdi := by simp [finishOp]

@[simp] theorem ctxFaulted_tdi (h : Nat) (st : Status) : (ctxFaulted h st s).hif.tdi = s.hif.tdi := by simp [ctxFaulted]

@[simp] theorem dropHevReads_tdi (d : Nat) : (dropHevReads d s).hif.tdi = s.hif.tdi := rfl

@[simp] theorem stopPlates_tdi (o : HOp) : (stopPlates o s).hif.tdi = s.hif.tdi := by simp [stopPlates]

@[simp] theorem countRun_tdi (whole : Bool) (o : HOp) : (countRun whole o s).2.hif.tdi = s.hif.tdi := by simp [countRun]

@[simp] theorem endBadly_tdi (whole : Bool) (o : HOp) (f : FDesc) (st : Status) : (endBadly whole o f st s).hif.tdi = s.hif.tdi := by simp [endBadly]

@[simp] theorem stopMidway_tdi (o : HOp) (f : FDesc) (st : Status) : (stopMidway o f st s).hif.tdi = s.hif.tdi := by simp [stopMidway]

@[simp] theorem stopOp_tdi (o : HOp) (st : Status) : (stopOp o st s).hif.tdi = s.hif.tdi := by
  unfold stopOp
  split <;> simp

@[simp] theorem faultCtx_tdi (h : Nat) (st evSt : Status) : (faultCtx h st evSt s).hif.tdi = s.hif.tdi := by simp [faultCtx]

/-! ## Rounds -/

@[simp] theorem wipeRound_tdi (h : Nat) : (wipeRound h s).hif.tdi = s.hif.tdi := by simp [wipeRound]

@[simp] theorem abortRound_tdi (h : Nat) : (abortRound h s).hif.tdi = s.hif.tdi := by
  unfold abortRound
  split
  · rfl
  · dsimp only
    split <;> simp

@[simp] theorem abortRounds_tdi : (abortRounds s).hif.tdi = s.hif.tdi := by simp [abortRounds]

/-! ## The key store -/

@[simp] theorem setDrbg_tdi (w : Bytes × Bytes) : (setDrbg w s).hif.tdi = s.hif.tdi := rfl

@[simp] theorem drbgTake_tdi (n : Nat) : (drbgTake n s).2.hif.tdi = s.hif.tdi := rfl

@[simp] theorem clearSlots_tdi (p : Nat → Bool) : (clearSlots p s).hif.tdi = s.hif.tdi := rfl

@[simp] theorem signWith_tdi (k : KeySlot) (msg : Bytes) : (signWith k msg s).2.hif.tdi = s.hif.tdi := rfl

/-! ## The ring's links -/

@[simp] theorem dropLinkKeys_tdi (port : Nat) : (dropLinkKeys port s).hif.tdi = s.hif.tdi := rfl

@[simp] theorem hsSign_tdi (initiator : Bool) (before : Bytes) (h : Handshake) : (hsSign initiator before h s).2.hif.tdi = s.hif.tdi := by
  unfold hsSign
  split <;> simp

@[simp] theorem startHandshake_tdi (port : Nat) : (startHandshake port s).hif.tdi = s.hif.tdi := by
  unfold startHandshake
  split <;> simp

@[simp] theorem beginRekey_tdi (port : Nat) : (beginRekey port s).hif.tdi = s.hif.tdi := by simp [beginRekey]

@[simp] theorem ringBroken_tdi (port : Nat) : (ringBroken port s).hif.tdi = s.hif.tdi := by
  unfold ringBroken
  split <;> simp

@[simp] theorem linkGoesDown_tdi (port reason : Nat) : (linkGoesDown port reason s).hif.tdi = s.hif.tdi := by simp [linkGoesDown]

@[simp] theorem emitDelimiter_tdi (port : Nat) (d : Delimiter) : (emitDelimiter port d s).hif.tdi = s.hif.tdi := rfl

@[simp] theorem emitFrame_tdi (port : Nat) (f : RingFrame) : (emitFrame port f s).hif.tdi = s.hif.tdi := rfl

@[simp] theorem sendOn_tdi (port : Nat) (f : RingFrame) : (sendOn port f s).hif.tdi = s.hif.tdi := rfl

@[simp] theorem ctrLimits_tdi (port : Nat) : (ctrLimits port s).hif.tdi = s.hif.tdi := by simp [ctrLimits]

@[simp] theorem pump_tdi (port n : Nat) : (pump port n s).hif.tdi = s.hif.tdi := by
  induction n generalizing s with
  | zero => rfl
  | succ n ih =>
    unfold pump
    dsimp only
    split
    · rfl
    · split <;> simp [ih]

@[simp] theorem pumpAll_tdi (port : Nat) : (pumpAll port s).hif.tdi = s.hif.tdi := by simp [pumpAll]

@[simp] theorem sendFrame_tdi (dest : Nat) (f : RingFrame) : (sendFrame dest f s).hif.tdi = s.hif.tdi := by
  unfold sendFrame
  split <;> simp

@[simp] theorem sendControl_tdi (dest : Nat) (c : RingCtl) : (sendControl dest c s).hif.tdi = s.hif.tdi := by
  unfold sendControl
  split <;> simp

@[simp] theorem controlAll_tdi (c : RingCtl) : (controlAll c s).hif.tdi = s.hif.tdi := by
  unfold controlAll
  split <;> simp

@[simp] theorem netDrop_tdi (port qpn : Nat) : (netDrop port qpn s).hif.tdi = s.hif.tdi := rfl

/-! ## The end of a session -/

@[simp] theorem issueProof_tdi (d : Session) : (issueProof d s).hif.tdi = s.hif.tdi := by
  unfold issueProof
  split <;> simp

@[simp] theorem doneOut_tdi (o : OutDesc) (st : Status) (stop signer serial : Nat) :
    (doneOut o st stop signer serial s).hif.tdi = s.hif.tdi := by simp [doneOut]

@[simp] theorem endOutput_tdi (proof : Bool) : (endOutput proof s).hif.tdi = s.hif.tdi := by
  unfold endOutput
  split
  · rfl
  · split <;> simp

@[simp] theorem replayEnd_tdi : (replayEnd s).hif.tdi = s.hif.tdi := by
  unfold replayEnd
  dsimp only
  split
  · rfl
  · split
    · rfl
    · split <;> simp

@[simp] theorem dropActions_tdi (w : Work) : (dropActions w s).hif.tdi = s.hif.tdi := rfl

@[simp] theorem dropLoads_tdi (w : Work) : (dropLoads w s).hif.tdi = s.hif.tdi := rfl

@[simp] theorem signOrWait_tdi : (signOrWait s).hif.tdi = s.hif.tdi := by
  unfold signOrWait
  split <;> simp

@[simp] theorem stopSession_tdi (reason : Nat) (cause : Status) (sign : Bool) : (stopSession reason cause sign s).hif.tdi = s.hif.tdi := by
  unfold stopSession
  split <;> simp

@[simp] theorem quietRing_tdi : (quietRing s).hif.tdi = s.hif.tdi := by
  unfold quietRing
  split <;> simp

@[simp] theorem leaveSession_tdi (cause : Status) : (leaveSession cause s).hif.tdi = s.hif.tdi := by simp [leaveSession]

/-! ## Channels -/

@[simp] theorem signalAt_tdi (c occ : Nat) : (signalAt c occ s).hif.tdi = s.hif.tdi := by
  unfold signalAt
  split <;> simp

@[simp] theorem channelSignal_tdi (c : Nat) : (channelSignal c s).hif.tdi = s.hif.tdi := by simp [channelSignal]

@[simp] theorem dropPacketAt_tdi (port priority i : Nat) : (dropPacketAt port priority i s).hif.tdi = s.hif.tdi := by simp [dropPacketAt]

/-! ## Connections -/

@[simp] theorem modConn_tdi (h : Nat) (f : Conn → Conn) : (modConn h f s).hif.tdi = s.hif.tdi := rfl

@[simp] theorem cutDesc_tdi (f : FDesc) (st : Status) (moved : Nat) : (cutDesc f st moved s).hif.tdi = s.hif.tdi := by simp [cutDesc]

@[simp] theorem flushDesc_tdi (f : FDesc) (moved : Nat) : (flushDesc f moved s).hif.tdi = s.hif.tdi := by simp [flushDesc]

@[simp] theorem flushConn_tdi (h : Nat) : (flushConn h s).hif.tdi = s.hif.tdi := by simp [flushConn]

@[simp] theorem dropWaiting_tdi (h : Nat) : (dropWaiting h s).hif.tdi = s.hif.tdi := by
  unfold dropWaiting
  split <;> simp

@[simp] theorem abandonMessages_tdi (h : Nat) : (abandonMessages h s).hif.tdi = s.hif.tdi := by simp [abandonMessages]

@[simp] theorem connError_tdi (h : Nat) (st : Status) : (connError h st s).hif.tdi = s.hif.tdi := by
  unfold connError
  split <;> simp

/-! ## Fences -/

@[simp] theorem completeAll_tdi (fn : Nat) (st : Status) (keep : Option Nat) : (completeAll fn st keep s).hif.tdi = s.hif.tdi := by simp [completeAll]

@[simp] theorem endDecode_tdi (st : Status) : (endDecode st s).hif.tdi = s.hif.tdi := by
  unfold endDecode
  split
  · rfl
  · split
    · rfl
    · split <;> simp

@[simp] theorem fenceEngine_tdi (fn : Nat) (st : Status) : (fenceEngine fn st s).hif.tdi = s.hif.tdi := by simp [fenceEngine]

@[simp] theorem dropFnReads_tdi (fn : Nat) : (dropFnReads fn s).hif.tdi = s.hif.tdi := by simp [dropFnReads]

@[simp] theorem fenceWith_tdi (st : Status) (fn : Nat) : (fenceWith st s fn).hif.tdi = s.hif.tdi := by simp [fenceWith]

@[simp] theorem fence_tdi (fn : Nat) : (fence fn s).hif.tdi = s.hif.tdi := by simp [fence]

/-- TDI_ERROR (R306) ends in ERROR, whatever the fences do. -/
theorem tdiError_tdi : (tdiError s).hif.tdi = .error := by
  simp [tdiError]

end

end Sys2Proof.Machine
end

section
/-! What the host's accesses to BAR0 do (R15, R17, R50, R306, R435): an access that is taken, and the rows of 00_scope.md that are one. -/

namespace Sys2Proof.Machine

section
variable {s : State} {secure : Bool}

theorem bar0Read_answered {fn : Nat} (h : HostReads s secure) (f : State → State) : bar0Read fn secure s f = f s := by
  obtain ⟨hreach, hrun⟩ := h
  have taken : tdiRefuses s secure = false := by simpa [tdiRefuses] using hrun
  simp [bar0Read, hreach, taken]

theorem bar0Write_taken (h : HostWrites s secure) (f : State → State) : bar0Write secure s f = f s := by
  obtain ⟨hreach, hrun, hlock⟩ := h
  have taken : tdiRefuses s secure = false := by simpa [tdiRefuses] using hrun
  simp [bar0Write, hreach, taken, hlock]

theorem countBad_eq (s : State) : countBad s =
    { s with hif := { s.hif with badAccess := min (s.hif.badAccess + 1) (2 ^ 32 - 1), sticky := s.hif.sticky ||| 2 } } := by
  simp [countBad, modHif, sat, satAdd, setBit]

/-- R50 arms a snapshot when none is pending, its stroke is still to come, and the confidential interval is over. -/
theorem armFromRegister_armed (hpend : s.prs.snapPending = false) (hlate : s.prs.stroke < s.prs.snapAt)
    (hconf : confidential s = true → ∀ u, s.prs.snapTime = some u → u + 1000000 ≤ s.now) :
    armFromRegister s = { s with prs := { s.prs with snapPending := true, snapTarget := s.prs.snapAt } } := by
  have spaced : ¬(confidential s && s.prs.snapTime.any (fun u => decide (s.now < u + 1000000))) = true := by
    intro h
    obtain ⟨hc, hany⟩ := Bool.and_eq_true_iff.mp h
    obtain ⟨u, htime, hsoon⟩ := (Option.any_eq_true _ _).mp hany
    exact absurd (of_decide_eq_true hsoon) (Nat.not_lt.mpr (hconf hc u htime))
  unfold armFromRegister armSnapshot
  dsimp only
  split
  next h => exact absurd h (by simp [hpend])
  next =>
    split
    next h => exact absurd h (Nat.not_le.mpr hlate)
    next =>
      split
      next h => exact absurd h spaced
      next => rfl

end

/-- Settles O11: each row is its access when it is taken (`bar0Write_taken`, `bar0Read_answered`), and an arming that none of R50's
three grounds stops is `armFromRegister_armed`. -/
theorem hostRegisterAccesses : Obligations.HostRegisterAccesses := by
  unfold Obligations.HostRegisterAccesses
  refine ⟨fun s fn secure off width hbad hw => ?_, fun s fn secure off width hbad hr => ?_, fun s secure hr => ?_,
    fun s secure hw hpend hlate hconf => ?_⟩
  · simp [exec, execBadRegisterAccess, hbad, bar0Write_taken hw, countBad_eq]
  · cases hdown : downAt s fn.val off <;> simp [exec, execBadRegisterAccess, hbad, bar0Read_answered hr, countBad_eq, emit, hdown]
  · simp [exec, execLoRegisterRead, bar0Read_answered hr, latchHi, loValue, emit, modPrs, modPla, modHev]
  · simp [exec, execSnapCtrlArm, bar0Write_taken hw, armFromRegister_armed hpend hlate hconf]

end Sys2Proof.Machine
end

section
/-! REGISTER_WRITE (R15, R306): what a write of a word to a block of BAR0 does, block by block, and the writes that the TDI locks. -/

namespace Sys2Proof.Machine

section
variable {s : State} {secure : Bool}

/-! ## One word of one block (R15) -/

/-- The blocks whose registers are words and that no core reset holds down (Table 0-6, R17, R395). -/
def wordBlocks : List Blk := [.ids, .rst, .clk, .prs, .cvu, .ent, .pla, .hif, .kst, .mpr, .buf, .tst, .ptn, .hev, .lnk, .rdm]

/-- What a write of a word does in one of `wordBlocks`. -/
def blockWrite (b : Blk) (o v : Nat) (s : State) : State :=
  match b with
  | .clk => clkWrite o v s
  | .prs => prsWrite o v s
  | .cvu => cvuWrite o v s
  | .pla => plaWrite o v s
  | .hif => hifWrite o v s
  | .mpr => mprWrite o v s
  | .buf => bufWrite o v s
  | _ => otherWrite b o v s

theorem forall_wordBlocks {p : Blk → Prop} : (∀ b ∈ wordBlocks, p b) ↔
    p .ids ∧ p .rst ∧ p .clk ∧ p .prs ∧ p .cvu ∧ p .ent ∧ p .pla ∧ p .hif ∧ p .kst ∧ p .mpr ∧ p .buf ∧ p .tst ∧ p .ptn ∧ p .hev ∧ p .lnk ∧ p .rdm := by
  simp [wordBlocks]

theorem blockDown_wordBlock : ∀ b ∈ wordBlocks, blockDown s b = false := by
  rw [forall_wordBlocks]
  and_intros <;> exact Bool.and_false _

theorem rightWidth_wordBlock {o : Nat} (ho : o % 4 = 0) : ∀ b ∈ wordBlocks, rightWidth b o 4 true = true := by
  have word : (4 == 4 && aligned o 4) = true := by simp only [aligned, ho]; decide
  rw [forall_wordBlocks]
  and_intros <;> exact word

theorem regWrite_wordBlock (o w v : Nat) : ∀ b ∈ wordBlocks, blockDown s b = false → regWrite b o w v s = blockWrite b o v s := by
  rw [forall_wordBlocks]
  and_intros <;> exact fun up => (if_neg (ne_true_of_eq_false up)).trans rfl

theorem registerWrite_bar0 (h : HostWrites s secure) {fn : FnId} {off width : Nat} {v : BitVec 64} :
    exec (.registerWrite fn secure (.bar0 off) width v) s = .next (plainWrite fn.val off width v.toNat s) :=
  congrArg Host.Outcome.next (bar0Write_taken h _)

/-- REGISTER_WRITE of an aligned word in one of `wordBlocks` is that block's write. -/
theorem registerWrite_word (h : HostWrites s secure) {fn : FnId} {off : Nat} {v : BitVec 64} (b : Blk) (o : Nat)
    (hat : blockAt fn.val off = some (b, o) := by rfl) (ho : o % 4 = 0 := by rfl) (hb : b ∈ wordBlocks := by decide) :
    exec (.registerWrite fn secure (.bar0 off) 4 v) s = .next (blockWrite b o v.toNat s) := by
  have up := blockDown_wordBlock (s := s) b hb
  rw [registerWrite_bar0 h]
  simp [plainWrite, downAt, hat, up, rightWidth_wordBlock ho b hb, regWrite_wordBlock o 4 v.toNat b hb up]

/-! ## Registers that stand in rows (Tables 0-9, 12-7, 14-7 and 15-8) -/

theorem blockAt_bar2 : ∀ i < 5, blockAt 0 (0x7020 + 4 * i) = some (.hif, 0x20 + 4 * i) := by decide

theorem blockAt_lnk : ∀ p < 5, blockAt 4 (0x1004 + 0x100 * p) = some (.lnk, 4 + 0x100 * p) := by decide

theorem blockAt_mbxSticky : ∀ m < 3, blockAt 0 (0x10028 + 0x4000 * m) = some (.mbx, 0x28 + 0x4000 * m) := by decide

theorem blockAt_chCfg {c : Nat} (hc : c < 40) : blockAt 0 (0xC100 + 16 * c) = some (.buf, 0x100 + 16 * c) := by
  have page : (0xC100 + 16 * c) / 0x1000 = 0xC := by omega
  have offset : 0xC100 + 16 * c - 0xC000 = 0x100 + 16 * c := by omega
  simp [blockAt, page, offset]

theorem blockAt_ids {k : Nat} (hk : k < 1024) : blockAt 0 (4 * k) = some (.ids, 4 * k) := by
  have page : 4 * k / 0x1000 = 0 := by omega
  simp [blockAt, page]

end

section
variable {s : State} {v : Nat}

/-! ## Fields that something locks -/

theorem prsWrite_snapAt_lo : prsWrite 0x20 v s =
    { s with prs := if s.prs.snapPending then { s.prs with sticky := s.prs.sticky ||| 1 }
                    else { s.prs with snapAt := s.prs.snapAt / 2 ^ 32 * 2 ^ 32 + v % 2 ^ 32 } } := by
  cases hlock : s.prs.snapPending <;> simp [prsWrite, hlock, modPrs, setBit]

theorem prsWrite_snapAt_hi : prsWrite 0x24 v s =
    { s with prs := if s.prs.snapPending then { s.prs with sticky := s.prs.sticky ||| 1 }
                    else { s.prs with snapAt := v % 2 ^ 16 * 2 ^ 32 + s.prs.snapAt % 2 ^ 32 } } := by
  cases hlock : s.prs.snapPending <;> simp [prsWrite, hlock, modPrs, setBit]

theorem cvuWrite_poly : cvuWrite 0 v s =
    { s with cvu := if s.cvu.queue = [] then { s.cvu with poly := bit v 0 } else { s.cvu with sticky := s.cvu.sticky ||| 1 } } := by
  cases hlock : s.cvu.queue <;> simp [cvuWrite, hlock, modCvu, setBit]

theorem cvuWrite_fold_locked (hlock : s.cvu.queue ≠ []) :
    cvuWrite 0x10 v s = { s with cvu := { s.cvu with sticky := s.cvu.sticky ||| 1 } } := by
  simp [cvuWrite, hlock, modCvu, setBit]

theorem cvuWrite_fold_free (hfree : s.cvu.queue = []) : ∃ f : BitVec 64, f.toNat = s.cvu.fold.toNat / 2 ^ 32 * 2 ^ 32 + v % 2 ^ 32 ∧
    cvuWrite 0x10 v s = { s with cvu := { s.cvu with fold := f } } := by
  refine ⟨BitVec.ofNat 64 (s.cvu.fold.toNat / 2 ^ 32 * 2 ^ 32 + v % 2 ^ 32), ?_, by simp [cvuWrite, hfree, modCvu]⟩
  have bound := s.cvu.fold.isLt
  rw [BitVec.toNat_ofNat]
  omega

theorem plaWrite_loadRate : plaWrite 0x14 v s =
    { s with pla := if loading s then { s.pla with sticky := s.pla.sticky ||| 1 } else { s.pla with loadRate := min 3 (v % 8) } } := by
  cases hlock : loading s <;> simp [plaWrite, hlock, modPla, setBit]

theorem mprWrite_sweepRate : mprWrite 8 v s =
    { s with mpr := if s.mpr.sweep || s.mpr.wiping then { s.mpr with sticky := s.mpr.sticky ||| 1 }
                    else { s.mpr with sweepRate := min 8 (v % 16) } } := by
  cases hlock : s.mpr.sweep || s.mpr.wiping <;> simp [mprWrite, hlock, modMpr, setBit, -Bool.or_eq_true]

theorem bufWrite_ringShare : bufWrite 8 v s =
    { s with buf := if (List.range 5).any (ringPort s) then { s.buf with sticky := s.buf.sticky ||| 1 }
                    else { s.buf with ringShare := max 2 (min 8 (v % 16)) } } := by
  cases hlock : (List.range 5).any (ringPort s) <;> simp [bufWrite, hlock, modBuf, setBit, clamp, -List.any_eq_true]

theorem otherWrite_stageMib : otherWrite .ptn 8 v s =
    { s with ptn := if s.ptn.rounds = [] then { s.ptn with stageMib := max 16 (min 128 (v % 256)) }
                    else { s.ptn with sticky := s.ptn.sticky ||| 1 } } := by
  cases hlock : s.ptn.rounds <;> simp [otherWrite, hlock, modPtn, setBit, clamp]

theorem otherWrite_aiRate : otherWrite .rdm 8 v s =
    { s with rdm := if s.rdm.conns = [] then { s.rdm with aiGbps := max 1 (v / 2 ^ 8 % 256), gShift := max 1 (min 8 (v % 16)) }
                    else { s.rdm with sticky := s.rdm.sticky ||| 1 } } := by
  cases hlock : s.rdm.conns <;> simp [otherWrite, hlock, modRdm, setBit, clamp, bits]

/-- CH_CFG of channel `c` (R291): rejected while its port is up or for a value that breaks R282 or R292. -/
theorem bufWrite_chCfg {c : Nat} (hc : c < 40) : bufWrite (0x100 + 16 * c) v s =
    if (get5 s.ports (c / 8)).up then { s with buf := { s.buf with sticky := s.buf.sticky ||| 1 } }
    else if chInvalid v then { s with buf := { s.buf with sticky := s.buf.sticky ||| 32 } }
    else { s with buf := { s.buf with channels := updAt (fun x => { x with
      low := v / 2 ^ 24 % 256, high := v / 2 ^ 16 % 256, borrow := v / 2 ^ 8 % 256, guar := v % 256 }) c s.buf.channels } } := by
  have upper : 0x100 + 16 * c < 0x380 := by omega
  have sticky : 0x100 + 16 * c ≠ 4 := by omega
  have share : 0x100 + 16 * c ≠ 8 := by omega
  have aligned : (0x100 + 16 * c) % 16 = 0 := by omega
  simp [bufWrite, upper, sticky, share, aligned, modBuf, setBit, bits]

theorem hifWrite_bar2_denied {i : Nat} (hi : i < 5) (hopen : ownedOpen s = false) : hifWrite (0x20 + 4 * i) v s = s := by
  have sticky : 0x20 + 4 * i ≠ 4 := by omega
  simp [hifWrite, sticky, hopen]

theorem hifWrite_bar2 {i : Nat} (hi : i < 5) (hopen : ownedOpen s = true) :
    hifWrite (0x20 + 4 * i) v s = modFn i (fun f => { f with bar2 := v % 4096 }) s := by
  have upper : 0x20 + 4 * i < 0x34 := by omega
  have sticky : 0x20 + 4 * i ≠ 4 := by omega
  simp [hifWrite, upper, sticky, hopen]

theorem get5_mod5_same {α : Type} (x : Five α) (i : Nat) (f : α → α) : get5 (mod5 x i f) i = f (get5 x i) := by
  unfold mod5 get5
  grind

theorem get5_mod5_other {α : Type} (x : Five α) {i k : Nat} (hi : i < 5) (hk : k < 5) (hne : k ≠ i) (f : α → α) :
    get5 (mod5 x i f) k = get5 x k := by
  unfold mod5 get5
  grind

theorem otherWrite_lnk {p : Nat} (hp : p < 5) : otherWrite .lnk (4 + 0x100 * p) v s =
    { s with ports := mod5 s.ports p (fun x => { x with sticky := w1c 5 x.sticky v }) } := by
  have upper : 4 + 0x100 * p < 0x500 := by omega
  have port : (4 + 0x100 * p) / 0x100 = p := by omega
  have column : (4 + 0x100 * p) % 0x100 = 4 := by omega
  simp [otherWrite, upper, port, column, modPort]

/-- The sticky register of a mailbox of the host, while no core reset holds the control processor complex down (R395). -/
theorem plainWrite_mbxSticky {m : Nat} (hm : m < 3) (hload : s.rst.optLoad = false) (hreset : s.rst.inReset = false) :
    plainWrite 0 (0x10028 + 0x4000 * m) 4 v s =
      { s with mbx := { s.mbx with boxes := mod4 s.mbx.boxes m (fun b => { b with sticky := w1c 3 b.sticky v }) } } := by
  have hat := blockAt_mbxSticky m hm
  have up : blockDown s .mbx = false := by simp [blockDown, hload, hreset]
  have window : (0x28 + 0x4000 * m) / 0x4000 = m := by omega
  have register : (0x28 + 0x4000 * m) % 0x4000 = 0x28 := by omega
  have word : (0x28 + 0x4000 * m) % 4 = 0 := by omega
  have low : (v &&& 0xFFFFFFFF) % 8 = v % 8 := by
    have mask : v &&& 0xFFFFFFFF = v % 2 ^ 32 := Nat.and_two_pow_sub_one_eq_mod v 32
    omega
  simp [plainWrite, downAt, hat, up, rightWidth, register, windowData, aligned, word, regWrite, window, mbxRegWrite, modBox, w1c, low]

end

/-! ## The writes that the TDI locks (R306) -/

theorem lockedWrite_error {s : State} (h : s.hif.tdi = .locked ∨ s.hif.tdi = .run) (f : State → State) :
    (lockedWrite s f).hif.tdi = .error := by
  have locks : (s.hif.tdi == .locked || s.hif.tdi == .run) = true := by simpa using h
  rw [lockedWrite, if_pos locks]
  exact tdiError_tdi s

/-- Settles O10: a word written to a block is that block's write (`registerWrite_word`), and each clause is one branch of it; what the
TDI locks goes to `tdiError`. -/
theorem hostRegisterWrites : Obligations.HostRegisterWrites := by
  unfold Obligations.HostRegisterWrites
  refine ⟨fun s secure v hw => ?_, fun s fn secure half off width v hreach hlock => ?_⟩
  · refine ⟨registerWrite_word hw .clk 8, registerWrite_word hw .prs 0x10, ?snapAtLo, ?snapAtHi, ?poly, ?foldLocked, ?foldFree, ?loadRate,
      ?bar2, ?bar2Denied, ?sweepRate, ?ringShare, ?chCfg, ?stageMib, ?aiRate, registerWrite_word hw .rst 0, registerWrite_word hw .rst 0xC,
      registerWrite_word hw .clk 4, registerWrite_word hw .prs 0xC, registerWrite_word hw .cvu 8, registerWrite_word hw .ent 4,
      registerWrite_word hw .pla 4, registerWrite_word hw .hif 4, registerWrite_word hw .kst 4, registerWrite_word hw .mpr 4,
      registerWrite_word hw .buf 4, registerWrite_word hw .tst 4, registerWrite_word hw .ptn 4, registerWrite_word hw .hev 4,
      registerWrite_word hw .rdm 4, ?ports, ?mailboxes, ?identity⟩
    case snapAtLo => exact (registerWrite_word hw .prs 0x20).trans (congrArg _ prsWrite_snapAt_lo)
    case snapAtHi => exact (registerWrite_word hw .prs 0x24).trans (congrArg _ prsWrite_snapAt_hi)
    case poly => exact (registerWrite_word hw .cvu 0).trans (congrArg _ cvuWrite_poly)
    case foldLocked => exact fun hlock => (registerWrite_word hw .cvu 0x10).trans (congrArg _ (cvuWrite_fold_locked hlock))
    case foldFree =>
      intro hfree
      obtain ⟨f, hf, hwrite⟩ := cvuWrite_fold_free (v := v.toNat) hfree
      exact ⟨f, hf, (registerWrite_word hw .cvu 0x10).trans (congrArg _ hwrite)⟩
    case loadRate => exact (registerWrite_word hw .pla 0x14).trans (congrArg _ plaWrite_loadRate)
    case bar2 =>
      intro i hi hopen
      exact ⟨_, (registerWrite_word hw .hif (0x20 + 4 * i) (blockAt_bar2 i hi) (by omega)).trans (congrArg _ (hifWrite_bar2 hi hopen)),
        congrArg FnState.bar2 (get5_mod5_same _ _ _), fun k hk hne => get5_mod5_other _ hi hk hne _, rfl⟩
    case bar2Denied =>
      exact fun i hi hopen => (registerWrite_word hw .hif (0x20 + 4 * i) (blockAt_bar2 i hi) (by omega)).trans
        (congrArg _ (hifWrite_bar2_denied hi hopen))
    case sweepRate => exact (registerWrite_word hw .mpr 8).trans (congrArg _ mprWrite_sweepRate)
    case ringShare => exact (registerWrite_word hw .buf 8).trans (congrArg _ bufWrite_ringShare)
    case chCfg =>
      intro c hc
      refine (registerWrite_word hw .buf (0x100 + 16 * c) (blockAt_chCfg hc) (by omega)).trans ((congrArg _ (bufWrite_chCfg hc)).trans ?_)
      simp only [apply_ite Host.Outcome.next]
    case stageMib => exact (registerWrite_word hw .ptn 8).trans (congrArg _ otherWrite_stageMib)
    case aiRate => exact (registerWrite_word hw .rdm 8).trans (congrArg _ otherWrite_aiRate)
    case ports =>
      exact fun p hp => (registerWrite_word hw .lnk (4 + 0x100 * p) (blockAt_lnk p hp) (by omega)).trans (congrArg _ (otherWrite_lnk hp))
    case mailboxes =>
      exact fun m hm hne hload hreset => (registerWrite_bar0 hw).trans (congrArg _ (plainWrite_mbxSticky (by omega) hload hreset))
    case identity => exact fun k hk => registerWrite_word hw .ids (4 * k) (blockAt_ids hk) (by omega)
  · simp only [exec, execRegisterWrite, placeWrite, hreach, if_true]
    exact ⟨⟨_, rfl, lockedWrite_error hlock _⟩, ⟨_, rfl, lockedWrite_error hlock _⟩⟩

end Sys2Proof.Machine
end

section
/-! The end of option load (R18, R329, R380, R389): the records in use, and what the alarms of the backup domain and the security
subsystem's start leave. -/

namespace Sys2Proof.Machine

/-! ## The records in use -/

/-- One step of `recordsUsed`: a record is kept unless one of its type is. -/
def keepFirst (used : List OptRecord) (r : OptRecord) : List OptRecord :=
  if used.any (fun x => x.type == r.type) then used else used ++ [r]

theorem find?_keepFirst (used : List OptRecord) (r : OptRecord) (k : Nat) :
    (keepFirst used r).find? (·.type == k) = (used.find? (·.type == k)).or ([r].find? (·.type == k)) := by
  unfold keepFirst
  split
  next hused =>
    by_cases hr : r.type = k
    · have found : (used.find? (·.type == k)).isSome = true := by simpa [← hr] using hused
      rw [Option.or_of_isSome found]
    · simp [hr]
  next => exact List.find?_append

theorem find?_foldl_keepFirst (l used : List OptRecord) (k : Nat) :
    (l.foldl keepFirst used).find? (·.type == k) = (used.find? (·.type == k)).or (l.find? (·.type == k)) := by
  induction l generalizing used with
  | nil => simp
  | cons r l ih => rw [List.foldl_cons, ih, find?_keepFirst, Option.or_assoc, ← List.find?_append, List.singleton_append]

/-- The record in use of a type is the first one of that type that passes its check (R389). -/
theorem find?_recordsUsed (l : List OptRecord) (k : Nat) :
    (recordsUsed l).find? (·.type == k) = l.find? (fun r => recordOk r && r.type == k) := by
  have used : recordsUsed l = (l.filter recordOk).foldl keepFirst [] := rfl
  rw [used, find?_foldl_keepFirst, List.find?_nil, Option.none_or, List.find?_filter]
  exact congrArg (List.find? · l) (funext fun r => by simp only [Bool.decide_and, Bool.decide_eq_true])

/-! ## Frames -/

section
variable (s : State)

theorem foldl_logTamper_frame (l : List Nat) : { l.foldl (fun t x => logTamper x 0 0 t) s with backup := s.backup } = s := by
  induction l generalizing s with
  | nil => rfl
  | cons x l ih => exact congrArg (fun t => { t with backup := s.backup }) (ih (logTamper x 0 0 s))

/-- The alarms that the backup domain latched touch the backup domain and the lifecycle alone. -/
theorem latchedAlarms_frame : { latchedAlarms s with backup := s.backup, life := s.life } = s := by
  have logged := foldl_logTamper_frame s s.backup.latched
  unfold latchedAlarms
  dsimp only
  split
  · exact congrArg (fun t => { t with life := s.life }) logged
  · exact congrArg (fun t => { t with life := s.life }) logged

theorem expandIdentity_frame : { expandIdentity s with kst := s.kst } = s := by
  unfold expandIdentity
  split <;> rfl

theorem bootFirmware_frame {c : Nat} {bootOk otherOk : Bool} {s t : State} (h : bootFirmware c bootOk otherOk s = some t) :
    { t with ctrlFw := s.ctrlFw, secFw := s.secFw, mbx := s.mbx } = s := by
  obtain ⟨r, -, rfl⟩ := Option.map_eq_some_iff.mp h
  dsimp only [modComp]
  split <;> split <;> rfl

end

section
variable (s : State) (bootOk otherOk : Bool)

/-- The security subsystem's start touches the key store, its firmware and the mailboxes' boot flags alone. -/
theorem startSecurity_frame :
    { startSecurity bootOk otherOk s with kst := s.kst, ctrlFw := s.ctrlFw, secFw := s.secFw, mbx := s.mbx } = s := by
  have expanded := congrArg (fun t => { t with ctrlFw := s.ctrlFw, secFw := s.secFw, mbx := s.mbx }) (expandIdentity_frame s)
  unfold startSecurity
  dsimp only
  split
  next t hboot =>
    have booted := congrArg (fun u => { u with kst := s.kst, ctrlFw := s.ctrlFw, secFw := s.secFw, mbx := s.mbx }) (bootFirmware_frame hboot)
    exact booted.trans expanded
  next => exact expanded

theorem startSecurity_kst : (startSecurity bootOk otherOk s).kst = (expandIdentity s).kst := by
  unfold startSecurity
  dsimp only
  split
  next t hboot => exact (congrArg State.kst (bootFirmware_frame hboot) :)
  next => rfl

end

/-! ## The identity key (R329) -/

theorem slotAt_fillSlot (k : KeySlot) (s : State) : slotAt (fillSlot k s) k.slot = some k := by
  have below : (s.kst.slots.filter (fun y => decide (y.slot < k.slot))).find? (·.slot == k.slot) = none := by
    refine List.find?_eq_none.mpr fun y hy => ?_
    have less : y.slot < k.slot := by simpa using (List.mem_filter.mp hy).2
    simpa using Nat.ne_of_lt less
  simp [slotAt, fillSlot, modKst, List.find?_append, below]

theorem startSecurity_identity {s : State} (hseed : s.kst.seedBlown = false) (bootOk otherOk : Bool) :
    (slotAt (startSecurity bootOk otherOk s) 0).map (·.secret) = some (bvBytes 32 Config.identitySeed) := by
  rw [slotAt, startSecurity_kst, ← slotAt, expandIdentity, identitySeed, hseed]
  exact congrArg (Option.map (·.secret)) (slotAt_fillSlot _ s)

/-! ## The end of option load -/

/-- The state with the cause, the records and the end of option load recorded, before the alarms and boot. -/
def loadRecorded (records : List OptRecord) (s : State) : State :=
  modRst (fun r => { r with
    optLoad := false
    options := recordsUsed records
    optBad := r.optBad || (records.filter (fun x => !recordOk x)).length != 0
    optBadCnt := satAdd 32 r.optBadCnt (records.filter (fun x => !recordOk x)).length }) (recordCause { s with idsOk := true })

/-- The alarms of the backup domain are taken up, but for a core reset (R366). -/
def alarmsTaken (core : Bool) (s : State) : State := if core then s else latchedAlarms s

/-- Boot after option load: the stop for want of a record, or the start of the security subsystem, which a core reset keeps running. -/
def bootAfterLoad (missing core ok1 ok2 : Bool) (s : State) : State :=
  if missing then modPins (fun p => { p with alertBoot := true }) (modRst (fun r => { r with bootStopped := true }) s)
  else if core || s.rst.bootStopped then s
  else startSecurity ok1 ok2 s

theorem optionLoadDone_eq {s : State} (hrails : s.rst.railsOn = true) (hload : s.rst.optLoad = true) (hreset : s.rst.inReset = false)
    (records : List OptRecord) (missing ok1 ok2 : Bool) : exec (.optionLoadDone records missing ok1 ok2) s = .next
      (bootAfterLoad missing (s.rst.level == .core) ok1 ok2 (alarmsTaken (s.rst.level == .core) (loadRecorded records s))) := by
  have runs : (!s.rst.railsOn || !s.rst.optLoad || s.rst.inReset) = false := by simp [hrails, hload, hreset]
  simp only [exec, execOptionLoadDone, runs]
  rfl

/-- `v` with what the alarms and boot may touch as in `t`. -/
def bootUndone (t v : State) : State :=
  { v with rst := { v.rst with bootStopped := t.rst.bootStopped }
           backup := t.backup, life := t.life, pins := t.pins, kst := t.kst, ctrlFw := t.ctrlFw, secFw := t.secFw, mbx := t.mbx }

theorem bootUndone_alarmsTaken (core : Bool) (t : State) : bootUndone t (alarmsTaken core t) = t := by
  unfold alarmsTaken
  split
  · rfl
  · exact (congrArg (bootUndone t) (latchedAlarms_frame t) :)

theorem bootUndone_bootAfterLoad (missing core ok1 ok2 : Bool) (t s : State) :
    bootUndone t (bootAfterLoad missing core ok1 ok2 s) = bootUndone t s := by
  unfold bootAfterLoad
  split
  · rfl
  · split
    · rfl
    · exact (congrArg (bootUndone t) (startSecurity_frame s ok1 ok2) :)

/-- Settles O21: option load records (`loadRecorded`), boot leaves what it recorded (`bootUndone`), the records in use are the first
good ones (`find?_recordsUsed`), and the start of the security subsystem expands the identity key (`startSecurity_identity`). -/
theorem optionLoadEnds : Obligations.OptionLoadEnds := by
  unfold Obligations.OptionLoadEnds
  intro s records missing ok1 ok2 hrails hload hreset good bad
  have kept := (bootUndone_bootAfterLoad missing (s.rst.level == .core) ok1 ok2 _ _).trans
    (bootUndone_alarmsTaken (s.rst.level == .core) (loadRecorded records s))
  refine ⟨_, optionLoadDone_eq hrails hload hreset records missing ok1 ok2, fun k => ?options, congrArg State.idsOk kept,
    congrArg (·.rst.optLoad) kept, congrArg (·.rst.last) kept, congrArg (·.rst.optBadCnt) kept, fun hbad => ?optBad,
    (congrArg (·.rst.coreCnt) kept).trans ?coreCnt, ?missing, ?identity, ?core, (congrArg State.mem kept :), (congrArg State.prs kept :),
    (congrArg State.clk kept :), (congrArg State.ports kept :)⟩
  case options =>
    have used := congrArg (·.rst.options) kept
    exact (congrArg (List.find? (·.type == k)) used).trans (find?_recordsUsed records k)
  case optBad =>
    refine (congrArg (·.rst.optBad) kept).trans ?_
    exact (Bool.or_eq_true _ _).mpr (hbad.imp_right bne_iff_ne.mpr)
  case coreCnt => simp [loadRecorded, recordCause, satAdd]
  case missing =>
    rintro rfl
    exact ⟨rfl, rfl⟩
  case identity =>
    rintro rfl hcore hstop hseed
    have system : (s.rst.level == .core) = false := by simpa using hcore
    have alarms := latchedAlarms_frame (loadRecorded records s)
    have runs : (latchedAlarms (loadRecorded records s)).rst.bootStopped = false := (congrArg (·.rst.bootStopped) alarms).trans hstop
    have whole : (latchedAlarms (loadRecorded records s)).kst.seedBlown = false := (congrArg (·.kst.seedBlown) alarms).trans hseed
    have starts : bootAfterLoad false false ok1 ok2 (alarmsTaken false (loadRecorded records s)) =
        startSecurity ok1 ok2 (latchedAlarms (loadRecorded records s)) := by simp [bootAfterLoad, alarmsTaken, runs]
    rw [system, starts]
    exact startSecurity_identity whole ok1 ok2
  case core =>
    rintro hcore rfl
    have core : (s.rst.level == .core) = true := by simpa using hcore
    rw [core]
    rfl

end Sys2Proof.Machine
end

section
/-! What completions leave alone (14_rings_and_buffer_pool.md R278; 16_control_and_mailboxes.md R312, R320): the messages, entries and events of a
completion touch the blocks that carry them, and no work. -/

namespace Sys2Proof.Machine

/-- What every step of a fold keeps, the fold keeps. -/
theorem foldl_keeps {α β : Type} (g : State → β) (f : State → α → State) (s : State) (hf : ∀ s a, g (f s a) = g s) (l : List α) :
    g (l.foldl f s) = g s := by
  induction l generalizing s with
  | nil => rfl
  | cons a l ih => exact (ih _).trans (hf _ _)

/-- `s` with the blocks that carry messages, entries and events as they are in `t`. -/
def carriersOf (t s : State) : State :=
  { s with out := t.out, hif := t.hif, mem := t.mem, mpr := t.mpr, mbx := t.mbx, buf := t.buf, tst := t.tst }

section
variable (t s : State)

@[simp] theorem carriersOf_ite (c : Prop) [Decidable c] (a b : State) :
    carriersOf t (if c then a else b) = if c then carriersOf t a else carriersOf t b := apply_ite (carriersOf t) c a b

/-! ## Updates of a carrier -/

@[simp] theorem carriersOf_modMpr (f : MprState → MprState) : carriersOf t (modMpr f s) = carriersOf t s := rfl
@[simp] theorem carriersOf_modMem (f : MemState → MemState) : carriersOf t (modMem f s) = carriersOf t s := rfl
@[simp] theorem carriersOf_modMbx (f : MbxState → MbxState) : carriersOf t (modMbx f s) = carriersOf t s := rfl
@[simp] theorem carriersOf_modBuf (f : BufState → BufState) : carriersOf t (modBuf f s) = carriersOf t s := rfl
@[simp] theorem carriersOf_modTst (f : TstState → TstState) : carriersOf t (modTst f s) = carriersOf t s := rfl
@[simp] theorem carriersOf_modBox (mb : Nat) (f : Mailbox → Mailbox) : carriersOf t (modBox mb f s) = carriersOf t s := rfl
@[simp] theorem carriersOf_modDec (f : Session → Session) : carriersOf t (modDec f s) = modDec f (carriersOf t s) := rfl

/-! ## Messages and memory -/

@[simp] theorem carriersOf_emit (o : Output) : carriersOf t (emit o s) = carriersOf t s := rfl

@[simp] theorem carriersOf_send (o : Output) : carriersOf t (send o s) = carriersOf t s := rfl

@[simp] theorem carriersOf_post (fn : Nat) (o : Output) : carriersOf t (post fn o s) = carriersOf t s := by
  unfold post
  split <;> rfl

@[simp] theorem carriersOf_mapPages (p n : Nat) (f : PageMeta → PageMeta) : carriersOf t (mapPages p n f s) = carriersOf t s := by
  simp [mapPages]

@[simp] theorem carriersOf_countWalks (n : Nat) : carriersOf t (countWalks n s) = carriersOf t s := rfl

@[simp] theorem carriersOf_writePages (p n lo hi : Nat) : carriersOf t (writePages p n lo hi s) = carriersOf t s := by
  simp [writePages]

@[simp] theorem carriersOf_writeLines (a n : Nat) : carriersOf t (writeLines a n s) = carriersOf t s := by simp [writeLines]

@[simp] theorem carriersOf_memWrite (a : Nat) (bs : Bytes) : carriersOf t (memWrite a bs s).2 = carriersOf t s := by
  unfold memWrite
  dsimp only
  split
  · split
    · rfl
    · split <;> simp
  · simp

@[simp] theorem carriersOf_ringStore (fn : Nat) (hbm : Bool) (a : Nat) (bs : Bytes) :
    carriersOf t (ringStore fn hbm a bs s) = carriersOf t s := by simp [ringStore]

@[simp] theorem carriersOf_tailStore (fn tail producer : Nat) : carriersOf t (tailStore fn tail producer s) = carriersOf t s := by
  unfold tailStore
  split <;> simp

/-! ## Events and mailbox commands -/

@[simp] theorem carriersOf_loseEvent : carriersOf t (loseEvent s) = carriersOf t s := rfl

@[simp] theorem carriersOf_signalEvent (vector : Nat) : carriersOf t (signalEvent vector s) = carriersOf t s := by simp [signalEvent]

@[simp] theorem carriersOf_writeEvent (r : EventRing) (code sev seq arg0 arg1 : Nat) :
    carriersOf t (writeEvent r code sev seq arg0 arg1 s) = carriersOf t s := by
  unfold writeEvent
  dsimp only
  split <;> simp

@[simp] theorem carriersOf_postEvent (code sev arg0 arg1 : Nat) : carriersOf t (postEvent code sev arg0 arg1 s) = carriersOf t s := by
  unfold postEvent
  split <;> simp

@[simp] theorem carriersOf_modJob (order : Nat) (f : Job → Job) : carriersOf t (modJob order f s) = carriersOf t s := rfl

@[simp] theorem carriersOf_finishWith (reason : Option Nat) (j : Job) (st : Status) (payload : Bytes) :
    carriersOf t (finishWith reason j st payload s) = carriersOf t s := by simp [finishWith]

@[simp] theorem carriersOf_conclude (j : Job) (st : Status) (payload : Bytes) :
    carriersOf t (conclude j st payload s) = carriersOf t s := by simp [conclude, finish]

/-! ## Completion entries -/

@[simp] theorem carriersOf_modWring (n : Nat) (f : WRing → WRing) : carriersOf t (modWring n f s) = carriersOf t s := rfl

@[simp] theorem carriersOf_modCring (n : Nat) (f : CRing → CRing) : carriersOf t (modCring n f s) = carriersOf t s := rfl

@[simp] theorem carriersOf_signalCring (c : CRing) : carriersOf t (signalCring c s) = carriersOf t s := by simp [signalCring]

@[simp] theorem carriersOf_writeEntry (cn : Nat) (entry : Bytes) : carriersOf t (writeEntry cn entry s) = carriersOf t s := by
  unfold writeEntry
  split <;> simp

@[simp] theorem carriersOf_finishDesc (d : Nat) (entry : Bytes) : carriersOf t (finishDesc d entry s) = carriersOf t s := by
  unfold finishDesc
  split
  · rfl
  · dsimp only
    split <;> simp

@[simp] theorem carriersOf_flushHeld (ring n : Nat) : carriersOf t (flushHeld ring n s) = carriersOf t s := by
  induction n generalizing s with
  | zero => rfl
  | succ n ih =>
    unfold flushHeld
    split
    · rfl
    · split <;> simp [ih]

@[simp] theorem carriersOf_completeDesc (d : Nat) (entry : Bytes) : carriersOf t (completeDesc d entry s) = carriersOf t s := by
  unfold completeDesc
  split <;> simp

@[simp] theorem carriersOf_doneOut (o : OutDesc) (st : Status) (stop signer serial : Nat) :
    carriersOf t (doneOut o st stop signer serial s) = carriersOf t s := by simp [doneOut]

/-! ## The end of a session -/

theorem modDec_congr {s : State} {d : Session} {f g : Session → Session} (hs : s.dec = some d) (h : f d = g d) :
    modDec f s = modDec g s := by simp [modDec, hs, h]

theorem modDec_eq_self {s : State} {d : Session} {f : Session → Session} (hs : s.dec = some d) (h : f d = d) : modDec f s = s :=
  (modDec_congr (g := id) hs h).trans (by simp [modDec])

/-- A session whose output has ended (R134): none of its output descriptors waits, and one that it lacked is owed. -/
def outputEnded (signer : Nat) (d : Session) : Session := { d with outDescs := [], owed := d.outDescs.isEmpty, signer := signer }

/-- The end of the output is `outputEnded` of the session, beside what its completions carry. -/
theorem carriersOf_endOutput (proof : Bool) :
    carriersOf t (endOutput proof s) = modDec (outputEnded (signerField s proof)) (carriersOf t s) := by
  cases hs : s.dec with
  | none => simp [endOutput, modDec, carriersOf, hs]
  | some d =>
    have hc : (carriersOf t s).dec = some d := hs
    cases ho : d.outDescs with
    | nil =>
      simp only [endOutput, hs, ho, carriersOf_modDec]
      exact modDec_congr hc (by simp [outputEnded, ho])
    | cons o os =>
      have posted := foldl_keeps (carriersOf t) (fun st o => doneOut o .ok 0 0 0 st)
        (doneOut o d.cause d.stop (signerField s proof) d.serial s) (fun _ _ => carriersOf_doneOut ..) os
      simp only [endOutput, hs, ho, carriersOf_modDec, posted, carriersOf_doneOut]
      exact modDec_congr hc (by simp [outputEnded, ho])

/-- The end of a replay takes it off the session, beside what its completion carries. -/
theorem carriersOf_replayEnd : carriersOf t (replayEnd s) = modDec (fun d => { d with rp := none }) (carriersOf t s) := by
  cases hs : s.dec with
  | none => simp [replayEnd, modDec, carriersOf, hs]
  | some d =>
    cases hr : d.rp with
    | none =>
      have idle : { d with rp := none } = d := by rw [← hr]
      have hc : (carriersOf t s).dec = some d := hs
      simp only [replayEnd, hs, hr]
      exact (modDec_eq_self hc idle).symm
    | some r =>
      simp only [replayEnd, hs, hr]
      split <;> simp

end

end Sys2Proof.Machine
end

section
/-! What a read of device memory delivers when nothing fails (R12, R54, R353, R360). -/

namespace Sys2Proof.Machine

section
variable {s : State} {a n : Nat}

@[simp] theorem cellRead_length (m : List Host.Cell) (a n : Nat) : (cellRead m a n).length = n := by
  induction n generalizing a with
  | zero => rfl
  | succ n ih => simp [cellRead, ih]

/-- An address whose top bit is set and whose bits 62 to 48 are 0 lies in the device. -/
theorem decodeAddr_dev {v : Nat} (hv : v = 2 ^ 63 + a) (ha : a < 2 ^ 48) : decodeAddr v = .dev a := by
  have top : bit v 63 = true := by
    rw [bit, Nat.testBit_eq_decide_div_mod_eq, decide_eq_true_eq]
    omega
  have between : bits v 62 48 = 0 := by
    rw [bits]
    omega
  have low : v % 2 ^ 48 = a := by omega
  simp only [decodeAddr, top, between, low, if_true]

/-- HBM ends before the gravers' SRAM begins (Table 0-5). -/
theorem inSram_of_inHbm (hbm : inHbm s a n = true) : inSram a n = false := by
  have bound : a + n ≤ hbmSize s := of_decide_eq_true hbm
  have size : hbmSize s ≤ 0xC000000000 := by
    unfold hbmSize
    split <;> decide
  have before : ¬sramBase ≤ a := by
    unfold sramBase
    omega
  simp [inSram, before]

/-- A read of HBM in which nothing fails counts in memory protection alone. -/
theorem failReads_nil (hbm : inHbm s a n = true) :
    ∃ m, m.filled = s.mpr.filled ∧ failReads [] a n s = modMpr (fun _ => m) s := by
  refine ⟨(failReads [] a n s).mpr, ?_, ?_⟩ <;> (unfold failReads; rw [if_pos hbm]; rfl)

/-- What a read counts leaves the poison marks as they are. -/
theorem poisonedAt_modMpr {m : MprState} (filled : m.filled = s.mpr.filled) (a n : Nat) :
    poisonedAt (modMpr (fun _ => m) s) a n = poisonedAt s a n := by
  have same : hbmReadable (modMpr (fun _ => m) s) = hbmReadable s := filled
  rw [poisonedAt, same]
  rfl

/-- A read of clean HBM delivers its bytes, and counts in memory protection alone. -/
theorem devRead_clean (hbm : inHbm s a n = true) (ok : devOk s a n = true) (clean : poisonedAt s a n = false) :
    ∃ m, m.filled = s.mpr.filled ∧ devRead [] a n s = (.ok (cellRead s.mem.cells a n), modMpr (fun _ => m) s) := by
  obtain ⟨m, filled, counted⟩ := failReads_nil hbm
  have sound : failsAt [] a n = false := rfl
  refine ⟨m, filled, ?_⟩
  simp [devRead, ok, checkedRead, counted, poisonedAt_modMpr filled, clean, sound, countParity, inSram_of_inHbm hbm]

/-- A command's read of its source, where no part of it is judged early. -/
theorem fetchSource_dev {v : Nat} {b : Bytes} {t : State} {j : Job} (hv : decodeAddr v = .dev a)
    (hread : devRead j.bad a n s = (.ok b, t)) (sigOk : Bool) (go : Except Status Bytes → State → State) :
    fetchSource j sigOk v n 0 noEarly go s = go (.ok b) t := by
  simp [fetchSource, hv, hread]

end

end Sys2Proof.Machine
end

section
/-! How a decode session begins a replay, goes on or parks, and stops before its first token (01_replay_contract.md R31; 06_decode_sessions.md
R123, R125, R131). -/

namespace Sys2Proof.Machine

/-! ## What leaves the press, and what settles -/

section
variable (s : State)

/-- `s` with the buffer fabric and the ports as they are in `t`. -/
def fabricOf (t s : State) : State := { s with buf := t.buf, ports := t.ports }

theorem fabricOf_shareSignal (t : State) (port : Nat) : fabricOf t (shareSignal port s) = fabricOf t s := rfl

/-- Freed fragments touch the buffer fabric and the ports alone. -/
theorem fabricOf_freeWhere (t : State) (p : DatumName → Bool) : fabricOf t (freeWhere p s) = fabricOf t s := by
  refine foldl_keeps (fabricOf t) _ s (fun u port => ?_) _
  dsimp only
  split
  · rfl
  · exact fabricOf_shareSignal _ t port

/-- Dropped data leave the press, and their fragments the buffer fabric. -/
theorem fabricOf_dropData (p : Datum → Bool) :
    fabricOf s (dropData p s) = modPrs (fun q => { q with data := q.data.filter (fun x => !p x) }) s :=
  fabricOf_freeWhere _ s _

/-- At a boundary a session that no finish waits for goes on or parks. -/
theorem settle_eq_self_or_park (h : ∀ d, s.dec = some d → d.finishReq = false) : settle s = s ∨ settle s = park s := by
  unfold settle
  split
  · exact .inl rfl
  next d hs =>
    rw [h d hs]
    split
    · exact .inl rfl
    · split
      · contradiction
      · split
        · exact .inr rfl
        · exact .inl rfl

end

/-! ## The start of a run -/

/-- `x` with the state and the session strokes of `d`: what the start of prefill and a park set (R45, R123, R125). -/
def motionOf (d x : Session) : Session :=
  { x with state := d.state, parkedIn := d.parkedIn, base := d.base, frozen := d.frozen, resumeAt := d.resumeAt }

/-- The session in prefill from session stroke 0 (R123). -/
def inPrefill (stroke : Nat) (d : Session) : Session := { d with state := 3, base := stroke, resumeAt := 0 }

/-- The session parked (R125). -/
def parked (d : Session) : Session := { d with state := 5, parkedIn := d.state, frozen := d.resumeAt }

theorem modDec_modDec (f g : Session → Session) (s : State) : modDec f (modDec g s) = modDec (f ∘ g) s := by
  simp [modDec, Option.map_map]

/-- The start of prefill sets a session that no finish waits for in motion, or parks it. -/
theorem startPrefill_eq {s : State} (h : ∀ d, s.dec = some d → d.finishReq = false) :
    ∃ f, startPrefill s = modDec f s ∧ ∀ d, motionOf d (f d) = d := by
  have asked : ∀ d, (modDec (inPrefill s.prs.stroke) s).dec = some d → d.finishReq = false := by
    intro d hd
    obtain ⟨e, he, rfl⟩ := Option.map_eq_some_iff.mp hd
    exact h e he
  obtain settled | settled := settle_eq_self_or_park _ asked
  · exact ⟨_, settled, fun _ => rfl⟩
  · exact ⟨_, settled.trans (modDec_modDec parked (inPrefill s.prs.stroke) s), fun _ => rfl⟩

/-- A session that has taken up the determinants of a replay, and begins anew (R31 step 5). -/
def replaying (r : Replay) (ts : List Nat) (hf : Bytes) (d : Session) : Session :=
  { d with
    seed := slice r.proof 0x220 32, sampling := slice r.proof 0x240 32, hostField := hf, inputCnt := ts.length, inputs := ts
    chunks := 0, kept := [], pendStep := none, exch := [], twinRetry := false, rp := some r }

/-- The start of a run (R31 step 5): the session replays, at rest while its plates are not active; its actions and data leave the press, and
nothing else changes but the buffer fabric. -/
theorem replayStart_eq {s : State} {d : Session} (hs : s.dec = some d) (hfin : d.finishReq = false) (r : Replay) (ts : List Nat) (hf : Bytes) :
    ∃ f u, replayStart r ts hf s = modDec f u ∧ motionOf d (f d) = replaying r ts hf d ∧ (d.state = 1 → f d = replaying r ts hf d) ∧
      fabricOf s u =
        modPrs (fun q => { q with data := q.data.filter (fun x => !(x.work == .decode)) }) (dropActions .decode s) := by
  have frame := fabricOf_dropData (dropActions .decode s) (fun x => x.work == .decode)
  generalize hu : dropData (fun x => x.work == .decode) (dropActions .decode s) = u at frame
  have hdec : u.dec = some d := (congrArg State.dec frame).trans hs
  have start : replayStart r ts hf s = if (modDec (replaying r ts hf) u).dec.any (fun d => d.state != 1)
      then startPrefill (modDec (replaying r ts hf) u) else modDec (replaying r ts hf) u := by
    rw [← hu]
    rfl
  by_cases ready : d.state = 1
  · have rests : (modDec (replaying r ts hf) u).dec.any (fun d => d.state != 1) = false := by simp [hdec, replaying, ready]
    exact ⟨_, u, by rw [start, rests]; rfl, rfl, fun _ => rfl, frame⟩
  · have begins : (modDec (replaying r ts hf) u).dec.any (fun d => d.state != 1) = true := by simp [hdec, replaying, ready]
    have asked : ∀ e, (modDec (replaying r ts hf) u).dec = some e → e.finishReq = false := by
      simpa [hdec, replaying] using hfin
    obtain ⟨g, begun, motion⟩ := startPrefill_eq asked
    exact ⟨g ∘ replaying r ts hf, u, by rw [start, if_pos begins, begun, modDec_modDec], motion _, fun h => absurd h ready, frame⟩

/-! ## A stop before the first token -/

/-- The session stopped at session stroke `at_` (R131, R135). -/
def stoppedAt (reason : Nat) (cause : Status) (at_ : Nat) (d : Session) : Session :=
  { d with state := 6, stop := reason, cause := cause, frozen := at_, pendStep := none, exch := [] }

/-- A session that stops before its first token issues no proof (R28). -/
theorem stopSession_untold {s : State} {d : Session} (hs : s.dec = some d) (runs : d.state ≠ 6) (untold : d.outputs = [])
    (reason : Nat) (cause : Status) (sign : Bool) :
    (∃ x, (stopSession reason cause sign s).dec = some x ∧ x.state = 6 ∧ x.outputs = d.outputs) ∧
      (stopSession reason cause sign s).kst = s.kst := by
  have stop : stopSession reason cause sign s = replayEnd (endOutput false
      (dropLoads .decode (dropActions .decode (modDec (stoppedAt reason cause (sessionStroke s .decode)) s)))) := by
    simp only [stopSession, hs, runs, ↓reduceIte, untold, List.isEmpty_nil, Bool.not_true, Bool.and_false, Bool.false_and, Bool.false_eq_true]
    rfl
  generalize hv : dropLoads .decode (dropActions .decode (modDec (stoppedAt reason cause (sessionStroke s .decode)) s)) = v at stop
  have ended : carriersOf v (stopSession reason cause sign s) =
      modDec (fun d => { d with rp := none }) (modDec (outputEnded (signerField v false)) v) := by
    rw [stop, carriersOf_replayEnd, carriersOf_endOutput]
    rfl
  have hdec : v.dec = some (stoppedAt reason cause (sessionStroke s .decode) d) := by
    rw [← hv]
    exact congrArg (Option.map (stoppedAt reason cause (sessionStroke s .decode))) hs
  have hkst : v.kst = s.kst := by
    rw [← hv]
    rfl
  have closed := congrArg State.dec ended
  simp only [modDec_dec, hdec] at closed
  exact ⟨⟨_, closed, rfl, rfl⟩, (congrArg State.kst ended).trans hkst⟩

end Sys2Proof.Machine
end

section
/-! REPLAY_VERIFY (01_replay_contract.md R30, R31): the verdicts before the run, the reads that it needs, and the run. -/

namespace Sys2Proof.Machine

/-! ## The verdicts before the run -/

/-- The addresses of a REPLAY_VERIFY, its proof's magic, version and length, and the digest of its key stand as R31 asks, and the session may
replay: the command is judged, not refused (R30). -/
structure ReplayAsked (s : State) (mb : MbId) (j : Job) (d : Session) : Prop where
  begun : Begun s mb 0x0530 j
  length : j.payload.length = 14944
  reserved : field j.payload 4 4 = 0
  reservedEnd : field j.payload 0x1C 4 = 0
  tokensAt : badAddr (field j.payload 8 8) = false
  fieldsAt : badAddr (field j.payload 0x10 8) = false
  session : s.dec = some d
  handle : d.handle = field j.payload 0 4
  accepted : replayRefused d = false
  magic : field (rvProof j) 0 4 = 0x4650584F
  version : field (rvProof j) 4 2 = 1
  size : field (rvProof j) 0xC 4 = 0x3020
  key : sha512 (slice j.payload 0x20 2592) = slice (rvProof j) 0x1DC0 64

section
variable {s : State} {mb : MbId} {j : Job} {d : Session}

/-- The job as its row runs it, with what fails as it reads. -/
def readBy (bad : List MemFail) (j : Job) : Job := { j with bad := bad }

theorem arg_readBy (bad : List MemFail) (off n : Nat) : arg (readBy bad j) off n = field j.payload off n := rfl

theorem rvProof_readBy (bad : List MemFail) : rvProof (readBy bad j) = rvProof j := rfl

theorem verdict_readBy (bad : List MemFail) (v : Nat) : verdict (readBy bad j) v s = verdict j v s := rfl

/-- A row that reads memory runs its command once it has been dispatched. -/
theorem onReads_begun {op : Nat} (begun : Begun s mb op j) (bad : List MemFail) (f : Job → State) :
    onReads ⟨mb, bad⟩ op s f = f (readBy bad j) := by
  obtain ⟨running, first⟩ := begun
  simp only [onReads, onNewJob, running, if_pos first]
  rfl

theorem sessionAt_of_handle (hs : s.dec = some d) {h : Nat} (hh : d.handle = h) : sessionAt s h = some d := by
  simp [sessionAt, hs, hh]

/-- What a REPLAY_VERIFY that is not refused does: edition and weights decide whether the proof's tokens are read (R31). -/
theorem replayVerify_eq (asked : ReplayAsked s mb j d) : exec (.replayVerify ⟨mb, []⟩ true) s = .next (
    if field (rvProof j) 6 2 != 1 then verdict j 3 s
    else if !s.weights.any (fun x => x.digest == slice (rvProof j) 0xE0 64) then verdict j 4 s
    else fetchSource (readBy [] j) true (field j.payload 8 8) (4 * field (rvProof j) 0x260 4) 0 noEarly (replayTokens (readBy [] j)) s) := by
  have found : sessionAt s (field j.payload 0 4) = some d := sessionAt_of_handle asked.session asked.handle
  have whole : lenIs (readBy [] j) 14944 = true := beq_iff_eq.mpr asked.length
  have key : sha512 (slice (readBy [] j).payload 0x20 2592) = slice (rvProof j) 0x1DC0 64 := asked.key
  refine (congrArg Host.Outcome.next (onReads_begun asked.begun [] _)).trans ?_
  simp [arg_readBy, rvProof_readBy, verdict_readBy, found, whole, key, asked.reserved, asked.reservedEnd, asked.tokensAt, asked.fieldsAt,
    asked.magic, asked.version, asked.size, asked.accepted]

/-- A proof of another arithmetic edition is answered without a run (R31 step 2). -/
theorem replayVerify_otherEdition (asked : ReplayAsked s mb j d) (edition : field (rvProof j) 6 2 ≠ 1) :
    exec (.replayVerify ⟨mb, []⟩ true) s = .next (finish j .ok (3 :: zeros 15) s) := by
  rw [replayVerify_eq asked, if_pos (bne_iff_ne.mpr edition)]
  rfl

/-- A proof of other weights is answered without a run (R31 step 3). -/
theorem replayVerify_otherWeights (asked : ReplayAsked s mb j d) (edition : field (rvProof j) 6 2 = 1)
    (weights : s.weights.all (fun x => x.digest != slice (rvProof j) 0xE0 64) = true) :
    exec (.replayVerify ⟨mb, []⟩ true) s = .next (finish j .ok (4 :: zeros 15) s) := by
  have none : s.weights.any (fun x => x.digest == slice (rvProof j) 0xE0 64) = false := by
    cases h : s.weights with
    | none => rfl
    | some w => simpa [h] using weights
  rw [replayVerify_eq asked, edition, none]
  rfl

/-! ## The reads of the tokens and the host fields -/

/-- An operand that names `n` bytes of HBM at `a`, which no rule bars and no poison marks (R12, R360). -/
structure CleanAt (s : State) (v a n : Nat) : Prop where
  addr : v = 2 ^ 63 + a
  low : a < 2 ^ 48
  hbm : inHbm s a n = true
  ok : devOk s a n = true
  clean : poisonedAt s a n = false

/-- A job that keeps the bytes it has read. -/
def keepData (b : Bytes) (j : Job) : Job := { j with data := [b] }

/-- The host fields are read after the tokens, which the job keeps. -/
theorem replayTokens_clean {b : Nat} (fields : CleanAt s (field j.payload 0x10 8) b (field j.payload 0x18 4)) (toks : Bytes) :
    ∃ m, replayTokens (readBy [] j) (.ok toks) s = replayRun j toks (cellRead s.mem.cells b (field j.payload 0x18 4))
      (modMpr (fun _ => m) (modJob j.order (keepData toks) s)) := by
  obtain ⟨m, -, read⟩ := devRead_clean (s := modJob j.order (keepData toks) s) fields.hbm fields.ok fields.clean
  have place : decodeAddr (arg (keepData toks (readBy [] j)) 0x10 8) = .dev b := decodeAddr_dev fields.addr fields.low
  unfold keepData at place
  refine ⟨m, ?_⟩
  simp only [replayTokens, place]
  exact congrArg (fun r : Except Status Bytes × State => replayFields (keepData toks (readBy [] j)) r.1 r.2) read

/-- A proof of this edition and of the resident weights has its tokens and host fields read, and its run judged (R31 steps 2 to 4). -/
theorem replayVerify_reads (asked : ReplayAsked s mb j d) (edition : field (rvProof j) 6 2 = 1)
    (weights : s.weights.any (fun x => x.digest == slice (rvProof j) 0xE0 64) = true) {a b : Nat}
    (tokens : CleanAt s (field j.payload 8 8) a (4 * field (rvProof j) 0x260 4))
    (fields : CleanAt s (field j.payload 0x10 8) b (field j.payload 0x18 4)) :
    ∃ m, exec (.replayVerify ⟨mb, []⟩ true) s = .next (replayRun j (cellRead s.mem.cells a (4 * field (rvProof j) 0x260 4))
      (cellRead s.mem.cells b (field j.payload 0x18 4))
      (modMpr (fun _ => m) (modJob j.order (keepData (cellRead s.mem.cells a (4 * field (rvProof j) 0x260 4))) s))) := by
  obtain ⟨m, filled, read⟩ := devRead_clean tokens.hbm tokens.ok tokens.clean
  have later : CleanAt (modMpr (fun _ => m) s) (field j.payload 0x10 8) b (field j.payload 0x18 4) :=
    ⟨fields.addr, fields.low, fields.hbm, fields.ok, (poisonedAt_modMpr filled _ _).trans fields.clean⟩
  obtain ⟨m', run⟩ := replayTokens_clean later (cellRead s.mem.cells a (4 * field (rvProof j) 0x260 4))
  have fetched := fetchSource_dev (j := readBy [] j) (decodeAddr_dev tokens.addr tokens.low) read true (replayTokens (readBy [] j))
  refine ⟨m', ?_⟩
  rw [replayVerify_eq asked, edition, weights, fetched]
  exact congrArg Host.Outcome.next run

/-! ## The run -/

/-- The token ids in a buffer (R24). -/
def idsIn (b : Bytes) : List Nat := (List.range (b.length / 4)).map (fun i => field b (4 * i) 4)

theorem idsIn_cellRead (m : List Host.Cell) (a k : Nat) :
    idsIn (cellRead m a (4 * k)) = (List.range k).map (fun i => field (cellRead m a (4 * k)) (4 * i) 4) := by
  rw [idsIn, cellRead_length, Nat.mul_div_cancel_left k (by decide)]

/-- The replay that a REPLAY_VERIFY asks for. -/
def replayOf (j : Job) : Replay :=
  { mb := j.mb, order := j.order, outCount := field (rvProof j) 0x264 4, outDigest := slice (rvProof j) 0x1E0 64, proof := rvProof j }

/-- The proof's digests are those of the tokens and host fields given, and its tokens are of the resident vocabulary (R31 step 4). -/
structure ReplayMatches (s : State) (j : Job) (toks hf : Bytes) : Prop where
  tokens : sha512 toks = slice (rvProof j) 0x160 64
  fields : sha512 hf = slice (rvProof j) 0x1A0 64
  vocab : ∀ x ∈ idsIn toks, x < s.weights.elim 0 (fun w => (shapeOf w.bytes).vocab)

/-- A proof whose inputs match begins its run, or has run when it has nothing to commit. -/
theorem replayRun_eq (found : sessionAt s (field j.payload 0 4) = some d) (accepted : replayRefused d = false) {toks hf : Bytes}
    (given : ReplayMatches s j toks hf) : replayRun j toks hf s =
      if (replayOf j).outCount = 0 || (idsIn toks).isEmpty || decide (capacity s d < (idsIn toks).length) then
        stopSession (if (replayOf j).outCount = 0 then 4 else 3) .ok true (modDec (fun d => { d with rp := some (replayOf j) }) (waitJob j 2 s))
      else waitJob j 2 (replayStart (replayOf j) (idsIn toks) hf s) := by
  have known : (idsIn toks).any (fun t => decide (s.weights.elim 0 (fun x => (shapeOf x.bytes).vocab) ≤ t)) = false := by
    simpa using given.vocab
  have digests : (sha512 toks != slice (rvProof j) 0x160 64 || sha512 hf != slice (rvProof j) 0x1A0 64) = false := by
    simp [given.tokens, given.fields]
  unfold idsIn at known
  simp only [replayRun, arg, found, accepted, digests, known]
  rfl

theorem untold_of_accepted (accepted : replayRefused d = false) : d.outputs = [] ∧ d.state ≠ 6 := by
  simp only [replayRefused, Bool.or_eq_false_iff, Bool.not_eq_false', List.isEmpty_iff, beq_eq_false_iff_ne] at accepted
  obtain ⟨⟨⟨untold, runs⟩, _⟩, _⟩ := accepted
  exact ⟨untold, runs⟩

/-- A proof of no output has run when nothing has: the session stops. -/
theorem replayRun_of_no_output (hs : s.dec = some d) (found : sessionAt s (field j.payload 0 4) = some d) (accepted : replayRefused d = false)
    {toks hf : Bytes} (given : ReplayMatches s j toks hf) (nothing : field (rvProof j) 0x264 4 = 0) :
    (∃ x, (replayRun j toks hf s).dec = some x ∧ x.state = 6 ∧ x.outputs = d.outputs) ∧ (replayRun j toks hf s).kst = s.kst := by
  obtain ⟨untold, runs⟩ := untold_of_accepted accepted
  have finished : (replayOf j).outCount = 0 := nothing
  rw [replayRun_eq found accepted given, finished]
  have taken : (modDec (fun d => { d with rp := some (replayOf j) }) (waitJob j 2 s)).dec = some { d with rp := some (replayOf j) } :=
    congrArg (Option.map _) hs
  exact stopSession_untold taken runs untold _ _ _

/-- A proof whose inputs the context holds begins its run on the session. -/
theorem replayRun_begins (hs : s.dec = some d) (found : sessionAt s (field j.payload 0 4) = some d) (accepted : replayRefused d = false)
    (unfinished : d.finishReq = false) {toks hf : Bytes} (given : ReplayMatches s j toks hf) (promised : field (rvProof j) 0x264 4 ≠ 0)
    (nonempty : idsIn toks ≠ []) (fits : (idsIn toks).length ≤ capacity s d) :
    ∃ t x, replayRun j toks hf s = t ∧ t.dec = some x ∧ motionOf d x = replaying (replayOf j) (idsIn toks) hf d ∧
      (d.state = 1 → x.state = 1) ∧ (∀ y ∈ t.prs.actions, y.work ≠ .decode) ∧
      t.kst = s.kst ∧ t.mem = s.mem ∧ t.weights = s.weights ∧ t.prs.stroke = s.prs.stroke := by
  have runs : ((replayOf j).outCount = 0 || (idsIn toks).isEmpty || decide (capacity s d < (idsIn toks).length)) = false := by
    have outputs : (replayOf j).outCount ≠ 0 := promised
    simp [outputs, nonempty, fits]
  have begins : replayRun j toks hf s = waitJob j 2 (replayStart (replayOf j) (idsIn toks) hf s) := by
    rw [replayRun_eq found accepted given, runs]
    rfl
  obtain ⟨f, u, start, motion, rests, frame⟩ := replayStart_eq hs unfinished (replayOf j) (idsIn toks) hf
  have left : ∀ y ∈ u.prs.actions, y.work ≠ .decode := by
    have dropped : u.prs.actions = s.prs.actions.filter (·.work != .decode) := congrArg (·.prs.actions) frame
    simp [dropped]
  rw [start] at begins
  exact ⟨_, f d, begins, congrArg (Option.map f) ((congrArg State.dec frame).trans hs), motion,
    fun ready => (congrArg Session.state (rests ready)).trans ready, left,
    (congrArg State.kst frame :), (congrArg State.mem frame :), (congrArg State.weights frame :), (congrArg (·.prs.stroke) frame :)⟩

end

/-- Settles O40: the verdicts of other editions and weights (`replayVerify_eq`), else the reads (`replayVerify_reads`) and the run that they
decide: over at once (`replayRun_of_no_output`), or begun (`replayRun_begins`, `replayStart_eq`). -/
theorem replayVerified : Obligations.ReplayVerified := by
  unfold Obligations.ReplayVerified
  intro s mb j d begun length reserved reservedEnd tokensAt fieldsAt session handle accepted pf
  have same : pf = rvProof j := rfl
  clear_value pf
  subst same
  intro magic version size key
  have asked : ReplayAsked s mb j d :=
    ⟨begun, length, reserved, reservedEnd, tokensAt, fieldsAt, session, handle, accepted, magic, version, size, key⟩
  refine ⟨replayVerify_otherEdition asked, replayVerify_otherWeights asked, fun a b edition weights unfinished => ?_⟩
  intro n m toks addrA lowA addrB lowB hbmA okA cleanA hbmB okB cleanB digestA digestB vocab
  have ids : idsIn (cellRead s.mem.cells a n) = toks := idsIn_cellRead ..
  obtain ⟨u, reads⟩ := replayVerify_reads asked edition weights ⟨addrA, lowA, hbmA, okA, cleanA⟩ ⟨addrB, lowB, hbmB, okB, cleanB⟩
  generalize hv : modMpr (fun _ => u) (modJob j.order (keepData (cellRead s.mem.cells a n)) s) = v at reads
  have session' : v.dec = some d := by rw [← hv]; exact session
  have given : ReplayMatches v j (cellRead s.mem.cells a n) (cellRead s.mem.cells b m) :=
    ⟨digestA, digestB, by rw [← hv, ids]; exact vocab⟩
  have found := sessionAt_of_handle session' handle
  refine ⟨fun nothing => ?ends, fun promised nonempty fits => ?begins⟩
  case ends =>
    obtain ⟨⟨x, hx, stopped, outputs⟩, kst⟩ := replayRun_of_no_output session' found accepted given nothing
    exact ⟨_, x, reads, hx, stopped, outputs, by rw [kst, ← hv]; rfl⟩
  case begins =>
    rw [← ids] at nonempty fits ⊢
    have room : (idsIn (cellRead s.mem.cells a n)).length ≤ capacity v d := by rw [← hv]; exact fits
    obtain ⟨t, x, ran, hx, motion, rests, left, kst, mem, weights, stroke⟩ :=
      replayRun_begins session' found accepted unfinished given promised nonempty room
    subst hv
    exact ⟨t, x, reads.trans (congrArg Host.Outcome.next ran), hx, congrArg Session.inputs motion, congrArg Session.inputCnt motion,
      congrArg Session.chunks motion, congrArg Session.pendStep motion, congrArg Session.seed motion, congrArg Session.sampling motion,
      congrArg (·.rp.isSome) motion, rests, left, kst, mem, weights, stroke⟩

end Sys2Proof.Machine
end

section
/-! PLATE_STAGE (03_fabric_and_plates.md R59 to R64) of an image that passes its checks, and what becomes of MAC_FAIL as it is read and written. -/

namespace Sys2Proof.Machine

/-! ## The count of failed line MACs (R360, R361) -/

section
variable {s : State} {a n : Nat}

/-- A read of HBM in which nothing fails adds nothing to MAC_FAIL, and saturates it at its 32 bits all the same. -/
theorem failReads_nil_macFail (hbm : inHbm s a n = true) : (failReads [] a n s).mpr.macFail = min s.mpr.macFail (2 ^ 32 - 1) := by
  unfold failReads
  rw [if_pos hbm]
  rfl

theorem devRead_macFail (hbm : inHbm s a n = true) (ok : devOk s a n = true) :
    (devRead [] a n s).2.mpr.macFail = min s.mpr.macFail (2 ^ 32 - 1) := by
  simp [devRead, ok, checkedRead, countParity, inSram_of_inHbm hbm, failReads_nil_macFail hbm]

@[simp] theorem mapPages_macFail (p n : Nat) (f : PageMeta → PageMeta) : (mapPages p n f s).mpr.macFail = s.mpr.macFail := by
  unfold mapPages
  split <;> rfl

@[simp] theorem writePages_macFail (p n lo hi : Nat) : (writePages p n lo hi s).mpr.macFail = s.mpr.macFail := by
  unfold writePages
  split
  · rfl
  · exact mapPages_macFail ..

@[simp] theorem writeLines_macFail (a n : Nat) : (writeLines a n s).mpr.macFail = s.mpr.macFail := by
  simp only [writeLines, apply_ite State.mpr, apply_ite MprState.macFail, writePages_macFail, ite_self]

theorem post_mpr (fn : Nat) (o : Output) : (post fn o s).mpr = s.mpr := by
  unfold post
  split <;> rfl

/-- The completion of a command that asks for no event leaves memory protection as it is (R312). -/
theorem finish_mpr_of_no_event {j : Job} (quiet : j.flags % 2 = 0) (st : Status) (payload : Bytes) : (finish j st payload s).mpr = s.mpr := by
  simp [finish, finishWith, quiet, apply_ite State.mpr, post_mpr]

end

/-! ## An image that is accepted -/

/-- The words of a PLATE_STAGE stand as Table 3-7 asks, and its length is one that an image may have. -/
structure StageAsked (s : State) (mb : MbId) (j : Job) : Prop where
  begun : Begun s mb 0x0401 j
  length : j.payload.length = 16
  reserved : field j.payload 12 4 = 0
  size : imageLengthBad (field j.payload 8 4) = false

/-- The image passes the checks of R62, and the store has a place for it (R63). -/
structure ImageAccepted (s : State) (img : Bytes) : Prop where
  reason : stageReason s img img.length = none
  layout : stageLayoutBad img = false
  place : s.pla.store.length < 64
  room : storeUsed s + img.length ≤ 0x40000000

/-- The handle that the next staged plate takes, with the state that has drawn it. -/
def plateHandle (s : State) : Nat × State := freshHandle ((s.pla.store ++ s.pla.loose).map (·.handle)) s

/-- The plate that an image becomes (R59, R60). -/
def plateOf (h : Nat) (img : Bytes) : Plate :=
  { handle := h, image := img, digest := plateDigest img, signer := slice img 0x60 64, kind := field img 0x10 1, sheets := field img 0x11 1
    flags := field img 0x08 4, span := field img 0x18 4, shape := slice img 0x20 64 }

/-- The image joins the store, its lines written after those of the plates before it (R63, R361). -/
def storePlate (img : Bytes) (s : State) : State :=
  modPla (fun x => { x with store := x.store ++ [plateOf (plateHandle s).1 img] })
    (writeLines (storeBase s + storeUsed s) img.length (plateHandle s).2)

section
variable {s : State} {mb : MbId} {j : Job} {a : Nat}

theorem storePlate_macFail (img : Bytes) (s : State) : (storePlate img s).mpr.macFail = s.mpr.macFail := by
  rw [storePlate, modPla_mpr, writeLines_macFail]
  rfl

theorem plateStageData_accepted {img : Bytes} (accepted : ImageAccepted s img) (j : Job) :
    plateStageData j true (.ok img) s =
      finish j .ok (leBytes 4 (plateHandle s).1 ++ zeros 4 ++ plateDigest img) (storePlate img s) := by
  have full : ¬64 ≤ s.pla.store.length := Nat.not_le.mpr accepted.place
  have room : ¬0x40000000 < storeUsed s + img.length := Nat.not_lt.mpr accepted.room
  simp only [plateStageData, accepted.reason, accepted.layout, full, room]
  rfl

/-- What a read counts leaves an image accepted. -/
theorem ImageAccepted.after_read {img : Bytes} (accepted : ImageAccepted s img) (m : MprState) : ImageAccepted (modMpr (fun _ => m) s) img :=
  ⟨accepted.reason, accepted.layout, accepted.place, accepted.room⟩

/-- A PLATE_STAGE reads its image whole where no line of it fails (R436). -/
theorem plateStage_reads (asked : StageAsked s mb j) (image : CleanAt s (field j.payload 0 8) a (field j.payload 8 4)) :
    exec (.plateStage ⟨mb, []⟩ true) s = .next (plateStageData (readBy [] j) true
      (.ok (cellRead s.mem.cells a (field j.payload 8 4))) (devRead [] a (field j.payload 8 4) s).2) := by
  have place : decodeAddr (field j.payload 0 8) = .dev a := decodeAddr_dev image.addr image.low
  have whole : lenIs (readBy [] j) 16 = true := beq_iff_eq.mpr asked.length
  obtain ⟨m, -, read⟩ := devRead_clean image.hbm image.ok image.clean
  have fails : (readBy [] j).bad = [] := rfl
  refine (congrArg Host.Outcome.next (onReads_begun asked.begun [] _)).trans ?_
  simp [arg_readBy, whole, asked.reserved, asked.size, badAddr, place, fetchSource, fails, read]

/-- A PLATE_STAGE of an accepted image adds its plate to the store, on the state that its read has left. -/
theorem plateStage_accepted (asked : StageAsked s mb j) (image : CleanAt s (field j.payload 0 8) a (field j.payload 8 4))
    (accepted : ImageAccepted s (cellRead s.mem.cells a (field j.payload 8 4))) :
    ∃ m payload, m.macFail = min s.mpr.macFail (2 ^ 32 - 1) ∧ exec (.plateStage ⟨mb, []⟩ true) s =
      .next (finish j .ok payload (storePlate (cellRead s.mem.cells a (field j.payload 8 4)) (modMpr (fun _ => m) s))) := by
  obtain ⟨m, -, read⟩ := devRead_clean image.hbm image.ok image.clean
  have counted := devRead_macFail image.hbm image.ok
  have reads := plateStage_reads asked image
  rw [read] at counted reads
  exact ⟨m, _, counted, reads.trans (congrArg Host.Outcome.next (plateStageData_accepted (accepted.after_read m) _))⟩

/-- MAC_FAIL saturates at its 32 bits when an accepted image is staged, and otherwise stays. -/
theorem plateStage_macFail (asked : StageAsked s mb j) (image : CleanAt s (field j.payload 0 8) a (field j.payload 8 4))
    (accepted : ImageAccepted s (cellRead s.mem.cells a (field j.payload 8 4))) (quiet : j.flags % 2 = 0) :
    ∃ u, exec (.plateStage ⟨mb, []⟩ true) s = .next u ∧ u.mpr.macFail = min s.mpr.macFail (2 ^ 32 - 1) := by
  obtain ⟨m, payload, counted, ran⟩ := plateStage_accepted asked image accepted
  refine ⟨_, ran, ?_⟩
  rw [finish_mpr_of_no_event quiet, storePlate_macFail]
  exact counted

end

/-! ## The counterexample -/

/-- The plate image of the tests in HBM, and MAC_FAIL one above the last value of its 32 bits, which `State` holds as a number. -/
def macFailOver : State := { Tests.plateStored with mpr := { Tests.plateStored.mpr with macFail := 2 ^ 32 } }

theorem macFailOver_image : cellRead macFailOver.mem.cells 0x10000 8192 = Tests.plateImage := by
  have stored : Tests.plateStored.mem.cells = cellWrite [] 0x10000 Tests.plateImage := by rw [Tests.plateStored, Tests.on_mem]
  exact Tests.image_read Tests.plateStored Tests.plateImage 8192 stored Tests.plateImage_len

/-- Refutes O36: `countedHbm` keeps MAC_FAIL, but the read of the image saturates it at 2^32 - 1 (`failReads_nil_macFail`), and the statement
takes states whose MAC_FAIL is above that. In `macFailOver` it is 2^32, and an image that passes every check leaves it at 2^32 - 1. -/
theorem not_plateCommands : ¬ Obligations.PlateCommands := by
  unfold Obligations.PlateCommands
  rintro ⟨stages, -⟩
  have asked : StageAsked macFailOver 0 (Tests.job 0x0401 Tests.plateRequest) :=
    ⟨by decide +kernel, by decide +kernel, by decide +kernel, by decide +kernel⟩
  have size : field (Tests.job 0x0401 Tests.plateRequest).payload 8 4 = 8192 := by decide +kernel
  have image : CleanAt macFailOver (field (Tests.job 0x0401 Tests.plateRequest).payload 0 8) 0x10000 8192 :=
    ⟨by decide +kernel, by decide, by decide +kernel, by decide +kernel, by decide +kernel⟩
  have accepted : ImageAccepted macFailOver Tests.plateImage := by
    refine ⟨?_, Tests.plateImage_layout, by decide +kernel, ?_⟩
    · rw [Tests.plateImage_len]
      exact Tests.plateImage_reason _
    · rw [Tests.plateImage_len]
      decide +kernel
  have checked : stageReason macFailOver Tests.plateImage 8192 = none := Tests.plateImage_reason _
  obtain ⟨h, p, t, ran, -, counted, -⟩ := stages macFailOver 0 (Tests.job 0x0401 Tests.plateRequest) 0x10000 8192 asked.begun asked.length
    asked.reserved image.addr image.low size (by decide) image.hbm image.ok image.clean (by rw [macFailOver_image]; exact checked)
    (by rw [macFailOver_image]; exact accepted.layout) accepted.place (by decide +kernel)
  obtain ⟨u, ends, saturated⟩ := plateStage_macFail asked (by rw [size]; exact image) (by rw [size, macFailOver_image]; exact accepted) rfl
  have kept : t.mpr.macFail = 2 ^ 32 := congrArg (·.mpr.macFail) counted
  rw [ran] at ends
  injection ends with same
  rw [← same, finish_mpr_of_no_event rfl, kept] at saturated
  exact absurd saturated (by decide)

end Sys2Proof.Machine
end

section
/-! STEP_COMMIT at the boundary of a hand-over (06_decode_sessions.md R132; 08_fault_recovery.md R173). -/

namespace Sys2Proof.Machine

/-- STEP_COMMIT of a step that may commit: the commit, then the joining view that waits for its boundary (R132, R173). -/
theorem stepCommit_eq {s : State} (may : mayCommit s = true) : exec .stepCommit s = .next (tryJoin (commitPending s)) := by
  refine congrArg (fun u => Host.Outcome.next (tryJoin u)) ?_
  exact if_pos may

/-- Member 0 of a ring of three holds stretch 1 in place of the spare that has joined at index 1; every member has agreed to the hand-over. -/
def lending : Ring := { Tests.trio with holders := [0, 0, 2], joining := some 1, handing := true, frames := [Tests.view 1 7, Tests.view 2 7] }

/-- A session of that ring whose step has passed its vote, and no output descriptor posted. -/
def votedStep : Session := { Tests.mate with pendStep := some Tests.stepDone }

/-- The member with stretch 1 in HBM, where a stored byte is 1. -/
def lender : State :=
  { Tests.running lending votedStep with mem := { Tests.live.mem with held := [⟨0x2000, 0x1000, .stretch 1⟩], cells := [(0x2000, 1)] } }

theorem lender_mayCommit : mayCommit lender = true := by decide +kernel

/-- The step writes no KV of its own, and so leaves the byte. -/
theorem lender_stored : storeStuck (commitWrites lender votedStep Tests.stepDone) lender = false ∧
    cellGet (storeRows (commitWrites lender votedStep Tests.stepDone) lender).mem.cells 0x2000 = 1 := by decide +kernel

/-- The commit ends in the hand-over, which leaves the session open and wipes what the member held for the spare. -/
theorem lender_handsOver : (tryJoin (commitPending lender)).dec.all (fun x => x.state != 6) = true ∧
    cellGet (tryJoin (commitPending lender)).mem.cells 0x2000 = 0 := by decide +kernel

/-- Refutes O42: STEP_COMMIT also installs a hand-over that waits for the boundary (`stepCommit_eq`), and the former holder's storage of the
stretch is released and wiped (R173 step 6), where the statement lets memory change by the commit's own writes alone. In `lender` the session
goes on, and a stored byte of stretch 1 reads 0 (`lender_handsOver`) that those writes leave at 1 (`lender_stored`). -/
theorem not_stepsRun : ¬ Obligations.StepsRun := by
  unfold Obligations.StepsRun
  rintro ⟨-, -, commits, -⟩
  obtain ⟨free, before⟩ := lender_stored
  obtain ⟨goesOn, after⟩ := lender_handsOver
  obtain ⟨t, x, ran, session, -, -, landed⟩ := commits lender votedStep Tests.stepDone rfl rfl lender_mayCommit
  obtain ⟨-, -, same⟩ := landed free
  rw [stepCommit_eq lender_mayCommit] at ran
  injection ran with result
  rw [result] at goesOn after
  have opened : x.state ≠ 6 := by simpa [session] using goesOn
  have kept := same rfl opened 0x2000
  rw [after, before] at kept
  exact absurd kept (by decide)

end Sys2Proof.Machine
end

section
/-! What an event leaves of the mailbox complex (16_control_and_mailboxes.md R320): the commands in it and its firmware's state. -/

namespace Sys2Proof.Machine

/-- The mailbox complex beside the event ring, its counters and its message. -/
def withoutEvents (m : MbxState) : MbxState :=
  { m with ring := none, seq := 0, overrun := false, lost := 0, irqOpen := false, irqPending := false }

section
variable (s : State)

@[simp] theorem ite_mbx (c : Prop) [Decidable c] (a b : State) : (if c then a else b).mbx = if c then a.mbx else b.mbx :=
  apply_ite State.mbx c a b

/-! ## Writes of memory and messages -/

@[simp] theorem post_mbx (fn : Nat) (o : Output) : (post fn o s).mbx = s.mbx := by
  unfold post
  split <;> rfl

@[simp] theorem mapPages_mbx (p n : Nat) (f : PageMeta → PageMeta) : (mapPages p n f s).mbx = s.mbx := by simp [mapPages]

@[simp] theorem writePages_mbx (p n lo hi : Nat) : (writePages p n lo hi s).mbx = s.mbx := by simp [writePages, countWalks]

@[simp] theorem writeLines_mbx (a n : Nat) : (writeLines a n s).mbx = s.mbx := by simp [writeLines]

@[simp] theorem memWrite_mbx (a : Nat) (bs : Bytes) : (memWrite a bs s).2.mbx = s.mbx := by
  unfold memWrite
  dsimp only
  split
  · split
    · rfl
    · split <;> simp
  · simp

@[simp] theorem ringStore_mbx (fn : Nat) (hbm : Bool) (a : Nat) (bs : Bytes) : (ringStore fn hbm a bs s).mbx = s.mbx := by simp [ringStore]

@[simp] theorem tailStore_mbx (fn tail producer : Nat) : (tailStore fn tail producer s).mbx = s.mbx := by
  unfold tailStore
  split <;> simp

/-! ## Events -/

theorem signalEvent_withoutEvents (vector : Nat) : withoutEvents (signalEvent vector s).mbx = withoutEvents s.mbx := by
  unfold signalEvent
  split
  · rfl
  · split
    · rfl
    · simp [withoutEvents]

theorem writeEvent_withoutEvents (r : EventRing) (code sev seq arg0 arg1 : Nat) :
    withoutEvents (writeEvent r code sev seq arg0 arg1 s).mbx = withoutEvents s.mbx := by
  unfold writeEvent
  dsimp only
  split
  · rw [emit_mbx, signalEvent_withoutEvents]
    simp [withoutEvents]
  · rw [signalEvent_withoutEvents]
    simp [withoutEvents]

theorem postEvent_withoutEvents (code sev arg0 arg1 : Nat) : withoutEvents (postEvent code sev arg0 arg1 s).mbx = withoutEvents s.mbx := by
  unfold postEvent
  dsimp only
  split
  · rfl
  · split
    · rfl
    · split
      · rfl
      · exact writeEvent_withoutEvents ..

end

section
variable {s t : State}

theorem jobs_of_withoutEvents (h : withoutEvents t.mbx = withoutEvents s.mbx) : t.mbx.jobs = s.mbx.jobs :=
  (congrArg MbxState.jobs h :)

theorem firmwareRuns_of_withoutEvents (h : withoutEvents t.mbx = withoutEvents s.mbx) : firmwareRuns t = firmwareRuns s :=
  (congrArg (fun m : MbxState => (m.fwReady || m.recovery) && (list4 m.halted).all (!·)) h :)

end

end Sys2Proof.Machine
end

section
/-! How the ports of a ring come up and are released (07_sequence_ring.md R140, R142; 12_ports_and_links.md R242, R243). -/

namespace Sys2Proof.Machine

theorem mod5_mod5 {α : Type} (x : Five α) (i : Nat) (f g : α → α) : mod5 (mod5 x i f) i g = mod5 x i (g ∘ f) := by
  unfold mod5
  grind

theorem mod5_id {α : Type} (x : Five α) (i : Nat) : mod5 x i id = x := by simp [mod5]

/-- What a change of one of five keeps of each keeps it of all of them. -/
theorem get5_mod5_of {α : Type} {P : α → Prop} {x : Five α} {f : α → α} (i : Nat) {k : Nat} (h : P (get5 x k)) (hf : ∀ y, P y → P (f y)) :
    P (get5 (mod5 x i f) k) := by
  unfold get5 mod5 at *
  grind

section
variable {s : State}

/-! ## A change of several ports -/

theorem foldl_modPort_frame (f : Port → Port) (l : List Nat) : { l.foldl (fun st p => modPort p f st) s with ports := s.ports } = s :=
  foldl_keeps (fun t => { t with ports := s.ports }) (fun st p => modPort p f st) s (fun _ _ => rfl) l

theorem get5_foldl_modPort {f : Port → Port} (idem : ∀ x, f (f x) = f x) {p : Nat} (hp : p < 5) (l : List Nat) (hl : ∀ q ∈ l, q < 5) :
    get5 (l.foldl (fun st q => modPort q f st) s).ports p = if p ∈ l then f (get5 s.ports p) else get5 s.ports p := by
  induction l generalizing s with
  | nil => rfl
  | cons q l ih =>
    obtain ⟨hq, hl⟩ := List.forall_mem_cons.mp hl
    rw [List.foldl_cons, ih hl, modPort_ports]
    by_cases same : p = q
    · subst same
      simp [get5_mod5_same, idem]
    · simp [get5_mod5_other _ hq hp same, same]

/-! ## Bring-up -/

/-- A port whose bring-up in ring mode begins (R242). -/
def broughtUp (rate : Nat) (p : Port) : Port :=
  { p with mode := 2, rate := rate, an := false, up := false, keyed := false, lock := 0, reason := 0, optOff := false,
           everUp := false, formed := 0, hs := {}, replay := [], ringQ := [], waiting := [], txCtr := 0, rxNext := 0,
           xoffIn := false, xoffOut := false, nakOut := false, resends := [] }

theorem get5_foldl_ringBringUp (rate : Nat) {p : Nat} (hp : p < 5) (l : List Nat) (hl : ∀ q ∈ l, q < 5) :
    get5 (l.foldl (fun st q => ringBringUp rate q st) s).ports p = if p ∈ l then broughtUp rate (get5 s.ports p) else get5 s.ports p :=
  get5_foldl_modPort (f := broughtUp rate) (fun _ => rfl) hp l hl

theorem foldl_ringBringUp_frame (rate : Nat) (l : List Nat) :
    { l.foldl (fun st p => ringBringUp rate p st) s with ports := s.ports } = s := foldl_modPort_frame _ l

theorem ringPorts_lt (n : Nat) : ∀ p ∈ ringPorts n, p < 5 := by
  unfold ringPorts
  split <;> decide

/-! ## Release -/

/-- A port in electrical idle, with nothing that waits (R242). -/
def Idle (p : Port) : Prop := p.mode = 0 ∧ p.up = false ∧ p.optOff = true ∧ p.ringQ = []

theorem postEvent_ports (code sev arg0 arg1 : Nat) : (postEvent code sev arg0 arg1 s).ports = s.ports :=
  (congrArg State.ports (carriersOf_postEvent s s code sev arg0 arg1) :)

theorem ringBroken_ports (port : Nat) : (ringBroken port s).ports = s.ports := by
  unfold ringBroken
  split
  · rfl
  · split
    · exact postEvent_ports ..
    · rfl

/-- A link that goes down changes no other port. -/
theorem linkGoesDown_ports (port reason : Nat) : ∃ f, (linkGoesDown port reason s).ports = mod5 s.ports port f := by
  unfold linkGoesDown
  dsimp only
  split
  · exact ⟨id, (mod5_id s.ports port).symm⟩
  · split
    · simp only [ringBroken_ports, dropLinkKeys, clearSlots, modKst_ports, modPort_ports, postEvent_ports, mod5_mod5]
      exact ⟨_, rfl⟩
    · simp only [postEvent_ports, modPort_ports]
      exact ⟨_, rfl⟩

/-- A release changes no other port, and leaves its own in electrical idle. -/
theorem releasePort_ports (reason port : Nat) : ∃ f, (releasePort reason port s).ports = mod5 s.ports port f ∧ ∀ p, Idle (f p) := by
  obtain ⟨g, down⟩ := linkGoesDown_ports (s := s) port reason
  simp only [releasePort, dropLinkKeys, clearSlots, modPort_ports, modBuf_ports, modKst_ports, down, mod5_mod5]
  exact ⟨_, rfl, fun _ => ⟨rfl, rfl, rfl, rfl⟩⟩

theorem releasePort_idle (reason port : Nat) : Idle (get5 (releasePort reason port s).ports port) := by
  obtain ⟨f, released, idle⟩ := releasePort_ports (s := s) reason port
  rw [released, get5_mod5_same]
  exact idle _

theorem releasePort_keeps_idle (reason port : Nat) {p : Nat} (h : Idle (get5 s.ports p)) : Idle (get5 (releasePort reason port s).ports p) := by
  obtain ⟨f, released, idle⟩ := releasePort_ports (s := s) reason port
  rw [released]
  exact get5_mod5_of port h fun y _ => idle y

theorem foldl_releasePort_keeps_idle (reason : Nat) {p : Nat} (l : List Nat) (h : Idle (get5 s.ports p)) :
    Idle (get5 (l.foldl (fun st q => releasePort reason q st) s).ports p) := by
  induction l generalizing s with
  | nil => exact h
  | cons q l ih => exact ih (releasePort_keeps_idle reason q h)

/-- Every port of the list is in electrical idle once all are released. -/
theorem foldl_releasePort_idle (reason : Nat) {p : Nat} {l : List Nat} (hp : p ∈ l) :
    Idle (get5 (l.foldl (fun st q => releasePort reason q st) s).ports p) := by
  induction l generalizing s with
  | nil => contradiction
  | cons q l ih =>
    obtain rfl | hp := List.mem_cons.mp hp
    · exact foldl_releasePort_keeps_idle reason l (releasePort_idle reason p)
    · exact ih hp

/-- What a release leaves alone: the commands, the session, the counter of proofs, and whether there is a ring. -/
def heldByRelease (s : State) : MbxState × Option Session × Nat × Bool := (withoutEvents s.mbx, s.dec, s.kst.serial, s.ring.isSome)

theorem postEvent_heldByRelease (code sev arg0 arg1 : Nat) : heldByRelease (postEvent code sev arg0 arg1 s) = heldByRelease s := by
  have frame := carriersOf_postEvent s s code sev arg0 arg1
  have dec : (postEvent code sev arg0 arg1 s).dec = s.dec := (congrArg State.dec frame :)
  have kst : (postEvent code sev arg0 arg1 s).kst = s.kst := (congrArg State.kst frame :)
  have ring : (postEvent code sev arg0 arg1 s).ring = s.ring := (congrArg State.ring frame :)
  simp only [heldByRelease, postEvent_withoutEvents, dec, kst, ring]

theorem ringBroken_heldByRelease (port : Nat) : heldByRelease (ringBroken port s) = heldByRelease s := by
  unfold ringBroken
  split
  · rfl
  · split
    · rw [postEvent_heldByRelease]
      simp [heldByRelease, modRing]
    · rfl

theorem linkGoesDown_heldByRelease (port reason : Nat) : heldByRelease (linkGoesDown port reason s) = heldByRelease s := by
  unfold linkGoesDown
  dsimp only
  split
  · rfl
  · split
    · exact (ringBroken_heldByRelease port).trans (postEvent_heldByRelease ..)
    · exact postEvent_heldByRelease ..

theorem releasePort_heldByRelease (reason port : Nat) : heldByRelease (releasePort reason port s) = heldByRelease s := by
  refine Eq.trans ?_ (linkGoesDown_heldByRelease port reason)
  simp [heldByRelease, releasePort, dropLinkKeys, clearSlots]

theorem foldl_releasePort_heldByRelease (reason : Nat) (l : List Nat) :
    heldByRelease (l.foldl (fun st q => releasePort reason q st) s) = heldByRelease s :=
  foldl_keeps heldByRelease _ s (fun _ q => releasePort_heldByRelease reason q) l

end

end Sys2Proof.Machine
end

section
/-! The mailbox commands of the ring (07_sequence_ring.md R139, R140, R142; 08_fault_recovery.md R172, R173). -/

namespace Sys2Proof.Machine

section
variable {s : State} {mb : MbId} {j : Job} {r : Ring}

/-- A row that begins once runs its command once it has been dispatched. -/
theorem onNewJob_begun {op : Nat} (begun : Begun s mb op j) (f : Job → State) : onNewJob mb op s f = f j := by
  obtain ⟨running, first⟩ := begun
  simp only [onNewJob, running, if_pos first]

theorem ringArg_eq (hring : s.ring = some r) (hid : r.id % 2 ^ 32 = field j.payload 0 4) : ringArg s j = some r := by
  simp [ringArg, ringOf, arg, hring, ← hid]

/-! ## Forming -/

/-- The state in which a ring has begun to form (R140 step 3). -/
def forming (j : Job) (spare : Bool) (s : State) : State :=
  (ringPorts (field j.payload 8 1)).foldl (fun st p => ringBringUp (field j.payload 0xA 1) p st)
    { s with ring := some (newRing j.payload j spare) }

theorem beginForm_eq (good : formBad s j.payload = false) (free : formBusy s (field j.payload 8 1) = false) (spare : Bool) :
    beginForm j spare s = waitJob j 0 (forming j spare s) := by
  simp only [beginForm, good, free]
  rfl

theorem forming_ring (spare : Bool) : (forming j spare s).ring = some (newRing j.payload j spare) :=
  (congrArg State.ring (foldl_ringBringUp_frame _ _) :)

theorem forming_frame (spare : Bool) : { forming j spare s with ring := s.ring, ports := s.ports } = s :=
  congrArg (fun t => { t with ring := s.ring }) (foldl_ringBringUp_frame (s := { s with ring := some (newRing j.payload j spare) }) _ _)

theorem get5_forming (spare : Bool) {p : Nat} (hp : p < 5) : get5 (forming j spare s).ports p =
    if p ∈ ringPorts (field j.payload 8 1) then broughtUp (field j.payload 0xA 1) (get5 s.ports p) else get5 s.ports p :=
  get5_foldl_ringBringUp _ hp _ (ringPorts_lt _)

/-! ## The end of a ring -/

/-- The state whose ring is gone, its ports released (R140, R142). -/
def ringGone (r : Ring) (s : State) : State := r.ports.foldl (fun st p => releasePort 9 p st) { s with ring := none }

theorem ringGone_heldByRelease (r : Ring) (s : State) : heldByRelease (ringGone r s) = heldByRelease { s with ring := none } :=
  foldl_releasePort_heldByRelease 9 r.ports

theorem ringGone_ring (r : Ring) (s : State) : (ringGone r s).ring = none := by
  have gone : (ringGone r s).ring.isSome = false := congrArg (·.2.2.2) (ringGone_heldByRelease r s)
  simpa using gone

theorem ringGone_dec (r : Ring) (s : State) : (ringGone r s).dec = s.dec := (congrArg (·.2.1) (ringGone_heldByRelease r s) :)

theorem ringGone_serial (r : Ring) (s : State) : (ringGone r s).kst.serial = s.kst.serial :=
  (congrArg (·.2.2.1) (ringGone_heldByRelease r s) :)

theorem ringGone_mbx (r : Ring) (s : State) : withoutEvents (ringGone r s).mbx = withoutEvents s.mbx :=
  (congrArg (·.1) (ringGone_heldByRelease r s) :)

theorem ringGone_idle {p : Nat} (hp : p ∈ r.ports) : Idle (get5 (ringGone r s).ports p) := foldl_releasePort_idle 9 hp

theorem jobAt_ringGone (r : Ring) (s : State) (o : Nat) : jobAt (ringGone r s) o = jobAt s o := by
  unfold jobAt
  rw [jobs_of_withoutEvents (ringGone_mbx r s)]

/-- Forming that fails ends the command that waits for it (R140). -/
theorem formFails_eq {m o : Nat} (hring : s.ring = some r) (hformer : r.former = some (m, o)) (hjob : jobAt s o = some j) (st : Status) :
    formFails st s = conclude j st [] (ringGone r s) := by
  have found : r.former.bind (fun f => jobAt (ringGone r s) f.2) = some j := by
    rw [hformer, Option.bind_some, jobAt_ringGone, hjob]
  unfold ringGone at found
  simp only [formFails, hring, found]
  rfl

/-! ## The admission of a spare -/

/-- The ring with a spare admitted at index `i` (R173). -/
def admitting (i : Nat) (id : Bytes) (r : Ring) : Ring :=
  { r with admitted := (i, id) :: r.admitted.filter (·.1 != i)
           params := r.params.take (0x10 + 64 * i) ++ id ++ r.params.drop (0x10 + 64 * i + 64) }

/-- The ports that face index `i` and are down. -/
def portsToward (s : State) (r : Ring) (i : Nat) : List Nat := r.ports.filter (fun p => facing r p == i && !(get5 s.ports p).up)

theorem mem_portsToward {i p : Nat} : p ∈ portsToward s r i ↔ p ∈ r.ports ∧ facing r p = i ∧ (get5 s.ports p).up = false := by
  simp [portsToward]

/-- The state after an admission: the ring knows the spare, and the ports that face it come up (R173). -/
def spareAdmitted (i : Nat) (id : Bytes) (r : Ring) (s : State) : State :=
  (portsToward s r i).foldl (fun st p => ringBringUp r.rate p st) { s with ring := some (admitting i id r) }

theorem ringAdmit_eq (begun : Begun s mb 0x0611 j) (length : j.payload.length = 72) (reserved : zeroAt j.payload 5 3 = true)
    (hring : s.ring = some r) (hid : r.id % 2 ^ 32 = field j.payload 0 4) (member : field j.payload 4 1 < r.count)
    (failed : r.alive.getLsbD (field j.payload 4 1) = false) (settled : r.state ≠ 3)
    (new : ∀ k ∈ membersOf r.alive, expectedId r k ≠ slice j.payload 8 64) :
    exec (.ringAdmit mb) s = .next (answer j .ok (spareAdmitted (field j.payload 4 1) (slice j.payload 8 64) r s)) := by
  have fits : lenIs j 72 = true := beq_iff_eq.mpr length
  have other : (membersOf r.alive).any (fun k => expectedId r k == slice j.payload 8 64) = false := by simpa using new
  have inRing : ¬r.count ≤ field j.payload 4 1 := Nat.not_le.mpr member
  refine (congrArg Host.Outcome.next (onNewJob_begun begun _)).trans ?_
  simp only [fits, reserved, ringArg_eq hring hid, arg, inRing, failed, settled, other, modRing, hring, Option.map_some]
  rfl

end

/-- Settles O46: forming and admission bring ports up (`get5_forming`, `get5_foldl_ringBringUp`); a timeout and a dissolve release them
(`ringGone`), and the commands and the session are what they were (`ringGone_heldByRelease`). -/
theorem ringCommands : Obligations.RingCommands := by
  unfold Obligations.RingCommands
  refine ⟨fun s mb j x hx begun good free => ?forms, fun s mb r o j hring hstate hformer hjob => ?timeout,
    fun s mb j r begun length reserved hring hid => ?status, fun s mb j r begun length reserved hring hid idle => ?dissolve,
    fun s mb j r begun length reserved hring hid hports => ?admission⟩
  case forms =>
    have runs : exec x.1 s = .next (beginForm j x.2.2 s) := by
      obtain rfl | rfl := by simpa using hx
      · exact congrArg Host.Outcome.next (onNewJob_begun begun _)
      · exact congrArg Host.Outcome.next (onNewJob_begun begun _)
    refine ⟨_, runs.trans (congrArg _ (beginForm_eq good free _)), forming_ring _, fun p hp => ?_, forming_frame _⟩
    rw [get5_forming _ hp]
    split
    · exact ⟨rfl, rfl, rfl, rfl, rfl, rfl⟩
    · rfl
  case timeout =>
    have waits : (decide (r.state = 1) && r.former.any (fun f => f.1 == mb.val)) = true := by simp [hstate, hformer]
    have runs : exec (.ringFormTimeout mb) s = .next (formFails .linkDown s) := by
      simp only [exec, execRingFormTimeout, hring, waits, if_true]
    refine ⟨ringGone r s, ?_, ringGone_ring r s, ringGone_dec r s, fun p hp _ => ringGone_idle hp⟩
    rw [runs, formFails_eq hring hformer hjob, conclude, firmwareRuns_of_withoutEvents (ringGone_mbx r s)]
    rfl
  case status =>
    have fits : lenIs j 8 = true := beq_iff_eq.mpr length
    refine (congrArg Host.Outcome.next (onNewJob_begun begun _)).trans ?_
    simp only [fits, arg, reserved, ringArg_eq hring hid]
    rfl
  case dissolve =>
    have fits : lenIs j 8 = true := beq_iff_eq.mpr length
    have unused : ringInUse s = false := by
      unfold ringInUse
      cases hdec : s.dec with
      | none => rfl
      | some d => simpa [hdec] using idle
    refine ⟨ringGone r s, ?_, ringGone_ring r s, ringGone_dec r s, ringGone_serial r s, fun p hp _ => ?_⟩
    · refine (congrArg Host.Outcome.next (onNewJob_begun begun _)).trans ?_
      simp only [fits, arg, reserved, ringArg_eq hring hid, unused]
      rfl
    · obtain ⟨mode, up, optOff, -⟩ := ringGone_idle (s := s) hp
      exact ⟨mode, up, optOff⟩
  case admission =>
    intro i id member failed settled new
    refine ⟨_, ringAdmit_eq begun length reserved hring hid member failed settled new, ?ring, fun p hp => ?port, ?frame⟩
    case ring => exact (congrArg State.ring (foldl_ringBringUp_frame r.rate (portsToward s r i)) :)
    case port =>
      have here : ∀ q ∈ portsToward s r i, q < 5 := fun q hq => hports q (mem_portsToward.mp hq).1
      have up := get5_foldl_ringBringUp (s := { s with ring := some (admitting i id r) }) r.rate hp _ here
      split
      next faces =>
        rw [if_pos (mem_portsToward.mpr faces)] at up
        rw [spareAdmitted, up]
        exact ⟨rfl, rfl, rfl, rfl⟩
      next others => exact up.trans (if_neg (mt mem_portsToward.mp others))
    case frame =>
      exact congrArg (fun t => { t with ring := s.ring }) (foldl_ringBringUp_frame r.rate (portsToward s r i))

end Sys2Proof.Machine
end

section
/-! RING_FRAME_RECEIVE of a whole datum (07_sequence_ring.md R155; 14_rings_and_buffer_pool.md R285): what becomes of the pool's count of bad words. -/

namespace Sys2Proof.Machine

/-- A port of the ring that waits for its first frame, and PARITY_CNT one above the last value of its 32 bits, which `State` holds as a number. -/
def parityOver : State := { Tests.sent Tests.linked with buf := { Tests.live.buf with parity := 2 ^ 32 } }

/-- The frame of the tests is stored whole, and its sound words leave PARITY_CNT as it is. -/
theorem parityOver_receives : ∃ t, exec (.ringFrameReceive 0 Tests.frame1) parityOver = .next t ∧ t.buf.parity = 2 ^ 32 :=
  ⟨_, rfl, by decide +kernel⟩

/-- Refutes O47: the next frame in order with a whole datum is to leave PARITY_CNT at its old value plus the bad words, saturated at 2^32 - 1, but
`poolFail` does not write the count for a datum with no bad word, and the statement takes states whose PARITY_CNT is above 2^32 - 1. In
`parityOver` it is 2^32, and the frame leaves it so (`parityOver_receives`). -/
theorem not_ringFrames : ¬ Obligations.RingFrames := by
  unfold Obligations.RingFrames
  rintro ⟨receives, -⟩
  obtain ⟨-, -, -, -, stores⟩ := receives parityOver 0 Tests.frame1 Tests.trio rfl (by decide +kernel) (by decide +kernel) (by decide +kernel)
  obtain ⟨t, ran, -, -, -, -, -, counted, -⟩ := stores rfl (by decide +kernel) (by decide +kernel) (by decide +kernel) rfl rfl rfl
    (by decide +kernel) (by decide +kernel) rfl rfl (by decide +kernel) (.inr (.inr (by decide +kernel)))
  obtain ⟨u, ends, kept⟩ := parityOver_receives
  rw [ran] at ends
  injection ends with same
  rw [← same, counted] at kept
  exact absurd kept (by decide)

end Sys2Proof.Machine
end

section
/-! NETWORK_FRAME_RECEIVE behind a lost frame (12_ports_and_links.md R232, R233): which side of the replay window an SA bars. -/

namespace Sys2Proof.Machine

/-- A protected frame that verifies, one packet number above the next that `Tests.sa0` expects: the frame before it was lost. -/
def frameBehindLost : NetFrame := Tests.netFrame (.macsec 1 0 2 true)

/-- The keyed network port of the tests stores the frame: no packet number above the next expected one is a replay. -/
theorem frameBehindLost_stored : ∃ t, exec (.networkFrameReceive 0 ⟨frameBehindLost, ⟨0, 0⟩⟩) (Tests.wired Tests.secured) = .next t ∧
    (t.buf.channels[0]?).map Channel.fifo = some [(1, false)] ∧ (get5 t.ports 0).macDrop = 0 :=
  ⟨_, rfl, by decide +kernel⟩

/-- Refutes O54: its clauses on protected frames have an SA serve `pn ≤ a.pn + a.window` and every other frame dropped and counted. The replay
window of R233 bars the packet numbers below the next expected one less the window, `rxSaFor` asks `a.pn ≤ pn + a.window`, and so a frame
behind a lost one, above the statement's bound, is stored with no drop counted (`frameBehindLost_stored`). -/
theorem not_portsAndLinks : ¬ Obligations.PortsAndLinks := by
  unfold Obligations.PortsAndLinks
  rintro ⟨-, -, -, -, -, -, frames, -⟩
  obtain ⟨-, sound⟩ := frames (Tests.wired Tests.secured) 0 frameBehindLost ⟨0, 0⟩
  obtain ⟨-, -, -, secured⟩ := sound rfl rfl rfl (by decide) (by decide)
  have unserved : ∀ a ∈ Tests.keyedPort.rxSa, ¬(a.an = 1 ∧ a.sci = 0 ∧ 2 ≤ a.pn + a.window) := by decide
  obtain ⟨t, ran, counted, -⟩ := (secured 1 0 2 true rfl).1 (.inr unserved)
  obtain ⟨u, stores, -, kept⟩ := frameBehindLost_stored
  rw [ran] at stores
  injection stores with same
  rw [← same] at kept
  exact absurd (counted.symm.trans kept) (by decide)

end Sys2Proof.Machine
end

section
/-! What a draw on the generator keeps (19_entropy_and_check_values.md R374), and how a write of the key store shows in a slot
(17_keys_and_attestation.md R332). -/

namespace Sys2Proof.Machine

section
variable {s t u : State}

/-! ## The generator -/

theorem drewOnly_refl (s : State) : drewOnly s s := ⟨fun _ _ => rfl, rfl⟩

/-- `t` with the generator's working state and the key slots as they are in `s`. -/
def generatorOf (s t : State) : State :=
  { t with ent := { t.ent with requests := s.ent.requests, reseeding := s.ent.reseeding, drbgV := s.ent.drbgV }
           kst := { t.kst with slots := s.kst.slots } }

theorem drewBytes_iff : drewBytes s t ↔ generatorOf s t = s := Iff.rfl

theorem drewOnly_trans (first : drewOnly s t) (second : drewOnly t u) : drewOnly s u := by
  obtain ⟨slots, frame⟩ := first
  obtain ⟨slots', frame'⟩ := second
  rw [drewBytes_iff] at frame frame'
  have both : generatorOf s u = s := (congrArg (generatorOf s) frame').trans frame
  exact ⟨fun n hn => (slots' n hn).trans (slots n hn), both⟩

theorem drewOnly_ports (drew : drewOnly s t) : t.ports = s.ports := (congrArg State.ports drew.2 :)
theorem drewOnly_ring (drew : drewOnly s t) : t.ring = s.ring := (congrArg State.ring drew.2 :)

theorem drbgTake_drewOnly (n : Nat) (s : State) : drewOnly s (drbgTake n s).2 := ⟨fun m => slotAt_drbgTake n m, rfl⟩

/-- Signing a handshake message leaves what it says, and draws on the generator alone. -/
theorem hsSign_eq (initiator : Bool) (before : Bytes) (h : Handshake) (s : State) :
    ∃ m t, hsSign initiator before h s = (m, t) ∧ m.identity = h.identity ∧ m.ringDigest = h.ringDigest ∧ drewOnly s t := by
  unfold hsSign
  split
  · exact ⟨_, _, rfl, rfl, rfl, drbgTake_drewOnly 32 s⟩
  · exact ⟨h, s, rfl, rfl, rfl, drewOnly_refl s⟩

/-! ## Slots -/

theorem slotAt_modPort (p : Nat) (f : Port → Port) (s : State) (n : Nat) : slotAt (modPort p f s) n = slotAt s n := rfl

/-- Two searches that agree on every slot of the store find the same one. -/
theorem find_slot_congr {p q : KeySlot → Bool} {l : List KeySlot} (agree : ∀ k ∈ l, p k = q k) : l.find? p = l.find? q := by
  induction l with
  | nil => rfl
  | cons k l ih =>
    obtain ⟨here, rest⟩ := List.forall_mem_cons.mp agree
    rw [List.find?_cons, List.find?_cons, here, ih rest]

theorem slotAt_clearSlots (p : Nat → Bool) (s : State) (n : Nat) : slotAt (clearSlots p s) n = if p n then none else slotAt s n := by
  simp only [slotAt, clearSlots, modKst, List.find?_filter]
  split
  next cleared => exact List.find?_eq_none.mpr fun k _ => by grind
  next kept => exact find_slot_congr fun k _ => by grind

theorem slotAt_fillSlot_other (k : KeySlot) (s : State) {n : Nat} (other : n ≠ k.slot) : slotAt (fillSlot k s) n = slotAt s n := by
  have elsewhere : (k.slot == n) = false := beq_false_of_ne other.symm
  have kept (q : KeySlot → Bool) (all : ∀ y : KeySlot, y.slot = n → q y = true) :
      (s.kst.slots.filter q).find? (·.slot == n) = s.kst.slots.find? (·.slot == n) := by
    rw [List.find?_filter]
    exact find_slot_congr fun y _ => by grind
  have left (q : KeySlot → Bool) (no : ∀ y : KeySlot, y.slot = n → q y = false) : (s.kst.slots.filter q).find? (·.slot == n) = none :=
    List.find?_eq_none.mpr fun y hy => by grind
  simp only [slotAt, fillSlot, modKst, List.find?_append, List.find?_cons, elsewhere]
  obtain below | above := Nat.lt_or_gt_of_ne other
  · rw [kept _ fun y hy => by grind, left _ fun y hy => by grind, Option.or_none]
  · rw [left _ fun y hy => by grind, kept _ fun y hy => by grind, Option.none_or]

end

end Sys2Proof.Machine
end

section
/-! The handshakes and rekeys of a ring link (12_ports_and_links.md R239, R241). -/

namespace Sys2Proof.Machine

section
variable {s t : State} {r : Ring} {port : Nat} {h : Handshake}

/-! ## A ring that is not forming, a port on which nothing waits -/

/-- The ring, if there is one, is past its forming (R140). -/
def Settled (s : State) : Prop := ∀ r, s.ring = some r → r.state ≠ 1

theorem settled_of_ring (hring : s.ring = some r) (settled : r.state ≠ 1) : Settled s := by
  intro q hq
  rw [hring] at hq
  cases hq
  exact settled

theorem formCheck_settled (settled : Settled s) : formCheck s = s := by
  unfold formCheck
  split
  · rfl
  next r hring => simp [settled r hring]

theorem pumpAll_of_nothing_waits (empty : (get5 s.ports port).ringQ = []) : pumpAll port s = s := by
  unfold pumpAll
  rw [empty]
  rfl

/-- A port that carries an up link of the ring. -/
structure LinkUp (s : State) (r : Ring) (port : Nat) : Prop where
  ring : s.ring = some r
  mode : (get5 s.ports port).mode = 2
  up : (get5 s.ports port).up = true

/-! ## The keys of a link -/

/-- `t` with the ports and the key slots as they are in `s`. -/
def linksOf (s t : State) : State := { t with ports := s.ports, kst := { t.kst with slots := s.kst.slots } }

theorem linksOf_self (s : State) : linksOf s s = s := rfl
theorem linksOf_modPort (p : Nat) (f : Port → Port) : linksOf s (modPort p f t) = linksOf s t := rfl
theorem linksOf_fillSlot (k : KeySlot) : linksOf s (fillSlot k t) = linksOf s t := rfl
theorem linksOf_clearSlots (p : Nat → Bool) : linksOf s (clearSlots p t) = linksOf s t := rfl

/-- A link keyed both ways (R239 step 4): its keys in their slots, its LINK_IDs, and its transmit counter at the start. -/
structure KeyedWith (port : Nat) (tx rx : Bytes) (txId rxId : Nat) (t : State) : Prop where
  keyed : (get5 t.ports port).keyed = true
  txId : (get5 t.ports port).txId = txId
  rxId : (get5 t.ports port).rxId = rxId
  txCtr : (get5 t.ports port).txCtr = 0
  txKey : (slotAt t (linkSlot port 0 false)).map (·.secret) = some tx
  rxKey : (slotAt t (linkSlot port 1 false)).map (·.secret) = some rx

theorem linkSlot_rx_ne_tx : linkSlot port 1 false ≠ linkSlot port 0 false := by
  unfold linkSlot
  omega

theorem linkSlot_next_ne_current (dir : Nat) : linkSlot port dir true ≠ linkSlot port dir false :=
  Nat.succ_ne_self (linkSlot port dir false)

/-- The check of the neighbour's parameters, as a port keeps it once its link is keyed (R140). -/
def checkedAgainst (r : Ring) (h : Handshake) : Nat := if h.ringDigest = ringDigest r then 1 else 3

/-- The state whose new link has got its keys, the neighbour's parameters checked. -/
def linkKeyed (port : Nat) (r : Ring) (h : Handshake) (tx rx : Bytes) (txId rxId : Nat) (s : State) : State :=
  modPort port (fun p => { p with formed := checkedAgainst r h }) (installKeys port tx rx txId rxId s)

theorem linkKeyed_keyedWith (h : Handshake) (tx rx : Bytes) (txId rxId : Nat) :
    KeyedWith port tx rx txId rxId (linkKeyed port r h tx rx txId rxId s) := by
  have slots (n : Nat) : slotAt (linkKeyed port r h tx rx txId rxId s) n =
      slotAt (fillSlot (linkKey (linkSlot port 0 false) tx) (fillSlot (linkKey (linkSlot port 1 false) rx) s)) n := by
    simp only [linkKeyed, installKeys, slotAt_modPort]
  have txSlot := (slots _).trans (slotAt_fillSlot (linkKey (linkSlot port 0 false) tx) _)
  have rxSlot := ((slots _).trans (slotAt_fillSlot_other _ _ linkSlot_rx_ne_tx)).trans (slotAt_fillSlot (linkKey (linkSlot port 1 false) rx) s)
  constructor
  case txKey => exact congrArg (Option.map (·.secret)) txSlot
  case rxKey => exact congrArg (Option.map (·.secret)) rxSlot
  all_goals simp [linkKeyed, installKeys, get5_mod5_same]

theorem linkKeyed_formed (h : Handshake) (tx rx : Bytes) (txId rxId : Nat) :
    (get5 (linkKeyed port r h tx rx txId rxId s).ports port).formed = checkedAgainst r h := by
  simp [linkKeyed, get5_mod5_same]

theorem linkKeyed_frame (h : Handshake) (tx rx : Bytes) (txId rxId : Nat) : linksOf s (linkKeyed port r h tx rx txId rxId s) = s := by
  simp only [linkKeyed, installKeys, linksOf_modPort, linksOf_fillSlot, linksOf_self]

/-- A handshake that ends on a new link keys it: nothing waits on the port, and the ring is past its forming. -/
theorem handshakeDone_new_link (settled : Settled s) (new : (get5 s.ports port).keyed = false) (empty : (get5 s.ports port).ringQ = [])
    (h : Handshake) (tx rx : Bytes) (txId rxId : Nat) : handshakeDone port r h tx rx txId rxId s = linkKeyed port r h tx rx txId rxId s := by
  have still : (get5 (linkKeyed port r h tx rx txId rxId s).ports port).ringQ = [] := by
    simp [linkKeyed, installKeys, fillSlot, get5_mod5_same, empty]
  have past : Settled (linkKeyed port r h tx rx txId rxId s) := settled
  unfold handshakeDone
  rw [new]
  exact (congrArg formCheck (pumpAll_of_nothing_waits still)).trans (formCheck_settled past)

/-! ## The first message -/

/-- What draws on the generator alone still does once a port has taken note of it and a message has gone out. -/
theorem drewOnly_sent (drew : drewOnly s t) (f : Port → Port) (o : Output) :
    drewOnly s { modPort port f (emit o t) with ports := s.ports, out := s.out } := by
  obtain ⟨slots, frame⟩ := drew
  rw [drewBytes_iff] at frame
  have rest : generatorOf s { modPort port f (emit o t) with ports := s.ports, out := s.out } = s :=
    congrArg (fun v => { v with ports := s.ports, out := s.out }) frame
  exact ⟨slots, rest⟩

/-- `t` is `s` with a first message of this end sent on a port and awaiting its answer (R239 step 1). -/
structure FirstSent (port : Nat) (s t : State) : Prop where
  sent : ∃ h, Output.handshake port true h ∈ t.out ∧ h.identity = identityDigest s
  phase : (get5 t.ports port).hs.phase = 1
  keyed : (get5 t.ports port).keyed = (get5 s.ports port).keyed
  drew : drewOnly s { t with ports := s.ports, out := s.out }

/-- The first message before it is signed: the public key of a new pair, and a nonce (R239 step 1). -/
def firstMessage (r : Ring) (s : State) : Handshake :=
  { sigOk := true, decapOk := true, identity := identityDigest s, ringDigest := ringDigest r, chain := s.kst.chain, sig := []
    kem := bvBytes 1568 (Config.mlkemPub (drbgTake 64 s).1), nonce := (drbgTake 32 (drbgTake 64 s).2).1 }

theorem startHandshake_sends (hring : s.ring = some r) (ready : drbgReady 3 s = true) : FirstSent port s (startHandshake port s) := by
  obtain ⟨m, u, signed, identity, -, drew⟩ := hsSign_eq true [] (firstMessage r s) (drbgTake 32 (drbgTake 64 s).2).2
  have drawn : drewOnly s u := drewOnly_trans (drbgTake_drewOnly 64 s) (drewOnly_trans (drbgTake_drewOnly 32 _) drew)
  unfold firstMessage at signed
  simp only [startHandshake, hring, ready, signed]
  constructor
  case sent => exact ⟨m, List.mem_append_right _ (List.mem_singleton_self _), identity⟩
  case drew => exact drewOnly_sent drawn _ _
  case phase => simp [get5_mod5_same]
  case keyed => simp [get5_mod5_same, drewOnly_ports drawn]

/-- What the port itself is like before a first message is sent does not show in what the message changes. -/
theorem FirstSent.of_modPort {f : Port → Port} (first : FirstSent port (modPort port f s) t) (keyed : ∀ p, (f p).keyed = p.keyed) :
    FirstSent port s t := by
  obtain ⟨sent, phase, kept, slots, frame⟩ := first
  rw [drewBytes_iff] at frame
  have rest : generatorOf s { t with ports := s.ports, out := s.out } = s := congrArg (fun v => { v with ports := s.ports }) frame
  rw [modPort_ports, get5_mod5_same, keyed] at kept
  exact ⟨sent, phase, kept, slots, rest⟩

/-! ## The first message arrives -/

/-- The secret that the answer's encapsulation shares (R239 step 2), its randomness one request of 32 bytes (notes/assumptions 38). -/
def sharedWith (h : Handshake) (s : State) : Bytes := bvBytes 32 (Config.mlkemEncapSs h.kem (drbgTake 32 s).1)

/-- A message of a handshake verifies and comes from the neighbour that the ring expects (R239 steps 2 and 3). -/
structure Holds (r : Ring) (port : Nat) (h : Handshake) : Prop where
  sigOk : h.sigOk = true
  decapOk : h.decapOk = true
  identity : h.identity = expectedId r (facing r port)

/-- The answer before it is signed: the encapsulation's ciphertext, and a nonce (R239 step 2). -/
def answerMessage (r : Ring) (h : Handshake) (s : State) : Handshake :=
  { sigOk := true, decapOk := true, identity := identityDigest s, ringDigest := ringDigest r, chain := s.kst.chain, sig := []
    kem := bvBytes 1568 (Config.mlkemEncapCt h.kem (drbgTake 32 s).1), nonce := (drbgTake 32 (drbgTake 32 s).2).1 }

/-- A port that has answered: it no longer waits for the generator, and keeps no message. -/
def answered (p : Port) : Port := { p with hs := { p.hs with phase := if p.hs.phase = 3 then 0 else p.hs.phase, held := none } }

/-- The keys that the answer `a` to the message `h` gives both ends (R239 step 4). -/
def answeredKeys (h a : Handshake) (s : State) : Bytes × Bytes × Nat × Nat := hsKeys (sharedWith h s) (hsBytes true h ++ hsBytes false a)

/-- A message that holds is answered, and its keys are taken unless a LINK_ID is bad (R239 step 4). -/
theorem answerHandshake_answers (link : LinkUp s r port) (responds : initiates port = false) (granted : drbgGrants 3 3 s = true)
    (holds : Holds r port h) : ∃ a u, a.identity = identityDigest s ∧ a.ringDigest = ringDigest r ∧ drewOnly s u ∧
      answerHandshake port h s =
        let k := answeredKeys h a s
        let v := modPort port answered (emit (.handshake port false a) u)
        if idsBad k then v else handshakeDone port r h k.2.1 k.1 k.2.2.2 k.2.2.1 v := by
  obtain ⟨hring, mode, up⟩ := link
  obtain ⟨sigOk, decapOk, identity⟩ := holds
  obtain ⟨a, u, signed, named, digest, drew⟩ :=
    hsSign_eq false (hsBytes true h) (answerMessage r h s) (drbgTake 32 (drbgTake 32 s).2).2
  have drawn : drewOnly s u := drewOnly_trans (drbgTake_drewOnly 32 s) (drewOnly_trans (drbgTake_drewOnly 32 _) drew)
  unfold answerMessage at signed
  refine ⟨a, u, named, digest, drawn, ?_⟩
  simp only [answerHandshake, hring, mode, up, responds, sigOk, decapOk, identity, granted, signed, bne_self_eq_false]
  rfl

/-- On a new link the answer goes out, and the keys are taken unless a LINK_ID is bad. -/
theorem answerHandshake_new_link (link : LinkUp s r port) (settled : r.state ≠ 1) (new : (get5 s.ports port).keyed = false)
    (empty : (get5 s.ports port).ringQ = []) (responds : initiates port = false) (granted : drbgGrants 3 3 s = true) (holds : Holds r port h) :
    ∃ a v, Output.handshake port false a ∈ v.out ∧ a.identity = identityDigest s ∧ a.ringDigest = ringDigest r ∧ v.ring = s.ring ∧
      answerHandshake port h s =
        let k := answeredKeys h a s
        if idsBad k then v else linkKeyed port r h k.2.1 k.1 k.2.2.2 k.2.2.1 v := by
  obtain ⟨a, u, named, digest, drew, answers⟩ := answerHandshake_answers link responds granted holds
  have sent : Output.handshake port false a ∈ (modPort port answered (emit (.handshake port false a) u)).out :=
    List.mem_append_right _ (List.mem_singleton_self _)
  have ring : (modPort port answered (emit (.handshake port false a) u)).ring = s.ring := by
    rw [modPort_ring, emit_ring, drewOnly_ring drew]
  have here : get5 (modPort port answered (emit (.handshake port false a) u)).ports port = answered (get5 s.ports port) := by
    rw [modPort_ports, get5_mod5_same, emit_ports, drewOnly_ports drew]
  generalize modPort port answered (emit (.handshake port false a) u) = v at answers sent ring here
  refine ⟨a, v, sent, named, digest, ring, answers.trans ?_⟩
  dsimp only
  rw [handshakeDone_new_link (settled_of_ring (ring.trans link.ring) settled) (by rw [here]; exact new) (by rw [here]; exact empty)]

/-- At the initiating end a first message of the neighbour asks for a rekey (R241). -/
theorem answerHandshake_rekeys (link : LinkUp s r port) (begins : initiates port = true) (keyed : (get5 s.ports port).keyed = true)
    (idle : (get5 s.ports port).hs.phase = 0) : answerHandshake port h s = startHandshake port s := by
  obtain ⟨hring, mode, up⟩ := link
  simp only [answerHandshake, hring, mode, up, begins, keyed, idle]
  rfl

/-! ## The answer arrives -/

/-- The keys that the initiator derives from an answer (R239 steps 3 and 4). -/
def derivedKeys (port : Nat) (h : Handshake) (s : State) : Bytes × Bytes × Nat × Nat :=
  hsKeys (bvBytes 32 (Config.mlkemDecaps (get5 s.ports port).hs.dk h.kem)) ((get5 s.ports port).hs.sentInit ++ hsBytes false h)

/-- An answer that holds, with good LINK_IDs, ends the handshake of the initiator. -/
theorem ringHandshakeResponseReceive_done {port : PortId} (link : LinkUp s r port.val)
    (asked : (get5 s.ports port.val).hs.phase = 1) (holds : Holds r port.val h)
    (good : idsBad (derivedKeys port.val h s) = false) :
    let k := derivedKeys port.val h s
    exec (.ringHandshakeResponseReceive port h) s = .next (handshakeDone port.val r h k.1 k.2.1 k.2.2.1 k.2.2.2 s) := by
  obtain ⟨hring, mode, up⟩ := link
  obtain ⟨sigOk, decapOk, identity⟩ := holds
  unfold derivedKeys at good ⊢
  simp only [exec, execRingHandshakeResponseReceive, hring, mode, up, asked, sigOk, decapOk, identity, good, bne_self_eq_false]
  rfl

/-! ## A message that does not hold -/

/-- A link that went down for a reason of Table 12-5. -/
def Down (reason : Nat) (p : Port) : Prop := p.up = false ∧ p.keyed = false ∧ p.reason = reason

theorem postEvent_ring (code sev arg0 arg1 : Nat) : (postEvent code sev arg0 arg1 s).ring = s.ring :=
  (congrArg State.ring (carriersOf_postEvent s s code sev arg0 arg1) :)

theorem ringBroken_settled (settled : Settled s) : Settled (ringBroken port s) := by
  unfold ringBroken
  split
  · exact settled
  next r hring =>
    split
    · have broken : (postEvent 0x0601 2 port (r.id % 2 ^ 32) (modRing (fun r => { r with state := 4 }) s)).ring = some { r with state := 4 } := by
        rw [postEvent_ring]
        exact congrArg (Option.map _) hring
      exact settled_of_ring broken (show 4 ≠ 1 by decide)
    · exact settled

theorem linkGoesDown_settled (settled : Settled s) (reason : Nat) : Settled (linkGoesDown port reason s) := by
  have posted : Settled (postEvent 0x0901 2 (pack [(port, 8), (reason, 8)]) 0
      (modPort port (fun p => { p with up := false, keyed := false, lock := 0, reason := reason, sticky := setBit p.sticky 1, xoffIn := false }) s)) := by
    unfold Settled
    rw [postEvent_ring]
    exact settled
  unfold linkGoesDown
  dsimp only
  split
  · exact settled
  · split
    · exact ringBroken_settled posted
    · exact posted

theorem linkGoesDown_down (up : (get5 s.ports port).up = true) (reason : Nat) : Down reason (get5 (linkGoesDown port reason s).ports port) := by
  unfold linkGoesDown
  dsimp only
  rw [up, Bool.not_true, if_neg Bool.false_ne_true]
  split
  · simp [Down, ringBroken_ports, dropLinkKeys, clearSlots, postEvent_ports, get5_mod5_same]
  · simp [Down, postEvent_ports, get5_mod5_same]

/-- A handshake that fails on a new link takes it down, for the reason of the failure. -/
theorem handshakeFails_down (settled : Settled s) (up : (get5 s.ports port).up = true) (new : (get5 s.ports port).keyed = false) (reason : Nat) :
    Down reason (get5 (handshakeFails port reason s).ports port) := by
  have past : Settled (modPort port (fun p => { p with formed := 2 }) (linkGoesDown port reason s)) := linkGoesDown_settled settled reason
  have down := linkGoesDown_down up reason
  unfold handshakeFails
  rw [new, if_neg Bool.false_ne_true]
  dsimp only
  split
  · rw [formCheck_settled past, modPort_ports, get5_mod5_same]
    exact down
  · exact down

/-- The message does not verify, or comes from another module than the neighbour of the ring. -/
def Fails (r : Ring) (port : Nat) (h : Handshake) : Prop := h.sigOk = false ∨ h.decapOk = false ∨ h.identity ≠ expectedId r (facing r port)

/-- DOWN_REASON for a message that fails: 5 where it does not verify, 6 where it comes from another module (Table 12-5). -/
def failReason (h : Handshake) : Nat := if h.sigOk = false ∨ h.decapOk = false then 5 else 6

/-- How both ends judge a message: its signature and encapsulation first, then its identity. -/
theorem judge_fails (fails : Fails r port h) (next : State) :
    (if !h.sigOk || !h.decapOk then handshakeFails port 5 s
      else if h.identity != expectedId r (facing r port) then handshakeFails port 6 s else next) = handshakeFails port (failReason h) s := by
  unfold failReason
  by_cases unverified : h.sigOk = false ∨ h.decapOk = false
  · rw [if_pos unverified, if_pos (by simpa using unverified)]
  · have foreign : h.identity ≠ expectedId r (facing r port) := by
      obtain sig | decap | other := fails
      · exact absurd (.inl sig) unverified
      · exact absurd (.inr decap) unverified
      · exact other
    rw [if_neg unverified, if_neg (by simpa using unverified), if_pos (bne_iff_ne.mpr foreign)]

theorem answerHandshake_fails (link : LinkUp s r port) (responds : initiates port = false) (fails : Fails r port h) :
    answerHandshake port h s = handshakeFails port (failReason h) s := by
  obtain ⟨hring, mode, up⟩ := link
  simp only [answerHandshake, hring, mode, up, responds]
  exact judge_fails fails _

theorem ringHandshakeResponseReceive_fails {port : PortId} (link : LinkUp s r port.val) (asked : (get5 s.ports port.val).hs.phase = 1)
    (fails : Fails r port.val h) : exec (.ringHandshakeResponseReceive port h) s = .next (handshakeFails port.val (failReason h) s) := by
  obtain ⟨hring, mode, up⟩ := link
  simp only [exec, execRingHandshakeResponseReceive, hring, mode, up, asked]
  exact congrArg Host.Outcome.next (judge_fails fails _)

/-! ## A rekey -/

/-- A direction that has gone over to its next key leaves the next slot empty (R241). -/
theorem switchKey_next_empty (dir : Nat) : slotAt (switchKey port dir s) (linkSlot port dir true) = none := by
  unfold switchKey
  split
  · rw [slotAt_modPort, slotAt_fillSlot_other _ _ (linkSlot_next_ne_current dir), slotAt_clearSlots, if_pos (beq_self_eq_true _)]
  next vacant => exact vacant

/-- What the next slot held is in the current one. -/
theorem switchKey_current {k : KeySlot} {dir : Nat} (next : slotAt s (linkSlot port dir true) = some k) :
    slotAt (switchKey port dir s) (linkSlot port dir false) = some { k with slot := linkSlot port dir false } := by
  unfold switchKey
  rw [next]
  exact slotAt_fillSlot { k with slot := linkSlot port dir false } _

theorem switchKey_ports (dir : Nat) : (switchKey port dir s).ports = mod5 s.ports port (fun p => { p with rekeyCnt := sat p.rekeyCnt }) := by
  unfold switchKey
  split <;> rfl

theorem switchKey_frame (dir : Nat) : linksOf s (switchKey port dir s) = s := by
  unfold switchKey
  split
  · rw [linksOf_modPort, linksOf_fillSlot, linksOf_clearSlots, linksOf_self]
  · rfl

/-- A port whose transmit direction has gone over to the new key (R241). -/
def wentOver (p : Port) : Port :=
  { p with txId := p.hs.txId, txCtr := 0, keyNext := true, resends := []
           hs := if p.hs.rxKey.isEmpty then {} else { p.hs with phase := 5, txKey := [] } }

theorem rekeySwitch_eq {port : PortId} (mode : (get5 s.ports port.val).mode = 2) (up : (get5 s.ports port.val).up = true)
    (keyed : (get5 s.ports port.val).keyed = true) (waits : (get5 s.ports port.val).hs.phase = 2) (acked : (get5 s.ports port.val).replay = [])
    (empty : (get5 s.ports port.val).ringQ = []) :
    exec (.rekeySwitch port) s = .next (modPort port.val wentOver (switchKey port.val 0 s)) := by
  have still : (get5 (modPort port.val wentOver (switchKey port.val 0 s)).ports port.val).ringQ = [] := by
    rw [modPort_ports, switchKey_ports, mod5_mod5, get5_mod5_same]
    exact empty
  simp only [exec, execRekeySwitch, mode, up, keyed, waits, acked]
  exact congrArg Host.Outcome.next (pumpAll_of_nothing_waits still)

theorem get5_rekeySwitch : get5 (modPort port wentOver (switchKey port 0 s)).ports port =
    wentOver { get5 s.ports port with rekeyCnt := sat (get5 s.ports port).rekeyCnt } := by
  rw [modPort_ports, switchKey_ports, mod5_mod5, get5_mod5_same]
  rfl

/-- A port whose first message nothing has answered (R241). -/
def unanswered (p : Port) : Port := { p with sticky := if p.hs.phase = 1 then setBit p.sticky 4 else p.sticky }

theorem rekeyRetry_eq {port : PortId} (mode : (get5 s.ports port.val).mode = 2) (up : (get5 s.ports port.val).up = true)
    (keyed : (get5 s.ports port.val).keyed = true) (begins : initiates port.val = true)
    (due : (get5 s.ports port.val).hs.phase = 4 ∨ (get5 s.ports port.val).hs.phase = 1) :
    exec (.rekeyRetry port) s = .next (startHandshake port.val (modPort port.val unanswered s)) := by
  have again : ((get5 s.ports port.val).hs.phase == 4 || (get5 s.ports port.val).hs.phase == 1) = true := by simpa using due
  simp only [exec, execRekeyRetry, mode, up, keyed, begins, again]
  rfl

/-- LINK_REKEY on a keyed ring link with no handshake under way begins a rekey (R241, R246). -/
theorem linkRekey_eq {mb : MbId} {j : Job} {port : PortId} (begun : Begun s mb 0x0905 j) (length : j.payload.length = 8)
    (named : field j.payload 0 1 = port.val) (reserved : zeroAt j.payload 1 7 = true) (mode : (get5 s.ports port.val).mode = 2)
    (keyed : (get5 s.ports port.val).keyed = true) (idle : (get5 s.ports port.val).hs.phase = 0) :
    exec (.linkRekey mb) s = .next (answer j .ok (beginRekey port.val s)) := by
  have fits : lenIs j 8 = true := beq_iff_eq.mpr length
  have inRange : ¬4 < port.val := by omega
  refine (congrArg Host.Outcome.next (onNewJob_begun begun _)).trans ?_
  simp [fits, arg, portArg, named, reserved, mode, keyed, idle, inRange]

end

/-- Settles O49: a first message is answered and keys the link (`answerHandshake_new_link`), an answer keys it (`ringHandshakeResponseReceive_done`),
one that fails takes it down (`judge_fails`, `handshakeFails_down`); a rekey switches (`rekeySwitch_eq`), and is begun by a first message
(`startHandshake_sends`) or asked for. -/
theorem handshakes : Obligations.Handshakes := by
  unfold Obligations.Handshakes
  refine ⟨fun s port h r hring settled mode up new => ⟨?answers, ?ends, ?fails⟩, fun s port mode up keyed waits acked empty => ?switches,
    fun s port mb j begun length named reserved mode keyed idle responds => ?asks,
    fun s port r hring mode keyed begins ready => ⟨?retries, ?asked, ?rekeys⟩⟩
  case answers =>
    intro empty responds granted sigOk decapOk identity
    obtain ⟨a, v, sent, named, digest, ring, answers⟩ :=
      answerHandshake_new_link ⟨hring, mode, up⟩ settled new empty responds granted ⟨sigOk, decapOk, identity⟩
    dsimp only at answers
    split at answers
    next bad =>
      exact ⟨v, a, _, congrArg Host.Outcome.next answers, sent, named, digest, rfl, ring, fun good => absurd (good.symm.trans bad) Bool.false_ne_true⟩
    next =>
      let k := answeredKeys h a s
      have link := linkKeyed_keyedWith (port := port.val) (r := r) (s := v) h k.2.1 k.1 k.2.2.2 k.2.2.1
      exact ⟨_, a, _, congrArg Host.Outcome.next answers, sent, named, digest, rfl, ring, fun _ =>
        ⟨link.keyed, link.txId, link.rxId, linkKeyed_formed .., link.txKey, link.rxKey⟩⟩
  case ends =>
    intro empty asked sigOk decapOk identity hs k good
    have ends := ringHandshakeResponseReceive_done ⟨hring, mode, up⟩ asked ⟨sigOk, decapOk, identity⟩ good
    have done := handshakeDone_new_link (r := r) (settled_of_ring hring settled) new empty h k.1 k.2.1 k.2.2.1 k.2.2.2
    have link := linkKeyed_keyedWith (port := port.val) (r := r) (s := s) h k.1 k.2.1 k.2.2.1 k.2.2.2
    exact ⟨_, ends.trans (congrArg _ done), link.keyed, link.txId, link.rxId, link.txCtr, link.txKey, link.rxKey, linkKeyed_frame ..⟩
  case fails =>
    intro c receives fails
    refine ⟨_, ?_, handshakeFails_down (settled_of_ring hring settled) up new (failReason h)⟩
    obtain ⟨rfl, responds⟩ | ⟨rfl, asked⟩ := receives
    · exact congrArg Host.Outcome.next (answerHandshake_fails ⟨hring, mode, up⟩ responds fails)
    · exact ringHandshakeResponseReceive_fails ⟨hring, mode, up⟩ asked fails
  case switches =>
    have here := get5_rekeySwitch (s := s) (port := port.val)
    exact ⟨_, rekeySwitch_eq mode up keyed waits acked empty, congrArg Port.txId here, congrArg Port.txCtr here, congrArg Port.keyNext here,
      congrArg Port.rekeyCnt here, switchKey_next_empty 0, fun k next => congrArg (Option.map (·.secret)) (switchKey_current next), switchKey_frame 0⟩
  case asks =>
    rw [linkRekey_eq begun length named reserved mode keyed idle, beginRekey, responds]
    rfl
  case retries =>
    intro up due
    have noted := startHandshake_sends (s := modPort port.val unanswered s) (port := port.val) hring ready
    obtain ⟨⟨h, sent, identity⟩, phase, kept, drew⟩ := noted.of_modPort fun _ => rfl
    exact ⟨_, h, rekeyRetry_eq mode up keyed begins due, sent, identity, phase, kept.trans keyed, drew⟩
  case asked =>
    intro ask up empty idle settled
    obtain ⟨⟨h, sent, identity⟩, phase, kept, drew⟩ := startHandshake_sends (port := port.val) hring ready
    exact ⟨_, h, congrArg Host.Outcome.next (answerHandshake_rekeys ⟨hring, mode, up⟩ begins keyed idle), sent, phase, kept.trans keyed, drew⟩
  case rekeys =>
    intro mb j begun length named reserved idle
    obtain ⟨⟨h, sent, identity⟩, phase, -, drew⟩ := startHandshake_sends (port := port.val) hring ready
    refine ⟨_, h, (linkRekey_eq begun length named reserved mode keyed idle).trans ?_, sent, phase, drew⟩
    rw [beginRekey, begins]
    rfl

end Sys2Proof.Machine
end
